-- ==== Sys2Proof/Word.lean ====
section
/-! DEFINITION. The byte, the quantity type and the triple of lanes. -/

namespace Sys2Proof

/-- One byte on any interface (R7). -/
abbrev Byte := BitVec 8

/-- A physical quantity (kN, m, degrees, seconds ...): an exact rational. What the lanes' binary32 keeps of it is
`Config.f32` of it. -/
abbrev Qty := Rat

/-- One value for each of Lane A, Lane B and Lane C (R14). -/
structure Lane3 (α : Type) where
  a : α
  b : α
  c : α
deriving DecidableEq, Repr, Inhabited

end Sys2Proof
end

