-- ==== Sys2Proof/Config.lean ====
section
/-! DEFINITION. What the machine does not change: the free values the spec leaves open (opaque, no body), the
per-module constants, and the settings of a vessel image as plain data. -/

namespace Sys2Proof.Config

/-- The binary32 number the lanes hold for a quantity whose exact value by the manual's formula is the argument
(R244: one fixed order of operations, not printed), and what R202 makes of a result past the largest binary32 number. Free
value; assumption 3. -/
opaque f32 : Rat → Rat
/-- Sine of an angle in degrees, as the lanes compute it. Free value; assumption 3. -/
opaque sinDeg : Rat → Rat
/-- Cosine of an angle in degrees. Free value; assumption 3. -/
opaque cosDeg : Rat → Rat
/-- atan2(y, x) in degrees. Free value; assumption 3. -/
opaque atan2Deg : Rat → Rat → Rat
/-- Square root. Free value; assumption 3. -/
opaque sqrt : Rat → Rat
/-- Real power. Free value; assumption 3. -/
opaque rpow : Rat → Rat → Rat
/-- Natural exponential. Free value; assumption 3. -/
opaque exp : Rat → Rat
/-- Natural logarithm (CHIRP_LOG of R224). Free value; assumption 3. -/
opaque log : Rat → Rat

/-- SHA-256 of bytes (R370, R388: named, not defined). Free value; assumption 4. -/
opaque sha256 : List Byte → List Byte
/-- ECDSA P-256 verification of key, message, signature (R370, R388: named, not defined). Assumption 4. -/
opaque ecdsaP256 : List Byte → List Byte → List Byte → Bool
/-- The Glengarum public key held in the firmware (R389). Assumption 4. -/
opaque glengarumKey : List Byte

/-- A number the spec leaves open, one for each value of the state's free counter. Assumption 5. -/
opaque freeNat : Nat → Nat
/-- A quantity the spec leaves open, one for each value of the state's free counter. Assumption 5. -/
opaque freeQty : Nat → Rat

/-- ID_SERIAL: serial number, per module (Table 12-7). -/
opaque serial : Nat
/-- ID_VARIANT [7:0]: 1 MA, 2 MX, per module (Table 12-7). -/
opaque variant : Nat
/-- ID_VARIANT [15:8]: hardware revision level, per module (Table 12-7). -/
opaque revision : Nat
/-- FW_RELEASE, per firmware (Table 12-7). -/
opaque fwRelease : Nat
/-- The learned rate of TIMEBASE in ppb after a measurement: time constant in s, rate before, measured error in ns (R75;
loop equations not printed). Free value; assumption 102. -/
opaque learnRate : Nat → Qty → Int → Qty
/-- Base MAC address, 6 bytes as a number (GET_IDENTITY, R462). -/
opaque baseMac : Nat
/-- Clock accuracy, variance and time source that the module announces, by STATE and selected source (R87 gives none). Free value;
assumption 112. -/
opaque ptpQuality : Nat → Nat → Nat × Nat × Nat

end Sys2Proof.Config

namespace Sys2Proof

/-- A vector in the body or earth frame, m (R8, R9). -/
structure V3 where
  x : Qty := 0
  y : Qty := 0
  z : Qty := 0
deriving DecidableEq, Repr, Inhabited

/-- Settings of one PPS pin (Table 3-12). -/
structure PpsCfg where
  enable : Bool := false
  polarity : Nat := 0
  width : Nat := 1000
  offset : Int := 0
  labelPort : Nat := 255
deriving DecidableEq, Repr, Inhabited

/-- Clock-wide PTP settings (Table 3-11). -/
structure PtpClock where
  clockType : Nat := 0
  domain : Nat := 0
  priority1 : Nat := 128
  priority2 : Nat := 128
deriving DecidableEq, Repr, Inhabited

/-- PTP settings of one port (Table 3-11). -/
structure PtpPort where
  enable : Bool := false
  transport : Nat := 0
  delay : Nat := 0
  oneStep : Nat := 0
  logSync : Int := 0
  logAnnounce : Int := 0
  logDelay : Int := 0
  timeout : Nat := 3
  copy : Bool := false
  ingress : Nat := 0
  egress : Nat := 0
deriving DecidableEq, Repr, Inhabited

/-- Budgets that the image gives (R46, Tables 2-1 and 2-3), µs and bytes, by index; none, or no entry, is the default. -/
structure ImageTt where
  budget : List (Option Nat) := []
  mram : List (Option Nat) := []
  ring : List (Option Nat) := []
  egress : List (Option Nat) := []
deriving DecidableEq, Repr, Inhabited

/-- Time settings of the image (R69, R71, R75, R76). -/
structure ImageTime where
  /-- leap-second table, at most 64 entries: module second from which it holds, TAI-UTC -/
  leap : List (Nat × Int) := []
  order : List Nat := [0, 1, 2]
  ext10m : Bool := false
  tau : Nat := 100
  k : Qty := 617 / 1000000000000000
  kExt : Qty := 482 / 100000000000000000
  c : Qty := 2 / 10
  cExt : Qty := 0
  ppsA : PpsCfg := {}
  ppsB : PpsCfg := {}
  ppsIn : PpsCfg := {}
  clock : PtpClock := {}
  ports : List PtpPort := []
deriving DecidableEq, Repr, Inhabited

/-- GNSS settings of the image (R97, R99, R100, R103, R107, R115, R121). -/
structure ImageGnss where
  mode : Nat := 3
  solutionMax : Nat := 6
  rate : Nat := 10
  mask : Nat := 10
  heading : Bool := true
  antBAbsent : Bool := false
  extPowered : List Bool := [false, false]
  baseLen : Qty := 0
  baseTol : Qty := 2 / 100
  glonassBias : List Qty := []
  antA : V3 := {}
  antB : V3 := {}
  corrLink : Option Nat := none
  rawPort : Option Nat := none
  rawIp : Nat := 0
  rawUdp : Nat := 0
deriving DecidableEq, Repr, Inhabited

/-- A correction held for one satellite (R109): kind 0 observations, 1 SSR orbit, 2 SSR clock; the message that brought it,
its number and its arrival in ms. -/
structure CorrRow where
  kind : Nat := 0
  number : Nat := 0
  system : Nat := 0
  sv : Nat := 0
  band : Nat := 0
  at_ : Nat := 0
  data : List Byte := []
deriving DecidableEq, Repr, Inhabited

/-- The base antenna of the station messages (R108, Table 4-6): its reference point in m, and the antenna height of 1006. -/
structure BasePoint where
  point : V3 := {}
  height : Option Qty := none
deriving DecidableEq, Repr, Inhabited

/-- What one satellite gives the position solution (R96, R97, R105): its corrected range in m, the carrier phases in cycles of
its L1 and L5 band signals in TRACK, Doppler, elevation and the corrections used for it. -/
structure RangeIn where
  system : Nat := 0
  sv : Nat := 0
  range : Qty := 0
  phases : List (Option Qty) := []
  doppler : Qty := 0
  elevation : Qty := 0
  corr : List CorrRow := []
deriving DecidableEq, Repr, Inhabited

/-- How the solution treats the system time scales (R98): the system its clock is referred to, the systems with an estimated
offset, and the broadcast offset of a system with one satellite, in ns. -/
structure ClockPlan where
  ref : Nat := 0
  estimated : List Nat := []
  broadcast : List (Nat × Qty) := []
deriving DecidableEq, Repr, Inhabited

/-- A position solution (R105): antenna position, velocity, covariance, the instant in ns of the reference system's time
scale, the range test statistic divided by its threshold, the normalised residual of each range (R110), and the ratio of the
ambiguity search of an RTK solution. -/
structure GnssSol where
  llh : V3 := {}
  vel : V3 := {}
  sigmaN : Qty := 0
  sigmaE : Qty := 0
  rhoNE : Qty := 0
  sigmaD : Qty := 0
  instant : Int := 0
  test : Qty := 0
  residuals : List Qty := []
  ratio : Qty := 0
deriving DecidableEq, Repr, Inhabited

/-- Carrier-phase single differences of one satellite between the antennas, cycles: L1 band, and the wide-lane in NATIVE
mode (R106, R107). -/
structure SdRow where
  system : Nat := 0
  sv : Nat := 0
  elevation : Qty := 0
  l1 : Qty := 0
  wide : Option Qty := none
deriving DecidableEq, Repr, Inhabited

/-- What the length-constrained ambiguity search finds (R106, R107): ratio, length, azimuth, elevation, azimuth 1σ, and the
line bias in cycles. -/
structure BaseSol where
  ratio : Qty := 0
  len : Qty := 0
  azim : Qty := 0
  elev : Qty := 0
  sd : Qty := 0
  bias : Qty := 0
deriving DecidableEq, Repr, Inhabited

/-- The position solution of a type from its ranges and, with corrections of a station, its base antenna (R105, R110: the
estimator is not printed). Free value; assumption 103. -/
opaque Config.gnssSolve : Nat → Option BasePoint → List RangeIn → ClockPlan → GnssSol
/-- The base antenna that a 1005 or 1006 message gives (R108: layouts are those of RTCM 10403). Assumption 103. -/
opaque Config.rtcmBase : List Byte → BasePoint
/-- The search for the ambiguities constrained to a length and its tolerance (R107: not printed). Assumption 103. -/
opaque Config.baselineSolve : List SdRow → Qty → Qty → BaseSol
/-- A learned AGC baseline after one more gain (R110: learned over 24 h; estimator not printed). Assumption 103. -/
opaque Config.agcLearn : Option Qty → Qty → Qty
/-- Coherent integration in ms of a pilot that is not in TRACK: 1 ms to 20 ms (R101). Assumption 103. -/
opaque Config.coherentMs : Nat → Nat → Nat
/-- Length in ms of one data bit of a system and band (R101: named, not given). Assumption 103. -/
opaque Config.dataBitMs : Nat → Nat → Nat
/-- Satellites and bands of the signals of Table 4-1 that an RTCM message carries (R108, R109: layouts are those of
RTCM 10403). Assumption 103. -/
opaque Config.rtcmSats : List Byte → List (Nat × Nat)
/-- Satellites (system, number) for which a piece of navigation data holds ephemerides (R118, R119). Assumption 103. -/
opaque Config.navSats : List Byte → List (Nat × Nat)
/-- Difference in s of TAI from the GLONASS time scale, to which R98 gives no relation. Assumption 103. -/
opaque Config.glonassShift : Int

/-- Quantities of a field map (R129). -/
inductive Quantity where
  | targetCode | range | bearing | elevation | relX | relY | relDepth | wireFore | wireAthwart
  | roll | pitch | heave | windSpeed | windDir | heading | rateOfTurn | quality | status
  | utcTime | secOfDay | gpsWeekSec | north | east | down | rollRate | pitchRate | heaveRate
deriving DecidableEq, Repr, Inhabited

/-- One field of a field map (R129). -/
structure FieldMap where
  index : Nat := 0
  quantity : Quantity := .quality
  scale : Qty := 1
  offset : Qty := 0
  validChars : List Byte := []
deriving DecidableEq, Repr, Inhabited

/-- One input binding of a reference or sensor (R127 to R135). -/
structure Binding where
  link : Nat := 0
  talker : Option (List Byte) := none
  formatter : List Byte := []
  fieldCond : Option (Nat × List Byte) := none
  canSources : List Nat := []
  tagged : Bool := false
  latencyNs : Int := 0
  lambdaMinNs : Int := 0
  map : List FieldMap := []
deriving DecidableEq, Repr, Inhabited

/-- Filters of one serial or UDP port (R127). -/
structure PortCfg where
  link : Nat := 0
  talkers : List (List Byte) := []
  formatters : List (List Byte) := []
  checksumOptional : Bool := false
deriving DecidableEq, Repr, Inhabited

/-- One target of a catalogue (R148). -/
structure Target where
  code : Option Nat := none
  pos : V3 := {}
deriving DecidableEq, Repr, Inhabited

/-- One position reference of the image (R123, R138, R143 to R155, R166 to R169). -/
structure RefCfg where
  kind : Nat := 0
  periodNs : Int := 1000000000
  bindings : List Binding := []
  maxAgeNs : Int := 2000000000
  lever : V3 := {}
  refineLimit : Qty := 1 / 2
  sigmaConv : Qty := 5 / 100
  autoFreeze : Bool := true
  rangeMin : Qty := 0
  rangeMax : Qty := 100000
  sectorCentre : Qty := 0
  sectorHalf : Qty := 180
  qualityMin : Qty := 0
  /-- covariance of a Gaussian or table measurement: north, north and east, east (R166) -/
  cov : Qty × Qty × Qty := (1, 0, 1)
  /-- covariance of an external GNSS fix by its fix quality, where it differs (Table 5-1) -/
  covByQuality : List (Nat × Qty × Qty × Qty) := []
  sigmaRange : Qty := 1
  sigmaBearing : Qty := 1
  cap : Nat := 1152
  tableKernel : Option (List Nat × Nat × Nat) := none
  catalogue : List Target := []
  assocGate : Qty := 138 / 10
  missPenalty : Int := 256
  deleteCount : Nat := 10
  anchorDist : Qty := 1 / 2
  weightDepth : Qty := 0
deriving DecidableEq, Repr, Inhabited

/-- One sensor of the image (R123, R125, R138). -/
structure SenCfg where
  kind : Nat := 0
  periodNs : Int := 1000000000
  bindings : List Binding := []
  maxAgeNs : Int := 2000000000
deriving DecidableEq, Repr, Inhabited

/-- Reference and sensor settings of the image (chapter 05). -/
structure ImageRef where
  refs : List (Option RefCfg) := []
  sensors : List (Option SenCfg) := []
  anchor : Option Nat := none
  voteDelayNs : Int := 20000000
  thrHeading : Qty := 1
  thrRollPitch : Qty := 1 / 2
  thrHeave : Qty := 2 / 10
  thrWindSpeed : Qty := 2
  thrWindDir : Qty := 15
  ports : List PortCfg := []
deriving DecidableEq, Repr, Inhabited

/-- Fusion, observer and setpoint settings of the image (R168 to R185, R191, R197). -/
structure ImageFusion where
  exclCells : Nat := 20
  supportThr : Nat := 288
  ringTerms : Nat := 2
  gObs : Qty := 138 / 10
  conflictMs : Nat := 60000
  waveTw : Qty := 8
  waveDamping : Qty := 1 / 10
  waveAdapt : Bool := true
  waveFilter : List Bool := [true, true, true]
  envTau : Qty := 1000
  redundancy : Nat := 2
  drLimitMs : Nat := 10000
  lostLimit : Qty := 3
  /-- parameters of the vessel model (R184; their list is not in the manual) -/
  model : List Qty := []
  /-- process noise of the observer (R186) -/
  procNoise : List Qty := []
  vMax : Qty := 1 / 2
  aMax : Qty := 5 / 100
  rMax : Qty := 1
  moveLimit : Qty := 50
deriving DecidableEq, Repr, Inhabited

/-- The binding of one command loop slot (chapter 07, Thruster servo loops): kind of Table 7-4, command channel,
feedback channel. -/
structure LoopBind where
  kind : Nat := 0
  cmdCh : Nat := 0
  fbCh : Option Nat := none
deriving DecidableEq, Repr, Inhabited

/-- Loops of one thruster block (Table 7-5): command slots 0 to 3 and the load feedback channel. -/
structure ThrLoops where
  slots : List (Option LoopBind) := []
  loadCh : Option Nat := none
deriving DecidableEq, Repr, Inhabited

/-- One switchboard's power inputs (R216). -/
structure BusCfg where
  availCh : Option Nat := none
  loadCh : Option Nat := none
  reserve : Qty := 0
deriving DecidableEq, Repr, Inhabited

/-- Control settings of the image (R204, R212, R216, R220, R222). -/
structure ImageCtl where
  /-- bank content: address and byte, zero elsewhere -/
  bank : List (Nat × Byte) := []
  loops : List ThrLoops := []
  joystick : List (Option Nat) := [none, none, none]
  buses : List BusCfg := []
  /-- coefficient envelope: byte offset of the field in the bank, lowest, highest -/
  envelope : List (Nat × Qty × Qty) := []
deriving DecidableEq, Repr, Inhabited

/-- A forbidden sector of a thruster (Table 8-1, R239). -/
structure SectorCfg where
  centre : Qty := 0
  half : Qty := 1
  group : Nat := 0
  cond : Option Nat := none
deriving DecidableEq, Repr, Inhabited

/-- A thruster record (Table 8-1). -/
structure ThrCfg where
  azimuth : Bool := false
  x : Qty := 0
  y : Qty := 0
  alpha : Qty := 0
  tMax : Qty := 1
  tRev : Qty := 1
  radii : List Qty := []
  gamma : Qty := 2
  pRated : Qty := 1
  beta : Qty := 3 / 2
  switchboard : Nat := 1
  rate : Qty := 1 / 10
  azRate : Qty := 10
  weight : Qty := 1
  sectors : List SectorCfg := []
  availCh : Option Nat := none
  kDeg : Qty := 8 / 10
deriving DecidableEq, Repr, Inhabited

/-- A joint of an attached body (R253): kind 0 REV_X, 1 REV_Y, 2 REV_Z, 3 PRISM_X. -/
structure JointCfg where
  kind : Nat := 0
  offset : V3 := {}
  channel : Nat := 0
  scale : Qty := 1
  bias : Qty := 0
  lo : Qty := 0
  hi : Qty := 0
deriving DecidableEq, Repr, Inhabited

/-- An attached body (R253). -/
structure BodyCfg where
  base : V3 := {}
  joints : List JointCfg := []
  tip : V3 := {}
  vTol : Qty := 1
deriving DecidableEq, Repr, Inhabited

/-- Allocation settings of the image (R229 to R253, Table 8-3). -/
structure ImageAlloc where
  thrusters : List (Option ThrCfg) := []
  kc : Qty := 1
  ks : Qty := 10000
  lRef : Qty := 50
  iterations : Nat := 48
  rho : Qty := 1 / 10
  sigma : Qty := 1 / 1000000
  relax : Qty := 16 / 10
  tol : Qty := 5 / 1000
  policy : Nat := 0
  tauD : Qty := 10
  horizon : Qty := 1 / 10
  fTan : Qty := 1 / 10
  lowHold : Qty := 1 / 100
  escapeMs : Nat := 10000
  ties : List (Nat × Nat × Nat) := []
  bodies : List BodyCfg := []
  switchboards : Nat := 0
deriving DecidableEq, Repr, Inhabited

/-- A channel characteristic (R278, Table 9-15): kind 0 LINEAR, 1 SQRT, 2 TABLE. -/
structure CharCfg where
  kind : Nat := 0
  engLo : Qty := 0
  engHi : Qty := 1
  cutoff : Qty := 1 / 100
  cLo : Qty := 0
  cHi : Qty := 1
  table : List Qty := []
deriving DecidableEq, Repr, Inhabited

/-- The role the image binds a channel to (R299). -/
inductive ChanRole where
  | unbound
  | command (thruster : Nat) (kind : Nat)
  | feedback (thruster : Nat)
  | other
deriving DecidableEq, Repr, Inhabited

/-- Configuration of one process channel (Table 9-12, R277, R286, R292, R295); `falling` is the edge polarity of R296. -/
structure ChanCfg where
  mode : Nat := 0
  hart : Bool := false
  ne43 : Bool := true
  alarmHigh : Bool := false
  burst : Bool := false
  multidrop : Bool := false
  holdMs : Nat := 2000
  rbWindow : Nat := 50
  iLo : Nat := 8000
  iHi : Nat := 40000
  trimOff : Int := 0
  trimGain : Int := 0
  thr : Nat := 6000
  hyst : Nat := 1000
  filt : Nat := 0
  timeout : Nat := 1000
  supAllow : Nat := 1200
  iBudget : Nat := 0
  mdAddr : List Nat := []
  preambles : Nat := 5
  charac : CharCfg := {}
  depth : Nat := 6
  dcOn : Bool := false
  tauDc : Qty := 1
  captureMs : Nat := 1000
  handoverRate : Qty := 20
  falling : Bool := false
  role : ChanRole := .unbound
deriving DecidableEq, Repr, Inhabited

/-- A thruster's entry of the safety limits block (Table 10-11). -/
structure SbThr where
  thruster : Nat := 0
  azimuth : Bool := false
  channel : Nat := 0
  signed : Bool := false
  codeLo : Nat := 0
  codeHi : Nat := 48000
  sltAhead : Qty := 0
  sltRev : Qty := 0
  x : Qty := 0
  y : Qty := 0
  alpha : Qty := 0
  tMax : Qty := 1
  tRev : Qty := 1
  gamma : Qty := 2
  iLo : Nat := 8000
  iHi : Nat := 40000
deriving DecidableEq, Repr, Inhabited

/-- An excluded sector of the safety limits block (Table 10-2). -/
structure SbSector where
  centre : Qty := 0
  half : Qty := 5
  fSec : Qty := 0
  armed : Bool := false
deriving DecidableEq, Repr, Inhabited

/-- The safety limits block (Table 10-2, R303). Safe values: channel, kind 0 ZERO, 1 HOLD, 2 CODE, and the code. -/
structure Limits where
  bytes : List Byte := []
  crc : Nat := 0
  filterNs : Nat := 250
  tDiscMs : Nat := 100
  proofH : Nat := 0
  safe : List (Nat × Nat × Nat) := []
  thrusters : List SbThr := []
  sectors : List SbSector := []
  rLim : Qty := 0
  nHold : Qty := 0
  rStop : Qty := 0
  tStop : Qty := 1
deriving DecidableEq, Repr, Inhabited

/-- Consist settings of the image (R334, R343, R344, R349, R437): arbitration 0 NONE, 1 WITNESS, 2 EXTERNAL. -/
structure ImageConsist where
  size : Nat := 1
  eligible : List Nat := [1]
  preferred : Nat := 1
  arbitration : Nat := 0
  autoReintegrate : Bool := true
  faultRestart : Bool := false
deriving DecidableEq, Repr, Inhabited

/-- Command service of one Ethernet port (R362). -/
structure CmdPort where
  service : Bool := false
  ip : Nat := 0
  mask : Nat := 0
  gateway : Nat := 0
  ranges : List (Nat × Nat) := []
  mtu : Nat := 1500
deriving DecidableEq, Repr, Inhabited

/-- Command interface settings of the image (R362, R370, R372): credentials are maximum authority and public key. -/
structure ImageCmd where
  ports : List CmdPort := []
  udpPort : Nat := 47810
  timeoutS : Nat := 60
  creds : List (Nat × List Byte) := []
deriving DecidableEq, Repr, Inhabited

/-- A display region (R419): source 0 unused, 1 HOST, 2 MODULE, 3 JUNCTION; patterns give the segments that are on. -/
structure RegionCfg where
  source : Nat := 0
  segments : List Nat := []
  dead : List Nat := []
  idle : List Nat := []
  quantity : Nat := 0
deriving DecidableEq, Repr, Inhabited

/-- Display settings of the image (R416, R419, R423); band thresholds in °C, V_LCD in mV. -/
structure ImageDisp where
  regions : List RegionCfg := []
  bandThr : List Qty := [-20, 0, 20, 40, 60]
  bandMv : List Int := [5600, 5200, 4800, 4500, 4200, 3900]
  tempFromChannel : Bool := false
  tempOffset : Qty := 0
  tempCh : Nat := 0
  crackLimit : Qty := 2000
  crackBlank : Bool := false
deriving DecidableEq, Repr, Inhabited

/-- The settings a vessel image carries, as far as the manual names them. The layout of the body bytes is
Alaolaxa's own (R303), so `Config.imageBody` relates the two. -/
structure Image where
  /-- work-site origin of the earth frame: latitude and longitude in degrees, height in m (R9) -/
  site : V3 := {}
  tt : ImageTt := {}
  time : ImageTime := {}
  gnss : ImageGnss := {}
  ref : ImageRef := {}
  fusion : ImageFusion := {}
  ctl : ImageCtl := {}
  alloc : ImageAlloc := {}
  chans : List ChanCfg := []
  sb : Limits := {}
  consist : ImageConsist := {}
  cmd : ImageCmd := {}
  disp : ImageDisp := {}
deriving DecidableEq, Repr, Inhabited

/-- The settings that the body bytes of an image spell (layout not in the manual). Free value; assumption 6. -/
opaque Config.imageBody : List Byte → Image
/-- The limits section of an image body, byte for byte (R303: where it stands is Alaolaxa's own). Free value; assumption 4. -/
opaque Config.limitsSection : List Byte → List Byte

end Sys2Proof
end

