-- ==== Sys2Proof/Syntax.lean ====
section
/-! DEFINITION. The commands and events of the block: one constructor per row of spec/opcode_table.json, and the
types of their operands. An operand is what the surroundings supply (a packet, a measured value, a lane's own copy);
what the block itself knows stands in State. -/

namespace Sys2Proof

/-- A lane (R14). -/
inductive Lane where
  | a | b | c
deriving DecidableEq, Repr, Inhabited

/-- The two kinds of input set (R24). -/
inductive SetKind where
  | frame | tick
deriving DecidableEq, Repr, Inhabited

/-- The voted sensor quantities (R140, Table 5-6). -/
inductive VoteQ where
  | heading | roll | pitch | heave | windSpeed | windDir
deriving DecidableEq, Repr, Inhabited

/-- What one lane reports at the end of a work-item activity (R52): items completed, HELD, and whether the report
arrived within the wait of R50. -/
structure ItemReport where
  items : Nat := 0
  held : Bool := false
  arrived : Bool := true
deriving DecidableEq, Repr, Inhabited

/-- The budgeted shared resources (R56, Table 2-3). -/
inductive Traffic where
  | mram | ring | egress (port : Nat)
deriving DecidableEq, Repr, Inhabited

/-- Where a command packet came from (Table 12-1), and so where its reply goes. -/
inductive Src where
  | udp (port ip udpPort : Nat)
  | pcie (queue index repLen : Nat)
  | relay (entry : Nat)
deriving DecidableEq, Repr, Inhabited

/-- A command packet (Table 12-2), its transport checks (R368 steps 1 and 2) and its way back. `wireSize` is the
transport size; `crcOk` says that the CRC-32C verified. -/
structure Packet where
  opcode : Nat := 0
  tag : Nat := 0
  queue : Nat := 0
  flags : Nat := 0
  length : Nat := 0
  session : Nat := 0
  sequence : Nat := 0
  payload : List Byte := []
  wireSize : Nat := 20
  crcOk : Bool := true
  src : Src := .udp 0 0 0
deriving DecidableEq, Repr, Inhabited

/-- One satellite of a measurement epoch, as the baseband measured it (R96 to R100, R110): code ranges in m and carrier
phases in cycles and C/N0 in dB-Hz of the signals A-L1, A-L5, B-L1, B-L5; the broadcast or SSR model's slant ionospheric delay
at L1 in m; and whether its L5 band signal is usable, which COMPAT does not track. -/
structure SatObs where
  system : Nat := 0
  sv : Nat := 0
  k : Int := 0
  elevation : Qty := 0
  azimuth : Qty := 0
  pr : List Qty := []
  cp : List Qty := []
  doppler : Qty := 0
  ionoModel : Qty := 0
  cn0 : List Qty := []
  l5 : Bool := false
deriving DecidableEq, Repr, Inhabited

/-- One entry of an observation epoch (Table 4-11); range and phase values are bit patterns as delivered. -/
structure ObsEntry where
  system : Nat := 0
  sv : Nat := 0
  band : Nat := 0
  antenna : Nat := 0
  channel : Nat := 0
  cn0 : Nat := 0
  obsFlags : Nat := 0
  pr : Nat := 0
  cp : Nat := 0
  doppler : Nat := 0
  lockMs : Nat := 0
  k : Int := 0
  svFlags : Nat := 0
  elev : Int := 0
  azim : Nat := 0
deriving DecidableEq, Repr, Inhabited

/-- What the receiver's radio side measures in one epoch (R103 to R110): satellites and signals, the gains of the four paths in
dB, the broadcast inter-system offsets in ns (R98), whether a PPP solution has converged, the satellites predicted in view
(system, number, elevation), and navigation data received. -/
structure EpochIn where
  sats : List SatObs := []
  obs : List ObsEntry := []
  agc : List Qty := []
  ggto : Qty := 0
  bdtGps : Qty := 0
  pppConverged : Bool := false
  visible : List (Nat × Nat × Qty) := []
  nav : List (List Byte) := []
  leap : Option (Nat × Int) := none
  inTime : Bool := true
deriving DecidableEq, Repr, Inhabited

/-- What happens on a tracking channel (Table 4-2): a signal allocated to it, what its search, dwells and loops find, a C/N0
measurement, the outputs of its correlators (R101), its limit of time reached, its satellite below the mask. -/
inductive TrackEvent where
  | allocated (system sv band antenna : Nat) (k : Int)
  | peak (cn0 : Qty)
  | dwell (confirmed : Bool)
  | freqLocked
  | phaseLocked
  | boundary
  | cn0 (v : Qty)
  | lockDrop
  | lossOfLock
  | reacquired
  | timeout
  | released
  | dump (early prompt late data noise : Qty)
deriving DecidableEq, Repr, Inhabited

/-- What a snapshot capture takes in (R116): the gains of the four paths, the GNSS-SAMPLE count and the samples of both bands
of both antennas, 163,680 bytes. -/
structure CaptureIn where
  agc : List Nat := []
  sampleCount : Nat := 0
  samples : List Byte := []
deriving DecidableEq, Repr, Inhabited

/-- What the hot-fix search finds for one satellite (R119): its signals, its Doppler against the prediction in Hz, and the
peak C/N0 in each band. -/
structure HotSat where
  obs : SatObs := {}
  doppler : Qty := 0
  cn0L1 : Qty := 0
  cn0L5 : Qty := 0
deriving DecidableEq, Repr, Inhabited

/-- What the hot-fix search finds (R119), with the broadcast inter-system offsets in ns. -/
structure HotfixIn where
  sats : List HotSat := []
  ggto : Qty := 0
  bdtGps : Qty := 0
deriving DecidableEq, Repr, Inhabited

/-- The measured values of one 1 ms island sample (R274, R283, R296, R297, R464): terminal voltage in mV, loop current in nA, energy
store in mV, a transmitter supply at its limit, input voltage in µV, the input's course in mode 6 as instants of module time in ns
with the voltage from then on, and another island in series that limits the current. -/
structure IslSample where
  vTerm : Int := 0
  current : Int := 0
  energyMv : Nat := 0
  supplyLimit : Bool := false
  inputUv : Int := 0
  wave : List (Nat × Int) := []
  seriesLimit : Bool := false
deriving DecidableEq, Repr, Inhabited

/-- An island upstream slot as a tick-set record (Table 9-4). -/
structure UpSlot where
  state : Nat := 0
  flagsA : Nat := 0
  flagsB : Nat := 0
  count : Nat := 0
  value : Int := 0
  mean : Int := 0
  readback : Int := 0
  vTerm : Nat := 0
  driven : Nat := 65535
  unsettled : Nat := 0
  hartN : Nat := 0
  hartRx : List Byte := []
  tick : Nat := 0
  eStore : Nat := 0
deriving DecidableEq, Repr, Inhabited

/-- A received HART frame (R288, R290): address, command, response code, device status, data; burst or response. -/
structure HartFrame where
  address : Nat := 0
  command : Nat := 0
  respCode : Nat := 0
  devStatus : Nat := 0
  data : List Byte := []
  isBurst : Bool := false
deriving DecidableEq, Repr, Inhabited

/-- How a HART transaction ended on the wire (R289): outcome code of HART_TRANSACT, attempts, response. -/
structure HartResult where
  outcome : Nat := 1
  attempts : Nat := 0
  respCode : Nat := 0
  devStatus : Nat := 0
  data : List Byte := []
deriving DecidableEq, Repr, Inhabited

/-- A multidrop device's answer to command 3 (R291, Table 9-13 text). -/
structure PollReply where
  devStatus : Nat := 0
  unit : Nat := 0
  pv : Qty := 0
  loopMa : Qty := 0
deriving DecidableEq, Repr, Inhabited

/-- What one phase of a compliance check measures (R286): mean terminal voltage of the last 100 ms, lowest terminal
voltage of a trial, time held loop-powered, and whether the signal box limited the test current. -/
structure CheckMeas where
  vMean : Int := 0
  vMin : Int := 0
  heldMs : Nat := 0
  limited : Bool := false
deriving DecidableEq, Repr, Inhabited

/-- A lane's navigation annex (chapter 10, Command sets): heading, yaw rate and the delivered azimuths of the thrusters. -/
structure Annex where
  heading : Qty := 0
  yaw : Qty := 0
  azim : List Qty := []
deriving DecidableEq, Repr, Inhabited

/-- What reaches the signal box in one tick beside the released sets (R304, R306, R309): which lanes' sets fail their
CRC or tick count, an annex that a faulty lane sends instead of its own, a lane's faulty codes (channel, code), and the
codes that channel 2 arrives at in its own arithmetic where they are not channel 1's (channel, code). -/
structure SbTickIn where
  bad : Lane3 Bool := ⟨false, false, false⟩
  annex : Lane3 (Option Annex) := ⟨none, none, none⟩
  wrong : Lane3 (List (Nat × Nat)) := ⟨[], [], []⟩
  ch2 : Lane3 (List (Nat × Nat)) := ⟨[], [], []⟩
deriving DecidableEq, Repr, Inhabited

/-- The three internal faults of the signal box (Table 10-5, SB_INTERNAL). -/
inductive SbFaultKind where
  | channelDisagreement | selfTest | springbokLine
deriving DecidableEq, Repr, Inhabited

/-- The safety inputs (chapter 10, Safety inputs and outputs); closed of RST-ACK means high. -/
inductive SafetyPin where
  | esdA | esdB | enA | enB | rstAck
deriving DecidableEq, Repr, Inhabited

/-- The two safety input pairs. -/
inductive SafetyPair where
  | esd | en
deriving DecidableEq, Repr, Inhabited

/-- The grandmaster data of an Announce message (R87). -/
structure GmData where
  clockClass : Nat := 248
  accuracy : Nat := 254
  variance : Nat := 65535
  timeSource : Nat := 160
  utcOffset : Int := 0
  identity : Nat := 0
  priority1 : Nat := 128
  priority2 : Nat := 128
  steps : Nat := 0
deriving DecidableEq, Repr, Inhabited

/-- A received PTP message as far as the profile reads it (R86): `supported` says that it uses no feature outside
Table 3-6; `offset` is the offset measurement that it completes, from the stamps at the pins; an Announce carries the data of its
grandmaster and the clock identity and port number of its sender; `transport` is 0 for IEEE 802.3, 1 for UDP over IPv4. -/
structure PtpMsg where
  messageType : Nat := 0
  domain : Nat := 0
  sequenceId : Nat := 0
  transport : Nat := 0
  supported : Bool := true
  sender : Nat := 0
  senderPort : Nat := 1
  gm : GmData := {}
  offset : Option Int := none
deriving DecidableEq, Repr, Inhabited

/-- A PTP message that the module sends itself (R86, R87). -/
inductive PtpTx where
  | announce | sync | delayReq | followUp | delayResp | pdelayReq | pdelayResp | pdelayFollowUp
deriving DecidableEq, Repr, Inhabited

/-- A PTP message as sent (R87): seconds are the low 48 bits of module seconds. A Follow_Up carries the transmit stamp of its Sync or
Pdelay_Resp, an answer the receive stamp of its request (R88). -/
structure PtpSent where
  kind : PtpTx := .announce
  sequenceId : Nat := 0
  domain : Nat := 0
  transport : Nat := 0
  oneStep : Bool := false
  sec : Nat := 0
  ns : Nat := 0
  gm : GmData := {}
deriving DecidableEq, Repr, Inhabited

/-- A transmit stamp to be queued (Table 3-7): kind 0 host packet, 1 PTP event message. -/
structure StampReq where
  kind : Nat := 0
  sequenceId : Nat := 0
  messageType : Nat := 255
  domain : Nat := 255
  cookie : Nat := 0
deriving DecidableEq, Repr, Inhabited

/-- The ring heartbeat payload (Table 11-5). -/
structure Heartbeat where
  address : Nat := 0
  role : Nat := 0
  state : Nat := 0
  flags : Nat := 0
  epoch : Nat := 0
  tick : Nat := 0
  lanes : Nat := 0
  ready : Nat := 0
  timeQuality : Nat := 0
  digest : Nat := 0
  release : Nat := 0
  full : Nat := 0
  delta : Nat := 0
  serial : Nat := 0
deriving DecidableEq, Repr, Inhabited

/-- One entry of a roll call result (R341). -/
structure RollEntry where
  assigned : Nat := 0
  stored : Nat := 0
  serial : Nat := 0
deriving DecidableEq, Repr, Inhabited

/-- The result that HOME broadcasts (R341, R360): the modules found, those that answered, whether the ring is closed, and how many
HOME straps were seen. -/
structure RollOutcome where
  found : Nat := 0
  entries : List RollEntry := []
  ringClosed : Bool := false
  homes : Nat := 1
deriving DecidableEq, Repr, Inhabited

/-- The payload of a ring message by class (Table 11-4, R346, R353, R118, R363). Of a roll call: the operation (0 CHECK, 1 STORE, 2
the one that follows a Boot), the address of the module that sends it on, HOME's serial number and the direction (assumption 111). -/
inductive RingBody where
  | heartbeat (h : Heartbeat)
  | time (sec ns : Nat) (corrPs : Int)
  | rollCall (op address serial : Nat) (east : Bool)
  | rollAnswer (address stored serial : Nat)
  | rollAsk (op : Nat)
  | rollResult (op : Nat) (r : RollOutcome)
  | delta (frame epoch : Nat) (crcOk : Bool) (content : List Byte)
  | piece (index frame epoch : Nat) (crcOk : Bool) (content : List Byte)
  | relay (p : Packet)
  | relayReply (bytes : List Byte)
  | gnssData (bytes : List Byte)
  | other
deriving DecidableEq, Repr, Inhabited

/-- A ring message (R338, Table 11-4). `tTx` is the transmission time, seconds and nanoseconds, of a time message. -/
structure RingMsg where
  src : Nat := 0
  dst : Nat := 255
  cls : Nat := 0
  seq : Nat := 0
  hops : Nat := 0
  payloadLen : Nat := 0
  crcOk : Bool := true
  tTx : Option (Nat × Nat) := none
  corrPs : Int := 0
  body : RingBody := .other
  kind : Nat := 0
  sentEast : Bool := false
deriving DecidableEq, Repr, Inhabited

/-- A datagram on a port with the command service (R362). -/
inductive Datagram where
  | arp (ip : Nat)
  | echo (ip : Nat) (bytes : List Byte)
  | udp (srcIp srcPort dstPort : Nat) (fragment : Bool) (p : Packet)
deriving DecidableEq, Repr, Inhabited

/-- What a doorbell's DMA fetches from host memory (R383): the packets of the entries, or a DMA fault. -/
structure FetchIn where
  packets : List Packet := []
  entryLenBad : Bool := false
  dmaFault : Bool := false
deriving DecidableEq, Repr, Inhabited

/-- The monitored inputs (Table 15-2). -/
inductive SupplyIn where
  | pwrA | pwrB | fld | vbak
deriving DecidableEq, Repr, Inhabited

/-- A change of judgement of a supply input (Table 15-1). -/
inductive SupplyEv where
  | valid | invalid | high | highCleared | absent | fldLow | fldRestored | fldOvercurrent | fldOvercurrentEnd
deriving DecidableEq, Repr, Inhabited

/-- What a Boot at power-on starts with (R442): the HOME strap (R341), and whether the rails step passes. -/
structure BootIn where
  home : Bool := false
  railsOk : Bool := true
deriving DecidableEq, Repr, Inhabited

/-- The outcomes of the Boot steps (Table 15-8). `img0`, `img1` say whether each slot passes R389. -/
structure BootOut where
  junctionOk : Bool := true
  holdupPct : Nat := 100
  factoryOk : Bool := true
  gnssOk : Bool := true
  badIslands : List Nat := []
  lanesOk : Lane3 Bool := ⟨true, true, true⟩
  vbakMv : Nat := 3000
  durationMs : Nat := 300
deriving DecidableEq, Repr, Inhabited

/-- What a scrub of the retained regions finds (R336). -/
inductive ScrubFind where
  | clean | single | doubleElsewhere | doubleCheckpoint | doubleStaging (records : Nat)
deriving DecidableEq, Repr, Inhabited

/-- One datum of an input record (R24 to R26). -/
inductive RecData where
  | sentence (bytes : List Byte)
  | can (pgn src frameIndex total : Nat) (data : List Byte)
  | servoCan (slot : Nat) (value : Int)
  | epoch (e : EpochIn)
  | packet (p : Packet)
  | slot (ch : Nat) (u : UpSlot)
  | sbReport (channels : List Nat) (repeats : Lane3 Bool)
  | rtcm (bytes : List Byte)
  | ring (m : RingMsg)
deriving DecidableEq, Repr, Inhabited

/-- A record on its way into a set (R25, R26): link number, arrival stamp (ns of module time with its quality byte, which
the block fills in, R92) and completion in ns of module time, length. -/
structure InRecord where
  link : Nat := 0
  stampNs : Nat := 0
  quality : Nat := 0
  doneNs : Nat := 0
  length : Nat := 0
  data : RecData := .sentence []
deriving DecidableEq, Repr, Inhabited

/-- What CHECKPOINT meets: 0 for a lane whose state digest, and whose copies of the checkpoint messages, are the majority's, and
whether a checkpoint slot that is completed reads back rightly (R39). -/
structure CkptIn where
  digErr : Lane3 Nat := ⟨0, 0, 0⟩
  copyErr : Lane3 Nat := ⟨0, 0, 0⟩
  verified : Bool := true
deriving DecidableEq, Repr, Inhabited

/-- What the scrubs of HOUSEKEEPING find: a lane with a double-bit error (R331), and the finding in the junction's SRAM (R336). -/
structure ScrubIn where
  lane : Option Lane := none
  junction : ScrubFind := .clean
deriving DecidableEq, Repr, Inhabited

/-- The resource whose waiting traffic is released (R56), and whether what a release writes to MRAM reads back rightly (R39). -/
structure ReleaseIn where
  res : Traffic
  verified : Bool := true
deriving DecidableEq, Repr

/-- What an antenna input measures: its supply current, and whether the supply is at its current limit (R115). -/
structure AntennaIn where
  microamps : Nat := 0
  atLimit : Bool := false
deriving DecidableEq, Repr, Inhabited

/-- A ring message as it arrives, and whether a checkpoint slot that it completes reads back rightly (R338, R39). -/
structure RingIn where
  msg : RingMsg := {}
  verified : Bool := true
deriving DecidableEq, Repr, Inhabited

/-- What the Boot of a takeover measures: the self-test of each lane, the hold-up store and VBAK (R354, Table 15-1). -/
structure RestoreIn where
  lanesOk : Lane3 Bool := ⟨true, true, true⟩
  holdupPct : Nat := 100
  vbakMv : Nat := 3000
deriving DecidableEq, Repr, Inhabited

/-- One command or event of the block: one constructor for each row of opcode_table.json. -/
inductive Instr where
  /-- TICK_STROBE (R43). -/
  | tickStrobe (copyErr : Lane3 Nat)
  /-- FRAME_BOUNDARY (R19). -/
  | frameBoundary
  /-- RECORD_ARRIVAL (R25). -/
  | recordArrival (r : InRecord)
  /-- REDELIVERY (R30). -/
  | redelivery (kind : SetKind) (lane : Lane) (err : Nat) (complete : Bool)
  /-- JUNCTION_INPUT_PATH_FAULT (R31). -/
  | junctionInputPathFault (kind : SetKind)
  /-- INPUT_GATHER (R29). -/
  | inputGather (copyErr : Lane3 Nat)
  /-- FAST_PACKET_TIMEOUT (R130). -/
  | fastPacketTimeout (link src pgn : Nat)
  /-- TIME_ALIGNMENT (R135). -/
  | timeAlignment
  /-- SENSOR_DEVIATING (R140). -/
  | sensorDeviating (q : VoteQ) (cand : Nat)
  /-- SENSOR_READMIT (R140). -/
  | sensorReadmit (q : VoteQ) (cand : Nat)
  /-- TARGET_ASSOCIATION (R151). -/
  | targetAssociation
  /-- REF_NO_DATA (R159). -/
  | refNoData (sensor : Bool) (index : Nat)
  /-- GRID_FUSION (R170). -/
  | gridFusion
  /-- REF_CONFLICT_RAISED (R180). -/
  | refConflictRaised
  /-- REF_CONFLICT_CLEARED (R181). -/
  | refConflictCleared
  /-- CONFLICT_TIMEOUT (R182). -/
  | conflictTimeout
  /-- RECENTRE_MEASURED (R183). -/
  | recentreMeasured
  /-- PROBATION_END (R176). -/
  | probationEnd (ref : Nat)
  /-- OBSERVER (R185). -/
  | observer
  /-- OBSERVER_INIT_END (R187). -/
  | observerInitEnd
  /-- CONTROL_LAW (R203). -/
  | controlLaw
  /-- POSITION_TERMS_RETURN (R208). -/
  | positionTermsReturn
  /-- PERIOD_LOST (R212). -/
  | periodLost (axis : Nat)
  /-- ALLOCATION (R244). -/
  | allocation
  /-- ALLOC_FAILING (R248). -/
  | allocFailing
  /-- DEMAND_UNMET (R250). -/
  | demandUnmet (set : Bool)
  /-- TRANSIT_ENTRY (R241). -/
  | transitEntry (thruster sector : Nat)
  /-- OUTPUT_DISTRIBUTION (R234). -/
  | outputDistribution
  /-- LOOP_BANK_SWAP_APPLY (R222). -/
  | loopBankSwapApply
  /-- INJECTION_START (R225). -/
  | injectionStart
  /-- INJECTION_END (R226). -/
  | injectionEnd
  /-- CAPTURE_DONE (R227). -/
  | captureDone
  /-- CHECKPOINT (R351). -/
  | checkpoint (x : CkptIn)
  /-- HOST_SERVICE (R52). -/
  | hostService (rep : Lane3 ItemReport)
  /-- LOGGING (R52). -/
  | logging (rep : Lane3 ItemReport)
  /-- HOUSEKEEPING (R52). -/
  | housekeeping (rep : Lane3 ItemReport) (found : ScrubIn)
  /-- HELD_AT_SIGNAL (R48). -/
  | heldAtSignal (act : Nat) (held : Lane3 Bool)
  /-- OUTCOME_TIMEOUT (R50). -/
  | outcomeTimeout (act : Nat) (lane : Lane)
  /-- CHAIN_CLOSING_HOLD (R53). -/
  | chainClosingHold (running : Lane3 Bool)
  /-- PERSISTENT_HOLD (R55). -/
  | persistentHold (act : Nat)
  /-- DEFERRED_TRAFFIC_RELEASE (R56). -/
  | deferredTrafficRelease (x : ReleaseIn)
  /-- DEFERRED_COMMAND_EFFECT (R61). -/
  | deferredCommandEffect
  /-- SOURCE_QUALIFIED (R70). -/
  | sourceQualified (id : Nat) (err : Int)
  /-- SOURCE_LOST (R70). -/
  | sourceLost (id : Nat)
  /-- STEP_APPLIED (R79). -/
  | stepApplied (residual : Int)
  /-- SLEW_COMPLETE (R78). -/
  | slewComplete
  /-- FREERUN_ENTRY (R77). -/
  | freerunEntry
  /-- EXT10M_QUALIFIED (R74). -/
  | ext10mQualified
  /-- EXT10M_LOST (R74). -/
  | ext10mLost
  /-- PPS_OUT_PULSE (R82). -/
  | ppsOutPulse (out : Nat)
  /-- PPS_IN_EDGE (R85). -/
  | ppsInEdge (ns : Nat)
  /-- PTP_MESSAGE (R86). -/
  | ptpMessage (port : Nat) (m : PtpMsg)
  /-- PTP_ANNOUNCE_TIMEOUT (R70). -/
  | ptpAnnounceTimeout (port : Nat)
  /-- TX_STAMP_QUEUED (R91). -/
  | txStampQueued (port : Nat) (e : StampReq)
  /-- SNAP_LATCH (R93). -/
  | snapLatch (value : Nat)
  /-- TIME_GET (R94). -/
  | timeGet (p : Packet)
  /-- TIME_SOURCE (R94). -/
  | timeSource (p : Packet)
  /-- PTP_CONFIG (R94). -/
  | ptpConfig (p : Packet)
  /-- TX_STAMP_READ (R91). -/
  | txStampRead (p : Packet)
  /-- PPS_CONFIG (R94). -/
  | ppsConfig (p : Packet)
  /-- GNSS_EPOCH (R103). -/
  | gnssEpoch (e : EpochIn)
  /-- EPOCH_BLOCK_TIMEOUT (R104). -/
  | epochBlockTimeout
  /-- CHANNEL_STATE_CHANGE (R102). -/
  | channelStateChange (channel : Nat) (ev : TrackEvent)
  /-- MODE_FALLBACK (R99). -/
  | modeFallback
  /-- MODE_RETURN (R99). -/
  | modeReturn
  /-- RTCM_FRAME (R108). -/
  | rtcmFrame (bytes : List Byte)
  /-- ANTENNA_FAULT_DETECT (R115). -/
  | antennaFaultDetect (antenna : Nat) (x : AntennaIn)
  /-- ANTENNA_RETRY (R115). -/
  | antennaRetry (antenna : Nat) (normal : Bool)
  /-- SNAPSHOT_CAPTURE (R116). -/
  | snapshotCapture (c : CaptureIn)
  /-- HOTFIX_COMPLETE (R119). -/
  | hotfixComplete (h : HotfixIn)
  /-- GNSS_STATUS (R122). -/
  | gnssStatus (p : Packet)
  /-- GNSS_RAW (R122). -/
  | gnssRaw (p : Packet)
  /-- GNSS_CORRECTIONS (R122). -/
  | gnssCorrections (p : Packet)
  /-- GNSS_MODE (R122). -/
  | gnssMode (p : Packet)
  /-- INTEGRITY_REPORT (R122). -/
  | integrityReport (p : Packet)
  /-- REF_ENABLE (R160). -/
  | refEnable (p : Packet)
  /-- REF_DISABLE (R158). -/
  | refDisable (p : Packet)
  /-- REF_STATUS (R160). -/
  | refStatus (p : Packet)
  /-- LEVER_ARM_GET (R160). -/
  | leverArmGet (p : Packet)
  /-- LEVER_ARM_FREEZE (R160). -/
  | leverArmFreeze (p : Packet)
  /-- TRACK_TABLE_READ (R160). -/
  | trackTableRead (p : Packet)
  /-- FUSION_STATUS (R195). -/
  | fusionStatus (p : Packet)
  /-- GRID_SNAPSHOT (R196). -/
  | gridSnapshot (p : Packet)
  /-- GRID_HOLD_EXPIRY (R196). -/
  | gridHoldExpiry
  /-- CONFLICT_RESOLVE (R197). -/
  | conflictResolve (p : Packet)
  /-- SETPOINT_SET (R192). -/
  | setpointSet (p : Packet)
  /-- LOOP_BANK_WRITE (R221). -/
  | loopBankWrite (p : Packet)
  /-- LOOP_BANK_SWAP (R222). -/
  | loopBankSwap (p : Packet)
  /-- INJECT_START (R225). -/
  | injectStart (p : Packet)
  /-- CAPTURE_READ (R227). -/
  | captureRead (p : Packet)
  /-- REPETITIVE_CTRL (R211). -/
  | repetitiveCtrl (p : Packet)
  /-- ALLOC_STATUS (R259). -/
  | allocStatus (p : Packet)
  /-- THRUSTER_ENABLE (R259). -/
  | thrusterEnable (p : Packet)
  /-- THRUSTER_DISABLE (R63). -/
  | thrusterDisable (p : Packet)
  /-- ALLOC_MODE (R259). -/
  | allocMode (p : Packet)
  /-- ATTACH_BODY_SET (R260). -/
  | attachBodySet (p : Packet)
  /-- APPLY_MARKER (R272). -/
  | applyMarker (missed bad : List Nat)
  /-- UPSTREAM_SLOT (R271). -/
  | upstreamSlot (bad : List Nat)
  /-- LINK_FAULT (R271). -/
  | linkFault (ch : Nat)
  /-- SPLIT_ALARM (R272). -/
  | splitAlarm (ch : Nat)
  /-- ISLAND_SAMPLE (R283). -/
  | islandSample (ch : Nat) (x : IslSample)
  /-- COMPLIANCE_SET (R283). -/
  | complianceSet (ch : Nat)
  /-- COMPLIANCE_CLEAR (R283). -/
  | complianceClear (ch : Nat)
  /-- READBACK_FAULT (R274). -/
  | readbackFault (ch : Nat)
  /-- ALARM_ENTRY (R280). -/
  | alarmEntry (ch : Nat)
  /-- ALARM_UNDELIVERABLE (R281). -/
  | alarmUndeliverable (ch : Nat)
  /-- ASSISTED_POWER_FAIL (R265). -/
  | assistedPowerFail (ch : Nat)
  /-- LINK_SLOT_LOSS_HOLD (R266). -/
  | linkSlotLossHold (ch : Nat)
  /-- HOLD_TIMEOUT (R266). -/
  | holdTimeout (ch : Nat)
  /-- ENERGY_LOW (R265). -/
  | energyLow (ch : Nat)
  /-- CAPTURE_TIMEOUT (R277). -/
  | captureTimeout (ch : Nat)
  /-- SERIES_LIMITED_EXPIRY (R276). -/
  | seriesLimitedExpiry (ch : Nat)
  /-- DECIMATION_OUTPUT (R292). -/
  | decimationOutput (ch : Nat) (raw : Int)
  /-- OVERLOAD_SET (R464). -/
  | overloadSet (ch : Nat)
  /-- OVERLOAD_CLEAR (R464). -/
  | overloadClear (ch : Nat)
  /-- NO_PULSE (R296). -/
  | noPulse (ch : Nat)
  /-- HART_FRAME_RECEIVED (R288). -/
  | hartFrameReceived (ch : Nat) (f : HartFrame)
  /-- HART_TRANSACTION_END (R289). -/
  | hartTransactionEnd (ch : Nat) (r : HartResult)
  /-- MULTIDROP_POLL (R291). -/
  | multidropPoll (ch : Nat) (r : Option PollReply)
  /-- MISSING_RETRY (R291). -/
  | missingRetry (ch : Nat) (addr : Nat) (r : Option PollReply)
  /-- CONFIG_PENDING_APPLY (R300). -/
  | configPendingApply (ch : Nat)
  /-- COMPLIANCE_CHECK_PHASE (R286). -/
  | complianceCheckPhase (x : CheckMeas)
  /-- CHAN_CONFIG (R299). -/
  | chanConfig (p : Packet)
  /-- CHAN_STATUS (R299). -/
  | chanStatus (p : Packet)
  /-- CHAN_READ (R299). -/
  | chanRead (p : Packet)
  /-- HART_TRANSACT (R289). -/
  | hartTransact (p : Packet)
  /-- CHAN_CHARACTERISTIC (R278). -/
  | chanCharacteristic (p : Packet)
  /-- FILTER_CONFIG (R295). -/
  | filterConfig (p : Packet)
  /-- COMPLIANCE_CHECK (R287). -/
  | complianceCheck (p : Packet)
  /-- SB_COMMAND_SET (R305). -/
  | sbCommandSet (x : SbTickIn)
  /-- SB_INTERNAL (R309). -/
  | sbInternal (cause : SbFaultKind)
  /-- SAFETY_INPUT_CHANGE (R312). -/
  | safetyInputChange (pin : SafetyPin) (closed : Bool)
  /-- DISCREPANCY (R313). -/
  | discrepancy (pair : SafetyPair)
  /-- SAFE_CONTACT_TIMEOUT (R314). -/
  | safeContactTimeout (contactB : Bool)
  /-- YAW_RATE_STOP (R301). -/
  | yawRateStop
  /-- SB_SELF_TEST_END (R301). -/
  | sbSelfTestEnd (passed openA openB : Bool)
  /-- PROOF_DUE (R320). -/
  | proofDue
  /-- RESET_PULSE (R317). -/
  | resetPulse
  /-- RST_STUCK (R318). -/
  | rstStuck
  /-- RST_STUCK_CLEAR (R318). -/
  | rstStuckClear
  /-- SPRINGBOK_RELEASE (R324). -/
  | springbokRelease
  /-- SPRINGBOK_TEST (R321). -/
  | springbokTest (seenA seenB : Bool)
  /-- SAFETY_STATUS (R328). -/
  | safetyStatus (p : Packet)
  /-- SAFETY_LIMITS_GET (R328). -/
  | safetyLimitsGet (p : Packet)
  /-- PROOF_STATUS (R328). -/
  | proofStatus (p : Packet)
  /-- EGRESS_COPY (R330). -/
  | egressCopy (lane : Lane) (id : Nat) (err : Nat)
  /-- EGRESS_TIMEOUT (R330). -/
  | egressTimeout (id : Nat)
  /-- REINTEGRATION_START (R334). -/
  | reintegrationStart (lane : Lane)
  /-- LANE_ENTER_SERVICE (R334). -/
  | laneEnterService (lane : Lane)
  /-- JUNCTION_PAIR_DIFFERENCE (R335). -/
  | junctionPairDifference (block unit : Nat)
  /-- JUNCTION_BLOCK_RECOVERED (R335). -/
  | junctionBlockRecovered (block unit : Nat)
  /-- RING_MESSAGE (R338). -/
  | ringMessage (east : Bool) (x : RingIn)
  /-- RING_LINK_UP (R339). -/
  | ringLinkUp (east : Bool)
  /-- RING_LINK_DOWN (R339). -/
  | ringLinkDown (east : Bool)
  /-- LINK_DELAY_MEASURE (R340). -/
  | linkDelayMeasure (east : Bool) (roundTripPs turnPs : Int)
  /-- ROLL_CALL_START (R341). -/
  | rollCallStart
  /-- ROLL_CALL_END (R341). -/
  | rollCallEnd (r : Unit)
  /-- NO_HOME (R343). -/
  | noHome
  /-- ROLE_ASSIGNMENT (R344). -/
  | roleAssignment
  /-- HEARTBEAT_WORD (R347). -/
  | heartbeatWord (hbB : Bool) (slot : Nat) (word : Nat)
  /-- LEAD_LOST (R348). -/
  | leadLost (addr : Nat)
  /-- CARRIER_FAULT (R348). -/
  | carrierFault (carrier addr : Nat)
  /-- ARB_CONFIRMED (R349). -/
  | arbConfirmed
  /-- ARB_REFUSED (R349). -/
  | arbRefused
  /-- LEAD_YIELD (R349). -/
  | leadYield
  /-- SPLIT_VIEW_CLEAR (R350). -/
  | splitViewClear
  /-- TAKEOVER_START (R355). -/
  | takeoverStart
  /-- TAKEOVER_RESTORE (R354). -/
  | takeoverRestore (x : RestoreIn)
  /-- TAKEOVER_FIRST_FRAME (R355). -/
  | takeoverFirstFrame
  /-- TAKEOVER_CAPTURE (R356). -/
  | takeoverCapture
  /-- TRANSFER_SHADOW_END (R357). -/
  | transferShadowEnd
  /-- TRANSFER_RELEASE (R357). -/
  | transferRelease
  /-- TRANSFER_ABORT (R358). -/
  | transferAbort
  /-- CONSIST_STATUS (R360). -/
  | consistStatus (p : Packet)
  /-- ROLL_CALL (R360). -/
  | rollCall (p : Packet)
  /-- TRANSFER_LEAD (R357). -/
  | transferLead (p : Packet)
  /-- LANE_STATUS (R360). -/
  | laneStatus (p : Packet)
  /-- LANE_REINTEGRATE (R360). -/
  | laneReintegrate (p : Packet)
  /-- COMMAND_DATAGRAM (R362). -/
  | commandDatagram (port : Nat) (d : Datagram)
  /-- RELAY_RECORD_EXPIRY (R363). -/
  | relayRecordExpiry (index : Nat)
  /-- SESSION_TIMEOUT (R372). -/
  | sessionTimeout (slot : Nat)
  /-- COMPLETION_REPLY (R375). -/
  | completionReply (slot tag : Nat)
  /-- RESPONDER (R379). -/
  | responder
  /-- QUEUE_DOORBELL (R383). -/
  | queueDoorbell (queue tail : Nat) (f : FetchIn)
  /-- QUEUE_ENABLE (R383). -/
  | queueEnable (queue value : Nat)
  /-- COMPLETION_HEAD_WRITE (R384). -/
  | completionHeadWrite (queue value : Nat)
  /-- VEC_PEND_CLEAR (R385). -/
  | vecPendClear (high : Bool) (value : Nat)
  /-- VEC_TEST (R386). -/
  | vecTest (value : Nat)
  /-- REGISTER_WRITE (R6). -/
  | registerWrite (offset value : Nat)
  /-- PING (R394). -/
  | ping (p : Packet)
  /-- GET_IDENTITY (R394). -/
  | getIdentity (p : Packet)
  /-- OPEN_SESSION (R369). -/
  | openSession (p : Packet)
  /-- CLOSE_SESSION (R372). -/
  | closeSession (p : Packet)
  /-- GET_RESULT (R376). -/
  | getResult (p : Packet)
  /-- ACK_RESULT (R377). -/
  | ackResult (p : Packet)
  /-- GET_STATE (R394). -/
  | getState (p : Packet)
  /-- SET_MODE (R395). -/
  | setMode (p : Packet)
  /-- IMAGE_BEGIN (R390). -/
  | imageBegin (p : Packet)
  /-- IMAGE_CHUNK (R391). -/
  | imageChunk (p : Packet) (readbackOk : Bool)
  /-- IMAGE_TRANSFER_ABANDON (R390). -/
  | imageTransferAbandon
  /-- IMAGE_COMMIT (R392). -/
  | imageCommit (p : Packet)
  /-- IMAGE_COMMIT_COMPLETE (R393). -/
  | imageCommitComplete (readbackOk : Bool)
  /-- IMAGE_INFO (R394). -/
  | imageInfo (p : Packet)
  /-- TIMETABLE_STATUS (R65). -/
  | timetableStatus (p : Packet)
  /-- TIMETABLE_COUNTERS (R66). -/
  | timetableCounters (p : Packet)
  /-- RECORDER_WRITE (R403). -/
  | recorderWrite (fails : Nat)
  /-- REC_LOAD (R409). -/
  | recLoad
  /-- REC_NEXT (R409). -/
  | recNext
  /-- REC_PREV (R409). -/
  | recPrev
  /-- REC_LOAD_COMPLETE (R409). -/
  | recLoadComplete
  /-- REC_READ_BLOCK (R410). -/
  | recReadBlock (p : Packet)
  /-- REC_INFO (R413). -/
  | recInfo (p : Packet)
  /-- REC_CLEAR (R411). -/
  | recClear (p : Packet)
  /-- REC_MARK (R412). -/
  | recMark (p : Packet)
  /-- DISPLAY_FRAME_START (R415). -/
  | displayFrameStart (crackOhm : Nat)
  /-- CRACK_DETECTED (R423). -/
  | crackDetected
  /-- GLASS_TEMPERATURE_SAMPLE (R416). -/
  | glassTemperatureSample (temp : Option Qty)
  /-- REGION_DEAD (R421). -/
  | regionDead (region : Nat)
  /-- REGION_HOLD_END (R420). -/
  | regionHoldEnd (region : Nat)
  /-- DISP_REGION_WRITE (R420). -/
  | dispRegionWrite (p : Packet)
  /-- DISP_STATUS (R425). -/
  | dispStatus (p : Packet)
  /-- DISP_CONFIG (R425). -/
  | dispConfig (p : Packet)
  /-- SUPPLY_CHANGE (R426). -/
  | supplyChange (input : SupplyIn) (ev : SupplyEv) (mv : Nat)
  /-- VBAK_TEST (R426). -/
  | vbakTest (mv : Nat)
  /-- POWER_FAIL (R428). -/
  | powerFail
  /-- HOLDUP_STOP (R429). -/
  | holdupStop (atThreshold : Bool)
  /-- CHAMOIS_SECOND (R431). -/
  | chamoisSecond
  /-- CHAMOIS_COPY (R431). -/
  | chamoisCopy
  /-- VBAK_COLLAPSE (R431). -/
  | vbakCollapse
  /-- OVER_TEMPERATURE (R460). -/
  | overTemperature (temp : Int)
  /-- FAULT_RESTART (R437). -/
  | faultRestart
  /-- LAYOVER_ENTRY (R438). -/
  | layoverEntry
  /-- LAYOVER_LANES_OFF (R438). -/
  | layoverLanesOff
  /-- SYS_RST_ASSERT (R439). -/
  | sysRstAssert (lowUs : Nat)
  /-- SYS_RST_RELEASE (R439). -/
  | sysRstRelease (railsOk : Bool)
  /-- BOOT_START (R442). -/
  | bootStart (b : BootIn)
  /-- BOOT_COMPLETE (R442). -/
  | bootComplete (b : BootOut)
  /-- WATCHDOG (R441). -/
  | watchdog (railsOk : Bool)
  /-- POWER_STATUS (R446). -/
  | powerStatus (p : Packet)
  /-- POWER_MODE (R446). -/
  | powerMode (p : Packet)
  /-- LANE_MONITOR_FAULT (R331). -/
  | laneMonitorFault (lane : Lane) (supply : Bool)
  /-- TICK_STROBE_MISSING (R336). -/
  | tickStrobeMissing
  /-- ISLAND_THERMAL_LIMIT (R459). -/
  | islandThermalLimit (ch : Nat)
  /-- SENTENCE_OVERLENGTH (R126). -/
  | sentenceOverlength (link : Nat)
  /-- PTP_MESSAGE_TRANSMIT (R87). -/
  | ptpMessageTransmit (port : Nat) (kind : PtpTx)
  /-- RETAINED_REGION_SCRUB (R336). -/
  | retainedRegionScrub (err : ScrubFind)
deriving DecidableEq, Repr

end Sys2Proof
end

