-- ==== Sys2Proof/Machine/State.lean ====
section
/-! DEFINITION. The state of the block, as plain data: every register, set, queue, counter, mode and pin that the
manual gives the module, and the queue of waiting commands. The trailing comment of a field gives its width, the rule
that names it and what it is; `[S]` after it: the spec states the reset value; `[D]`: it does not, and the value is the
model's (assumption 1). A time written `ms` is the value of `mono` at which it began. -/

namespace Sys2Proof.Machine

/-- Why a step stops. `outsideBar0`: raised by REGISTER_WRITE alone, for an offset at or above 64 KiB, which BAR0 does
not have (R380). Safe: the block answers no such access. -/
inductive Fault where
  | outsideBar0 (offset : Nat)
deriving DecidableEq, Repr

/-- Why a command has no meaning. `notModelled`: raised by a dispatch arm alone, for a row that has no meaning yet.
Safe. -/
inductive Refusal where
  | notModelled (mnemonic : String)
deriving DecidableEq, Repr

/-! ### Chapter 03: time base -/

/-- One time source (R70, TIME_SOURCE entry). -/
structure SrcSt where
  present : Bool := false          -- 1; R70 03; source present  [D]
  qualified : Bool := false        -- 1; R70 03; qualified  [D]
  since : Option Nat := none       -- ms; R70 03; its condition holds since  [D]
  offset : Int := 0                -- i64; R94 03; last measured offset from module time, ns  [D]
  lastGood : Option Nat := none    -- ms; R70 03; newest valid solution, pulse or Lead time  [D]
deriving DecidableEq, Repr, Inhabited

/-- One PPS output (R82 to R84). -/
structure PpsOut where
  cfg : PpsCfg := {}               -- Table 3-12 fields; R82 03; settings in force  [D]
  lastNs : Option Int := none      -- ns; R84 03; second boundary of the last pulse, in module time as it runs now  [D]
  pulses : Nat := 0                -- count; R84 03; pulses begun  [D]
  edgeNs : Int := 0                -- ns; R82 03; leading edge of the last pulse, module time when it began  [D]
  width : Nat := 0                 -- u32; R83 03; width of the pulse in progress or last, ns  [D]
  pol : Nat := 0                   -- 1; R83 03; polarity of the pulse in progress or last  [D]
  offset : Int := 0                -- i32; R83 03; offset of the pulse in progress or last, ns  [D]
deriving DecidableEq, Repr, Inhabited

/-- Role of a PTP port (Table 3-6). -/
inductive PtpRole where
  | disabled | listening | master | slave | passive
deriving DecidableEq, Repr, Inhabited

/-- A master heard on a port (Table 3-6, default best master clock algorithm): its clock identity and port number, the data of its
newest Announce, when that arrived, and whether a second Announce has made it a candidate. -/
structure ForeignMaster where
  clock : Nat := 0
  port : Nat := 1
  gm : GmData := {}
  last : Nat := 0
  ok : Bool := false
deriving DecidableEq, Repr, Inhabited

/-- One PTP port (R86 to R89). -/
structure PtpPortSt where
  cfg : PtpPort := {}              -- Table 3-11 fields; R94 03; settings in force  [D]
  role : PtpRole := .disabled      -- 2; R86 03; port state  [D]
  ignored : Nat := 0               -- u32; R86 03; messages with an unsupported feature  [D]
  lastAnnounce : Option Nat := none -- ms; R70 03; last Announce of the master, or LISTENING since  [D]
  offset : Int := 0                -- i32; R94 03; last offset from master, ns  [D]
  sent : Nat := 0                  -- count; R87 03; messages sent by the port  [D]
  last : Option PtpSent := none    -- message; R87 03; newest message sent by the port  [D]
  foreign : List ForeignMaster := [] -- 5 entries; R86 03; masters heard on the port  [D]
  followUp : Option (Nat × Nat) := none -- u16, ns; R86, R88 03; two-step Sync sent whose Follow_Up is still to go, and its transmit stamp  [D]
  delayReqs : List (Nat × Nat) := [] -- u16, ns list; R86, R88 03; Delay_Req messages to answer, and their receive stamps  [D]
  pdelayReqs : List (Nat × Nat) := [] -- u16, ns list; R86, R88 03; Pdelay_Req messages to answer, and their receive stamps  [D]
  pFollowUp : Option (Nat × Nat) := none -- u16, ns; R86, R88 03; two-step Pdelay_Resp sent whose Follow_Up is still to go, and its transmit stamp  [D]
deriving DecidableEq, Repr, Inhabited

/-- One transmit stamp entry (Table 3-7). -/
structure StampEntry where
  sec : Nat := 0
  ns : Nat := 0
  frac : Nat := 0
  quality : Nat := 0
  req : StampReq := {}
deriving DecidableEq, Repr, Inhabited

/-- One port's transmit stamp queue (R90, R91). -/
structure StampQ where
  entries : List StampEntry := []  -- 16 entries; R90 03; oldest first  [D]
  ovf : Bool := false              -- 1; R91 03; OVF flag  [D]
  drops : Nat := 0                 -- u16; R91 03; drop count, saturating  [D]
deriving DecidableEq, Repr, Inhabited

/-- Time snapshot registers (Table 3-9). -/
structure Snap where
  seq : Nat := 0                   -- u32; R93 03; SNAP_SEQ  [S]
  sec : Nat := 0                   -- u64; R93 03; SNAP_SEC  [S]
  ns : Nat := 0                    -- u32; R93 03; SNAP_NS  [S]
  frac : Nat := 0                  -- u16; R93 03; SNAP_FRAC_QUAL [15:0]  [S]
  quality : Nat := 0               -- u8; R93 03; SNAP_FRAC_QUAL [23:16]  [S]
  frame : Nat := 0                 -- u64; R93 03; SNAP_FRAME  [S]
  timeState : Nat := 255           -- u32; R93 03; TIME_STATE  [S]
  errEst : Nat := 0xFFFFFFFF       -- u32; R93 03; ERR_EST  [S]
  stepAt : Nat := 0                -- u64; R93 03; STEP_AT  [S]
  stepAmt : Nat := 0               -- u64; R93 03; STEP_AMT  [S]
  taiUtc : Nat := 0                -- u32; R93 03; TAI_UTC  [S]
  ppsSec : Nat := 0                -- u32; R93 03; PPSIN_SEC  [S]
  ppsNs : Nat := 0                 -- u32; R93 03; PPSIN_NS  [S]
deriving DecidableEq, Repr, Inhabited

/-- The time base (chapter 03). -/
structure TimeSt where
  running : Bool := false          -- 1; R19 03; the strobes run  [D]
  sec : Nat := 0                   -- u64; R12 00; module seconds  [D]
  ns : Nat := 0                    -- u32; R12 00; nanoseconds  [D]
  frac : Nat := 0                  -- u16; R12 00; sub-nanosecond fraction  [D]
  state : Nat := 0                 -- 2; R67 03; STATE 0 INVALID 1 FREERUN 2 HOLDOVER 3 LOCKED  [S]
  steppedAt : Option Nat := none   -- ms; R67 03; last step (STEPPED for 60 s)  [S]
  slewing : Bool := false          -- 1; R67 03; SLEWING  [S]
  slewAt : Nat := 0                -- ms; R78 03; instant at which `err` was measured  [D]
  hops : Nat := 1                  -- count; R76 03; ring hops of the newest Lead time  [D]
  stepCount : Nat := 0             -- 4; R67 03; STEP_COUNT  [S]
  phase : Nat := 0                 -- u32; Table 2-4 02; accumulated steps modulo 1 s, ns  [S]
  selected : Option Nat := none    -- u8; R71 03; selected source ID  [S]
  srcs : List SrcSt := [{}, {}, {}, {}] -- 4 entries; R70 03; time sources  [D]
  order : List Nat := [0, 1, 2]    -- 3 u8; R71 03; priority, 255 disabled  [S]
  extEnabled : Bool := false       -- 1; R74 03; EXT-10M enabled  [D]
  extPresent : Bool := false       -- 1; R74 03; EXT-10M present  [D]
  extSince : Option Nat := none    -- ms; R74 03; EXT-10M stable since  [D]
  extQualified : Bool := false     -- 1; R74 03; EXT-10M qualified  [S]
  err : Int := 0                   -- i64; R76 03; last measured error, ns  [D]
  errKnown : Bool := false         -- 1; R93 03; an error has been measured  [S]
  lostAt : Option Nat := none      -- ms; R76 03; holdover began  [D]
  learned : Qty := 0               -- ppb; R75 03; learned rate of TIMEBASE  [D]
  steer : Qty := 0                 -- ppb; R75 03; steering from the learned rate  [D]
  e0 : Qty := 0                    -- ns; R76 03; error bound at the loss  [D]
  lossTemp : Qty := 0              -- deg C; R76 03; base plate at the loss  [D]
  step : Option (Nat × Int) := none -- u64, i64; R79 03; pending step: boundary second, amount in ns  [S]
  stepSrc : Nat := 0               -- u8; R80 03; source of the pending step  [D]
  leap : List (Nat × Int) := []    -- 64 entries; R69 03; working leap-second table  [D]
  ptpOffsets : List Int := []      -- 16 i64; R70 03; most recent PTP offset measurements  [D]
  ppsRun : Nat := 0                -- count; R70 03; consecutive good PPS-IN pulses  [D]
  ppsLast : Option Nat := none     -- ns; R85 03; last PPS-IN edge, module time in ns  [D]
  ppsInCfg : PpsCfg := {}          -- Table 3-12 fields; R73 03; PPS-IN settings  [D]
  ppsLabel : Option Nat := none    -- u64; R73 03; seconds label of the newest labelled pulse  [D]
  ppsPend : Option (Nat × Bool) := none -- ns, 1; R73 03; newest pulse waiting for its ZDA label, and whether its interval was good  [D]
  ppsOut : List PpsOut := [{}, {}] -- 2 entries; R82 03; PPS-OUT-A and PPS-OUT-B  [D]
  ppsSec : Nat := 0                -- u32; R85 03; seconds of the last PPS-IN edge  [S]
  ppsNs : Nat := 0                 -- u32; R85 03; nanoseconds of the last PPS-IN edge  [S]
  ppsQual : Nat := 0               -- u8; R12 00; quality byte of the PPS-IN stamp  [D]
  ptpClock : PtpClock := {}        -- Table 3-11 fields; R94 03; clock-wide settings  [D]
  ptp : List PtpPortSt := List.replicate 12 {} -- 12 entries; R86 03; PTP ports  [D]
  stamps : List StampQ := List.replicate 12 {} -- 12 queues; R90 03; transmit stamp queues  [D]
  snap : Snap := {}                -- Table 3-9; R93 03; snapshot registers  [S]
deriving DecidableEq, Repr, Inhabited

/-! ### Chapters 01 and 02: input sets and timetable -/

/-- A command that answered PENDING: session slot, tag and sequence of the command (R375, R377). -/
structure Task where
  session : Nat := 0
  tag : Nat := 0
  seq : Nat := 0
deriving DecidableEq, Repr, Inhabited

/-- What waiting traffic carries (R56). -/
inductive Cargo where
  | ckptPiece (slot index : Nat) (data : List Byte)
  | record
  | chunk (slot offset : Nat) (data : List Byte) (task : Task)
  | factory (address : Option Nat)
  | ring (body : RingBody) (dst : Nat) (timed : Bool)
  | ptp (kind : PtpTx)
  | packet (id : Nat)
  | raw (d : List Byte)
deriving DecidableEq, Repr, Inhabited

/-- One write, message or packet that waits for class budget (R56, R57). -/
structure Waiting where
  cls : Nat := 0
  bytes : Nat := 0
  port : Nat := 0
  cargo : Cargo := .record
deriving DecidableEq, Repr, Inhabited

/-- Timetable (chapter 02). -/
structure TtSt where
  frame : Nat := 0                 -- u64; R65 02; frames since Boot  [S]
  tick : Nat := 0                  -- 0 to 9; R19 01; tick of the frame  [D]
  bSec : Nat := 0                  -- u64; R398 13; module seconds of the newest frame boundary  [D]
  bNs : Nat := 0                   -- u32; R398 13; nanoseconds of that boundary  [D]
  bQual : Nat := 0                 -- u8; R398 13; quality byte of that boundary  [D]
  ticks : Nat := 0                 -- u32; R304 10; tick count since Boot  [S]
  strobeDue : Bool := false        -- 1; R19 01; the frame has begun, its tick 0 strobe is still to come  [D]
  boundaryDue : Bool := false      -- 1; R19 01; a tick 0 strobe has come, its frame boundary is still to come  [D]
  nextAct : Nat := 0               -- 0 to 13; R45 02; next activity of the frame  [D]
  servoDone : Bool := false        -- 1; R43 02; the servo slot of this tick has run  [D]
  budget : List Nat := [250, 150, 450, 1050, 350, 250, 1000, 150, 60, 500, 2000, 300, 300] -- 13 u16; R46 02; active budgets, us  [S]
  own : Bool := false              -- 1; Table 2-4 02; image budgets active (0: all defaults)  [D]
  chainEnd : Nat := 0              -- u16; Table 2-4 02; end of output distribution in the previous frame  [D]
  used : List Nat := List.replicate 39 0 -- 39 u16; Table 2-4 02; budget charged in the previous frame  [D]
  usedNow : List Nat := List.replicate 39 0 -- 39 u16; R44 02; budget charged in this frame  [D]
  laneHeld : List Nat := List.replicate 39 0 -- 39 u32; Table 2-5 02; holds reported by each lane  [S]
  agreedHeld : List Nat := List.replicate 13 0 -- 13 u32; Table 2-5 02; agreed holds  [S]
  timeouts : Lane3 Nat := ⟨0, 0, 0⟩ -- 3 u32; Table 2-5 02; outcome timeouts  [S]
  timeoutRun : Lane3 Nat := ⟨0, 0, 0⟩ -- count; R331 11; consecutive outcome timeouts  [D]
  timedOut : Lane3 Bool := ⟨false, false, false⟩ -- 3; R50 02; timed out in the newest outcome  [D]
  heldBy : Lane3 Bool := ⟨false, false, false⟩ -- 3; R50 02; reported HELD or counted so in the newest hold  [D]
  holdLogged : Bool := false       -- 1; R54 02; the newest hold made a record  [D]
  closing : Nat := 0               -- u32; Table 2-5 02; chain-closing holds  [S]
  closingNow : Bool := false       -- 1; Table 2-4 02; chain-closing hold in this frame  [D]
  closingPrev : Bool := false      -- 1; Table 2-4 02; chain-closing hold in the previous frame  [D]
  fsetDrop : Nat := 0              -- u32; Table 2-5 02; records dropped from frame sets  [S]
  tsetDrop : Nat := 0              -- u32; Table 2-5 02; records dropped from tick sets  [S]
  mramDefer : List Nat := List.replicate 4 0 -- 4 u32; Table 2-5 02; MRAM deferrals  [S]
  ringDefer : List Nat := List.replicate 5 0 -- 5 u32; Table 2-5 02; ring deferrals  [S]
  ckptSkip : Nat := 0              -- u32; Table 2-5 02; checkpoint transmissions skipped  [S]
  egressDefer : List Nat := List.replicate 72 0 -- 72 u32; Table 2-5 02; egress deferrals  [S]
  islandDefer : Nat := 0           -- u32; Table 2-5 02; island-link deferrals  [S]
  maxRun : Nat := 0                -- u16; Table 2-5 02; longest run of agreed holds of a chain activity  [S]
  frameClear : Nat := 0            -- u64; Table 2-5 02; frame of the last clear  [S]
  run : List Nat := List.replicate 13 0 -- 13 counts; R55 02; consecutive agreed holds  [D]
  heldNow : List Bool := List.replicate 13 false -- 13; R51 02; held in this frame or tick  [D]
  recAt : List (Option Nat) := List.replicate 13 none -- 13 ms; R54 02; last HELD record per activity  [D]
  recCount : List Nat := List.replicate 13 0 -- 13 u32; R54 02; agreed holds since that record  [D]
  mramBudget : List Nat := [40960, 16384, 32768, 1024] -- 4 u32; R56 02; MRAM class budgets  [S]
  ringBudget : List Nat := [4096, 49152, 65536, 32768, 262144] -- 5 u32; R56 02; ring class budgets  [S]
  egressBudget : List Nat := [4096, 32768, 262144, 65536, 65536, 16384] -- 6 u32; R56 02; egress class budgets  [S]
  mramLeft : List Nat := [40960, 16384, 32768, 1024] -- 4 u32; R56 02; left in this frame  [D]
  ringLeft : List Nat := [4096, 49152, 65536, 32768, 262144] -- 5 u32; R56 02; left in this frame  [D]
  egressLeft : List Nat := (List.replicate 12 [4096, 32768, 262144, 65536, 65536, 16384]).flatten -- 72 u32; R56 02; left in this frame  [D]
  mramWait : List Waiting := []    -- queue; R57 02; waiting MRAM writes  [D]
  ringWait : List Waiting := []    -- queue; R57 02; waiting ring messages  [D]
  egressWait : List Waiting := []  -- queue; R57 02; waiting packets of all ports  [D]
  recWait : Bool := false          -- 1; R56 02; staged records wait for the event recorder class in this frame  [D]
  ringSent : List RingMsg := []    -- queue; R338 11; ring messages (R352) started in this frame, one copy for each link  [D]
deriving DecidableEq, Repr, Inhabited

/-- A lane's request for one re-delivery (R30). -/
structure Redeliv where
  lane : Lane := .a
  kind : SetKind := .frame
  accept : Nat := 0
  first : Nat := 0
deriving DecidableEq, Repr, Inhabited

/-- What an internal GNSS epoch says of its position (Table 5-1, R111, R166): 1σ north and east, correlation, DEGRADED, and
antenna B as the measured point. -/
structure FixInfo where
  sigmaN : Qty := 0
  sigmaE : Qty := 0
  rhoNE : Qty := 0
  degraded : Bool := false
  antB : Bool := false
deriving DecidableEq, Repr, Inhabited

/-- A measurement or quantity parsed from a record (R126 to R131): owner, number of its binding, quantities by name, arrival,
tag, and the quality of an internal epoch. -/
structure Parsed where
  sensor : Bool := false
  index : Nat := 0
  bind : Nat := 0
  fix : Option FixInfo := none
  vals : List (Quantity × Qty) := []
  arrival : Int := 0
  tag : Option Int := none
  latency : Int := 0
  lambdaMin : Int := 0
  internal : Bool := false
  link : Nat := 47
deriving DecidableEq, Repr, Inhabited

/-- An NMEA 2000 fast packet in reassembly (R130). -/
structure FastPkt where
  link : Nat := 0
  src : Nat := 0
  pgn : Nat := 0
  total : Nat := 0
  next : Nat := 0
  data : List Byte := []
  stamp : Nat := 0
  since : Nat := 0
deriving DecidableEq, Repr, Inhabited

/-- Input window and agreement (chapter 01). -/
structure InSt where
  fset : List InRecord := []       -- 128 KiB; R24 01; frame set in hand  [D]
  tset : List InRecord := []       -- 12 KiB; R24 01; tick set in hand  [D]
  fnext : List InRecord := []      -- 128 KiB; R25 01; records of the next frame window  [D]
  tnext : List InRecord := []      -- 12 KiB; R25 01; records of the next tick window  [D]
  fFull : Bool := false            -- 1; R27 01; a drop occurred in the frame window  [D]
  tFull : Bool := false            -- 1; R27 01; a drop occurred in the tick window  [D]
  fcur : List InRecord := []       -- 128 KiB; R29 01; frame set delivered  [D]
  tcur : List InRecord := []       -- 12 KiB; R29 01; tick set delivered  [D]
  fdig : Nat := 0                  -- u64; R29 01; junction digest of the frame set  [D]
  tdig : Nat := 0                  -- u64; R29 01; junction digest of the tick set  [D]
  noSet : Bool := false            -- 1; R31 01; this frame runs on an empty set  [D]
  noVote : Bool := false           -- 1; R51 02; time alignment is held in this frame: no aligned measurement  [D]
  fNoMaj : Nat := 0                -- count; R31 01; consecutive frame sets without majority  [D]
  tNoMaj : Nat := 0                -- count; R31 01; consecutive tick sets without majority  [D]
  redeliv : List Redeliv := []     -- queue; R30 01; re-deliveries requested  [D]
  cmdBytes : Nat := 0              -- 48 KiB; R364 12; command packets' share of the frame set  [D]
  canIn : List (Nat × Int × Nat) := [] -- list; R204 07; servo CAN FD template, newest value, ms of its record  [D]
  parsed : List Parsed := []       -- list; R126 05; records parsed in this frame  [D]
  fast : List FastPkt := []        -- list; R130 05; fast packets in reassembly  [D]
  portSkip : List Nat := []        -- list of links; R126 05; ports discarding until a start character  [D]
  discards : List (Nat × Nat × Nat) := [] -- link, cause, u32; R132 05; discard counts per port and cause  [D]
  discardAt : List (Nat × Nat × Nat) := [] -- link, cause, ms; R132 05; last logged discard  [D]
  packets : List Packet := []      -- queue; R28 01; command packets delivered, waiting for host service  [D]
deriving DecidableEq, Repr, Inhabited

/-! ### Chapter 04: GNSS receiver -/

/-- State of a tracking channel (Table 4-2). -/
inductive ChanTrack where
  | idle | search | verify | pullIn | track | codeOnly | reacq
deriving DecidableEq, Repr, Inhabited

/-- One correlator of a channel (R101): its offset from prompt in chips, whether it takes the pilot, its coherent integration
in ms, and its newest output. -/
structure Correlator where
  offset : Qty := 0
  pilot : Bool := false
  ms : Nat := 1
  value : Qty := 0
deriving DecidableEq, Repr, Inhabited

/-- A tracking channel (R100 to R102). -/
structure GnssChan where
  state : ChanTrack := .idle       -- 3; R102 04; Table 4-2 state  [D]
  since : Nat := 0                 -- ms; R102 04; state entered at  [D]
  k : Int := 0                     -- i8; R95 04; GLONASS frequency channel, -7 to +6  [D]
  dwells : Nat := 0                -- 0 to 4; R102 04; repeat dwells of VERIFY  [D]
  confirmed : Nat := 0             -- 0 to 4; R102 04; dwells that confirmed the peak  [D]
  freqLock : Bool := false         -- 1; R102 04; frequency lock  [D]
  phaseLock : Bool := false        -- 1; R102 04; phase lock  [D]
  boundary : Bool := false         -- 1; R101 04; bit or secondary-code boundary known  [D]
  lowSince : Option Nat := none    -- ms; R102 04; C/N0 below the limit of the state since  [D]
  corr : List Correlator := []     -- 4 or 5 entries; R101 04; correlators with their newest output  [D]
  system : Nat := 0                -- 2; R100 04; system  [D]
  sv : Nat := 0                    -- u8; R100 04; satellite  [D]
  band : Nat := 0                  -- 1; R100 04; band  [D]
  antenna : Nat := 0               -- 1; R100 04; antenna  [D]
  slip : Bool := false             -- 1; R102 04; cycle slip flagged  [D]
deriving DecidableEq, Repr, Inhabited

/-- A stored snapshot: header and samples (R116). -/
structure SnapShot where
  sec : Nat := 0
  ns : Nat := 0
  frac : Nat := 0
  quality : Nat := 0
  at_ : Nat := 0
  seq : Nat := 0
  agc : List Nat := []
  sampleCount : Nat := 0
  crc : Nat := 0
  samples : List Byte := []
deriving DecidableEq, Repr, Inhabited

/-- A raw output datagram (R121). -/
structure RawOut where
  port : Nat := 0
  ip : Nat := 0
  udpPort : Nat := 0
  bytes : List Byte := []
deriving DecidableEq, Repr, Inhabited

/-- The result of one epoch (Tables 4-10 and 4-12). -/
structure EpochRes where
  sec : Nat := 0
  ns : Nat := 0
  frac : Nat := 0
  quality : Nat := 0
  mode : Nat := 0
  solution : Nat := 0
  svUsed : Nat := 0
  svTracked : Nat := 0
  effect : Nat := 2
  flags : Nat := 0
  antenna : Nat := 0
  ned : V3 := {}
  llh : V3 := {}
  vel : V3 := {}
  sigmaN : Qty := 0
  sigmaE : Qty := 0
  rhoNE : Qty := 0
  sigmaD : Qty := 0
  blAzim : Qty := 0
  blSd : Qty := 0
  blElev : Qty := 0
  blOk : Bool := false
  epoch : Nat := 0
  clkOff : Int := 0
  obs : List (ObsEntry × Nat) := []
  excluded : List (Nat × Nat) := []
  ionoFail : Nat := 0
  chi2 : Qty := 0
  clkDev : Qty := 0
  sdSpread : Qty := 0
  cn0Mean : Qty := 0
  cn0Spread : Qty := 0
  agcDev : List Qty := []
  tv : Int := 0
deriving DecidableEq, Repr, Inhabited

/-- GNSS receiver (chapter 04). -/
structure GnssSt where
  sel : Nat := 3                   -- u8; R99 04; mode selected: 0 OFF 1 NATIVE 2 COMPAT 3 AUTO  [S]
  mode : Nat := 0                  -- u8; R99 04; mode running: 0 OFF 1 NATIVE 2 COMPAT 3 SNAPSHOT  [D]
  modeNext : Option Nat := none    -- u8; R99 04; mode that runs from the next epoch on  [D]
  visible : List (Nat × Nat × Qty) := [] -- system, number, degrees; R100 04; satellites predicted in view  [D]
  gf : List (Nat × Nat × Nat × Qty) := [] -- system, number, antenna, m; R102 04; geometry-free carriers of the newest epoch  [D]
  gfNs : Nat := 0                  -- ns; R110 04; marker of the newest epoch  [D]
  lineBias : Qty := 0              -- cycles; R106 04; line bias of the baseline  [D]
  agcBase : List (Option Qty) := [none, none, none, none] -- 4 gains, dB; R110 04; learned AGC baselines  [D]
  clkAcc : Option (Int × Nat) := none -- ns, ns; R110 04; last accepted clock offset and its marker  [D]
  clkHist : List (Nat × Int) := [] -- ns, ns; R110 04; clock offsets of the last 11 s  [D]
  solMax : Nat := 6                -- u8; R122 04; highest solution type permitted  [D]
  rate : Nat := 10                 -- u8; R103 04; epoch rate, Hz  [S]
  rateNew : Option Nat := none     -- u8; R122 04; rate waiting for a multiple of its n  [D]
  mask : Nat := 10                 -- u8; R100 04; elevation mask, degrees  [S]
  heading : Bool := true           -- 1; R122 04; baseline heading enabled  [D]
  dualLowSince : Option Nat := none -- ms; R99 04; fewer than 5 dual-band satellites since  [D]
  dualOkSince : Option Nat := none -- ms; R99 04; at least 6 dual-band satellites since  [D]
  chans : List GnssChan := List.replicate 160 {} -- 160 entries; R100 04; tracking channels  [D]
  flags : Nat := 0                 -- u16; R110 04; integrity flags  [D]
  latched : Nat := 0               -- u16; R113 04; latched flags  [D]
  acked : Nat := 0                 -- u16; R113 04; latched flags whose ACK_SPOOF took effect  [D]
  absentSince : List (Option Nat) := List.replicate 12 none -- 12 ms; R110 04; condition absent since  [D]
  presentSince : List (Option Nat) := List.replicate 13 none -- 13 ms; R110 04; condition present since; entry 12 is the single-signal condition of POWER_ANOMALY  [D]
  streak : List Nat := List.replicate 12 0 -- 12 counts; R110 04; consecutive failing epochs  [D]
  setCount : List Nat := List.replicate 12 0 -- 12 u32; Table 4-14 04; times each flag was set  [S]
  held : List EpochRes := []       -- 4 entries; R122 04; most recent epochs, newest first  [D]
  epochCount : Nat := 0            -- u32; Table 4-10 04; epochs since Boot  [S]
  missed : Nat := 0                -- u32; R104 04; epoch blocks discarded  [D]
  blockOpen : Bool := false        -- 1; R104 04; an epoch block is being delivered  [D]
  blocks : List (Nat × EpochRes) := [] -- list; R104 04; epochs on their way into a frame set, by marker in ns  [D]
  epochFrame : Option Nat := none  -- u64; R103 04; frame of the newest measurement epoch  [D]
  timeValid : Bool := false        -- 1; R70 03; valid time solution  [D]
  ambFixed : Bool := false         -- 1; R107 04; heading ambiguities fixed  [D]
  rtkFloat : Bool := true          -- 1; R99 04; RTK solution at its float stage  [D]
  pppFloat : Bool := true          -- 1; R99 04; PPP solution at its float stage  [D]
  rawSent : Nat := 0               -- count; R121 04; raw datagrams started  [D]
  rawOut : List RawOut := []       -- list; R121 04; datagrams started of the newest epoch, oldest first  [D]
  rawAbandoned : Nat := 0          -- u32; R121 04; raw epochs abandoned  [D]
  frames : Nat := 0                -- u32; R122 04; RTCM frames accepted  [D]
  crcDrops : Nat := 0              -- u32; R108 04; RTCM frames dropped  [D]
  ignored : Nat := 0               -- u32; R108 04; RTCM frames ignored  [D]
  ignoredBy : List (Nat × Nat) := [] -- message number, u32; R108 04; RTCM frames ignored, per number  [D]
  station : Nat := 0xFFFF          -- u16; R122 04; station ID of the last station message  [S]
  base : Option BasePoint := none  -- m; R108 04; base antenna reference point and antenna height  [D]
  descr : List Byte := []          -- 32 bytes; R122 04; last 1033 descriptor  [D]
  msgCount : List Nat := List.replicate 29 0 -- 29 u32; R122 04; messages decoded by number  [S]
  corrQ : List (List Byte) := []   -- frames of up to 1,029 bytes; Table 1-8 01; RTCM frames on their way to the baseband  [D]
  corr : List CorrRow := []        -- list; R109 04; corrections held, newest first  [D]
  antOpen : List Bool := [false, false] -- 2; R115 04; antenna input open  [D]
  antShort : List Bool := [false, false] -- 2; R115 04; antenna input short  [D]
  antOff : List (Option Nat) := [none, none] -- 2 ms; R115 04; antenna supply switched off at  [D]
  antNormal : List (Option Nat) := [none, none] -- 2 ms; R110 04; antenna supply normal since  [D]
  antLow : List (Option Nat) := [none, none] -- 2 ms; R115 04; antenna current below 3 mA since  [D]
  antLimit : List (Option Nat) := [none, none] -- 2 ms; R115 04; antenna current at its limit since  [D]
  snaps : List SnapShot := []      -- 8 slots of 160 KiB; R117 04; snapshot store, newest first  [D]
  snapSeq : Nat := 0               -- u32; R116 04; capture sequence  [D]
  navData : List (List Byte) := [] -- 256 KiB; R118 04; retained navigation data  [D]
  navEph : List (Nat × Nat × Nat) := [] -- system, number, ms; R119 04; arrival of each satellite's ephemerides  [D]
  navNext : Nat := 0               -- count; R118 04; next piece of navigation data that the Lead sends  [D]
  hotRes : Option (Nat × EpochRes) := none -- ns; R119 04; hot fix waiting for the first frame set of the new Lead  [D]
  hotfix : Option Nat := none      -- ms; R119 04; hot fix running since  [D]
  hotfixFailed : Bool := false     -- 1; R119 04; HOTFIX_FAILED  [D]
deriving DecidableEq, Repr, Inhabited

/-! ### Chapter 05: references, sensors, tracks -/

/-- Reference and sensor states (Table 5-10). -/
inductive RefState where
  | unconfigured | disabled | noData | acquiring | active | unaligned | withheld
deriving DecidableEq, Repr, Inhabited

/-- Lever-arm refinement (R144 to R147, Table 5-8: 0 OFF 1 LEARNING 2 CONVERGED 3 FROZEN 4 LIMIT 5 ANCHOR). -/
structure Lever where
  state : Nat := 0                 -- u8; R145 05; refinement state  [D]
  estX : Qty := 0                  -- f32; R144 05; estimate, m  [D]
  estY : Qty := 0                  -- f32; R144 05; estimate, m  [D]
  appX : Qty := 0                  -- f32; R146 05; applied, m  [D]
  appY : Qty := 0                  -- f32; R146 05; applied, m  [D]
  biasN : Qty := 0                 -- f32; R144 05; bias, m  [D]
  biasE : Qty := 0                 -- f32; R144 05; bias, m  [D]
  sigX : Qty := 1                  -- f32; R145 05; 1 sigma, m  [D]
  sigY : Qty := 1                  -- f32; R145 05; 1 sigma, m  [D]
  cov : List Qty := List.replicate 10 0 -- 10 f32; R144 05; covariance of the four states, upper triangle  [D]
  hdg : Option Qty := none         -- f32; R145 05; newest unwrapped heading, none before the first  [D]
  spanLo : Qty := 0                -- f32; R145 05; lowest unwrapped heading since learning  [D]
  spanHi : Qty := 0                -- f32; R145 05; highest unwrapped heading since learning  [D]
  okSince : Option Nat := none     -- ms; R145 05; sigmas small since  [D]
  updates : Nat := 0               -- u32; Table 5-12 05; filter updates  [D]
deriving DecidableEq, Repr, Inhabited

/-- A delivered measurement with its time of validity (R135, R143), its place in the arrival order of the frame (R149), and
the quality of an internal epoch. -/
structure Meas where
  tv : Int := 0
  vals : List (Quantity × Qty) := []
  seq : Nat := 0
  fix : Option FixInfo := none
deriving DecidableEq, Repr, Inhabited

/-- Time alignment of one tagged binding (R135 to R137). -/
structure Align where
  offset : Int := 0                -- i64; R135 05; estimated offset, ns  [D]
  rate : Qty := 0                  -- f32; R135 05; offset rate  [D]
  aligned : Bool := true           -- 1; R135 05; ALIGNED  [D]
  seeded : Bool := false           -- 1; R135 05; an update has been made since enabling  [D]
  k : Nat := 0                     -- 0 to 3; R137 05; consistent updates  [D]
  lastA : Int := 0                 -- ns; R135 05; arrival stamp of the previous update  [D]
deriving DecidableEq, Repr, Inhabited

/-- A delivered sample (R139): time of validity, number of its binding, quantities. -/
structure Sample where
  tv : Int := 0
  bind : Nat := 0
  vals : List (Quantity × Qty) := []
deriving DecidableEq, Repr, Inhabited

/-- One reference or sensor (R123 to R138, R159). -/
structure RefUnit where
  state : RefState := .unconfigured -- 3; R159 05; Table 5-10 state  [D]
  enabled : Bool := false          -- 1; R61 02; enabled  [D]
  align : List Align := []         -- list; R135 05; time alignment of each input binding, in the order of the image  [D]
  updates : Nat := 0               -- u32; Table 5-11 05; records delivered  [S]
  missed : Nat := 0                -- u32; Table 5-11 05; missed updates  [S]
  lastMiss : Nat := 0              -- ms; R31 01; last missed update counted  [D]
  lastRx : Option Nat := none      -- ms; Table 5-11 05; newest delivered record  [D]
  unaligned : Nat := 0             -- u16; Table 5-11 05; times TIME_UNALIGNED entered  [S]
  discards : Nat := 0              -- u32; R132 05; discards  [S]
  meas : List Meas := []           -- list; R135 05; records delivered in this frame  [D]
  lastTv : Option Int := none      -- ns; Table 5-11 05; time of validity of the newest delivered record  [D]
  hist : List Sample := []         -- list; R139 05; samples with t_v that votes still need, newest first  [D]
  fusion : Nat := 0                -- u8; Table 6-3 06; fusion state  [D]
  probation : Nat := 0             -- 0 to 3; R176 06; updates passed in PROBATION  [D]
  proven : Bool := false           -- 1; R176 06; PROBATION left since the reference last became ACTIVE  [D]
  excluded : Bool := false         -- 1; R177 06; EXCLUDED  [D]
  lever : Lever := {}              -- Table 5-12; R144 05; lever-arm refinement  [D]
  overflowAt : Option Nat := none  -- ms; R156 05; last TRACK_OVERFLOW  [D]
  overflowCount : Nat := 0         -- u32; R156 05; overflows in the last minute  [D]
  overflowLog : Option Nat := none -- ms; R156 05; last TRACK_OVERFLOW record  [D]
  rowDrop : Bool := false          -- 1; Table 5-11 05; ROW_DROP in the last frame  [D]
  dropEnd : Bool := false          -- 1; R158 05; tracks are freed at the end of this frame's association  [D]
deriving DecidableEq, Repr, Inhabited

/-- A candidate's standing in a vote (R140). -/
structure Cand where
  deviating : Bool := false        -- 1; R140 05; DEVIATING  [D]
  outSince : Option Nat := none    -- ms; R140 05; beyond the threshold since  [D]
  inSince : Option Nat := none     -- ms; R140 05; within half the threshold since  [D]
deriving DecidableEq, Repr, Inhabited

/-- One voted quantity (R139, R140). -/
structure Vote where
  value : Option Qty := none       -- f32; R140 05; voted value  [D]
  rate : Qty := 0                  -- f32; R141 05; rate of the voted value, per s  [D]
  at_ : Int := 0                   -- ns; R139 05; voting instant of the newest vote  [D]
  status : Nat := 0                -- u8; R140 05; 0 none 1 CONFLICT 2 SINGLE 3 NONE  [D]
  conflict : List Nat := []        -- list; R140 05; candidates in SENSOR_CONFLICT, or the SENSOR_SINGLE one  [D]
  cands : List Cand := List.replicate 25 {} -- 25 entries; R140 05; candidates: SEN00 to SEN23, baseline  [D]
deriving DecidableEq, Repr, Inhabited

/-- Track states (Table 5-9). -/
inductive TrackState where
  | free | tentative | confirmed | coasting
deriving DecidableEq, Repr, Inhabited

/-- One track (R153 to R157). -/
structure Track where
  state : TrackState := .free      -- 2; R154 05; Table 5-9 state  [D]
  ref : Nat := 255                 -- u8; Table 5-13 05; reference  [D]
  anchor : Option Nat := none      -- u8; R155 05; catalogue entry  [D]
  score : Int := 0                 -- i16; R154 05; score S  [D]
  hits : Nat := 0                  -- u8; Table 5-13 05; hits  [D]
  misses : Nat := 0                -- u8; Table 5-13 05; consecutive misses  [D]
  refUpdates : Nat := 0            -- count; R154 05; reference updates since creation  [D]
  earlyHits : Nat := 0             -- count; R154 05; hits within the first 5 reference updates  [D]
  earlyMisses : Nat := 0           -- count; R154 05; misses within the first 5 reference updates  [D]
  pos : V3 := {}                   -- f32; Table 5-13 05; position  [D]
  varN : Qty := 0                  -- f32; Table 5-13 05; variance north  [D]
  varE : Qty := 0                  -- f32; Table 5-13 05; variance east  [D]
  covNE : Qty := 0                 -- f32; R150 05; covariance north and east  [D]
  varD : Qty := 0                  -- f32; Table 5-13 05; variance down  [D]
  tv : Int := 0                    -- ns; R150 05; time to which position and covariance hold  [D]
  lastHit : Nat := 0               -- ms; Table 5-13 05; last hit  [D]
  code : Option Nat := none        -- u16; Table 5-13 05; transponder code  [D]
deriving DecidableEq, Repr, Inhabited

/-- A range-only or bearing-only measurement of an anchored CONFIRMED track in this frame (R155, Table 6-2): reference, t_v,
catalogue position of its target, slant range, bearing about the bow, elevation. -/
structure LineFix where
  ref : Nat := 0
  tv : Int := 0
  target : V3 := {}
  range : Option Qty := none
  bearing : Option Qty := none
  elevation : Option Qty := none
deriving DecidableEq, Repr, Inhabited

/-- References, sensors and tracks (chapter 05). -/
structure RefSt where
  refs : List RefUnit := List.replicate 16 {} -- 16 entries; R123 05; REF00 to REF15  [D]
  sens : List RefUnit := List.replicate 24 {} -- 24 entries; R123 05; SEN00 to SEN23  [D]
  votes : List Vote := List.replicate 6 {} -- 6 entries; R139 05; voted quantities in VoteQ order  [D]
  attHist : List (Int × Qty × Qty × Qty) := [] -- 200 entries; R141 05; voted heading, roll, pitch  [D]
  tracks : List Track := List.replicate 96 {} -- 96 entries; R148 05; TRK00 to TRK95  [D]
  fixes : List (Nat × Int × V3 × V3) := [] -- list; R155 05; reference, t_v, position of the measured point and earth vector to the target given by each anchored track in this frame  [D]
  lines : List LineFix := []       -- list; R155 05; range-only and bearing-only measurements of anchored tracks in this frame  [D]
  leverSnap : List Lever := List.replicate 16 {} -- 16 entries; R160 05; refinement at the newest frame boundary  [D]
  overflow : Nat := 0              -- u32; R156 05; TRACK_OVERFLOW since Boot  [S]
  rowDrops : Nat := 0              -- u32; R149 05; ROW_DROP since Boot  [S]
  unconverged : Nat := 0           -- u32; R151 05; UNCONVERGED frames  [D]
deriving DecidableEq, Repr, Inhabited

/-! ### Chapter 06: fusion, observer, setpoints -/

/-- A kernel term (Table 6-1): Gaussian, range ring, bearing line, table. -/
inductive Kernel where
  | gauss (n e s11 s12 s22 : Qty)
  | ring (n e rho sig : Qty)
  | bearing (n e beta sig : Qty)
  | table (n e hdg : Qty) (t : List Nat) (scale pitch : Nat)
deriving DecidableEq, Repr, Inhabited

/-- One reference's rendered kernel: its terms and cap (R168). -/
structure RefKernel where
  ref : Nat := 0
  terms : List Kernel := []
  cap : Nat := 1152
deriving DecidableEq, Repr, Inhabited

/-- A completed grid (R161 to R165), given by what was rendered: every cell is a function of it. -/
structure Grid where
  frame : Nat := 0
  n : Qty := 0
  e : Qty := 0
  kernels : List RefKernel := []
deriving DecidableEq, Repr, Inhabited

/-- Fusion (R161 to R183). -/
structure FusSt where
  grids : List Grid := [{}, {}]    -- 2 x 512 KiB; R165 06; the two grid buffers  [D]
  cur : Nat := 0                   -- 1; R165 06; buffer of the newest grid  [D]
  heldBuf : Option Nat := none     -- 1; R196 06; buffer on HOLD  [D]
  heldAt : Nat := 0                -- ms; R196 06; last HOLD  [D]
  handed : Option (Qty × Qty × Qty × Qty × Qty) := none -- f64; R174 06; handed N, E and covariance  [D]
  best : Option (Nat × Nat × Nat) := none -- u16; R171 06; best peak r, c, cost  [D]
  second : Option (Nat × Nat × Nat) := none -- u16; R172 06; second peak r, c, cost  [D]
  supBest : List Nat := []         -- mask; R173 06; supporters of the best peak  [D]
  supSecond : List Nat := []       -- mask; R173 06; supporters of the second peak  [D]
  chosen : List Nat := []          -- mask; R179 06; supporters of the handed peak  [D]
  admitted : List Nat := []        -- mask; R177 06; admitted references  [D]
  costBest : List (Nat × Nat) := [] -- u16; Table 6-11 06; reference and its cost at the best peak  [D]
  terms : List (Nat × Nat) := []   -- u8; Table 6-11 06; reference and its terms rendered  [D]
  offGrid : List Nat := []         -- mask; R173 06; OFF_GRID references  [D]
  decision : Nat := 0              -- u8; Table 6-11 06; decision  [D]
  condition : Nat := 0             -- u8; R179 06; 0 none 1 SINGLE_FAIL 2 TWO_SPLIT 3 MULTI_SPLIT  [D]
  condRun : Nat := 0               -- count; R180 06; frames of a split in a row  [D]
  parties : List Nat := []         -- mask; R180 06; parties  [D]
  conflict : Bool := false         -- 1; R180 06; REF_CONFLICT  [D]
  conflictAt : Nat := 0            -- ms; R182 06; raised at  [D]
  conflictDegraded : Bool := false -- 1; R182 06; conflict timeout reached  [D]
  agreeSince : Option Nat := none  -- ms; R181 06; agreeing frames since  [D]
  noPeakRun : Nat := 0             -- count; R183 06; frames without a supported peak  [D]
  recentre : Option (Qty × Qty) := none -- f64; R183 06; centre of the next grid  [D]
  recentred : Bool := false        -- 1; R183 06; RECENTRE_MEASURED  [D]
  gridEdge : Bool := false         -- 1; R175 06; GRID_EDGE  [D]
  flat : Bool := false             -- 1; R174 06; FUSION_FLAT  [D]
  gateFail : Bool := false         -- 1; R179 06; a majority peak handed although it fails the gate  [D]
  termDrop : Nat := 0              -- u32; R169 06; TERM_DROP  [D]
  outliers : Nat := 0              -- u32; R167 06; internal outliers  [D]
  tf : Nat := 0                    -- ns; R162 06; fusion instant, module time in ns  [D]
  tfQual : Nat := 0                -- u8; Table 6-11 06; quality byte of the fusion instant  [D]
  gaussMean : List (Nat × Nat × Kernel) := [] -- reference, ns, term; R167 06; newest combined Gaussian or table term per reference and its t_f  [D]
deriving DecidableEq, Repr, Inhabited

/-- Observer (R184 to R189). Angles in degrees. -/
structure ObsSt where
  n : Qty := 0                     -- f64; R184 06; north, low-frequency  [D]
  e : Qty := 0                     -- f64; R184 06; east  [D]
  psi : Qty := 0                   -- BAM32; R184 06; heading  [D]
  u : Qty := 0                     -- f32; R184 06; surge velocity  [D]
  v : Qty := 0                     -- f32; R184 06; sway velocity  [D]
  r : Qty := 0                     -- f32; R184 06; yaw rate, deg/s  [D]
  envN : Qty := 0                  -- f32; R184 06; environmental force north, kN  [D]
  envE : Qty := 0                  -- f32; R184 06; environmental force east, kN  [D]
  envM : Qty := 0                  -- f32; R184 06; environmental moment, kN m  [D]
  waveN : Qty := 0                 -- f32; R184 06; wave component north  [D]
  waveE : Qty := 0                 -- f32; R184 06; wave component east  [D]
  wavePsi : Qty := 0               -- f32; R184 06; wave component heading  [D]
  waveN2 : Qty := 0                -- f32; R184 06; second state of the wave component north  [D]
  waveE2 : Qty := 0                -- f32; R184 06; second state of the wave component east  [D]
  wavePsi2 : Qty := 0              -- f32; R184 06; second state of the wave component heading  [D]
  pNN : Qty := 0                   -- f32; R186 06; position covariance  [D]
  pNE : Qty := 0                   -- f32; R186 06; position covariance  [D]
  pEE : Qty := 0                   -- f32; R186 06; position covariance  [D]
  pVNN : Qty := 0                  -- f32; R164 06; horizontal velocity covariance, north  [D]
  pVNE : Qty := 0                  -- f32; R164 06; horizontal velocity covariance, north and east  [D]
  pVEE : Qty := 0                  -- f32; R164 06; horizontal velocity covariance, east  [D]
  at_ : Int := 0                   -- ns; R185 06; instant of the estimate: the output instant of the newest run  [D]
  waveT : Qty := 8                 -- f32; Table 6-8 06; wave period in use  [S]
  tauWindX : Qty := 0              -- f32; R203 07; wind force of the vessel model  [D]
  tauWindY : Qty := 0              -- f32; R203 07; wind force of the vessel model  [D]
  tauWindN : Qty := 0              -- f32; R203 07; wind moment of the vessel model  [D]
  init : Bool := true              -- 1; R187 06; INIT  [D]
  initTerms : List (Nat × Kernel) := [] -- 3 terms of each; R187 06; newest Gaussian terms of the admitted references during INIT, newest first  [D]
  traj : List (Int × Qty × Qty) := [] -- 200 entries; R164 06; stored trajectory: instant in ns, north, east, newest first  [D]
  drFrames : Nat := 0              -- count; R186 06; frames since the last handed measurement  [S]
  reset : Bool := false            -- 1; R188 06; POSITION_RESET in this frame  [D]
  level : Nat := 0                 -- u8; R189 06; DP alarm level  [D]
  elapsed : Nat := 0               -- frames; Table 2-2 02; frames since the last complete run  [D]
deriving DecidableEq, Repr, Inhabited

/-- DP modes (Table 12-16). -/
inductive DpMode where
  | standbyHold | joystick | autoHeading | autoPosition | trackFollow | tipHold
deriving DecidableEq, Repr, Inhabited

/-- A waypoint of a track (Table 6-12). -/
structure Waypoint where
  n : Qty := 0
  e : Qty := 0
  speed : Qty := 0
  heading : Qty := 0
deriving DecidableEq, Repr, Inhabited

/-- Targets and the reference model (R190 to R194). -/
structure SetSt where
  mode : DpMode := .standbyHold    -- u8; R395 12; DP mode  [D]
  body : Nat := 0                  -- u8; R395 12; body of Tip-Hold  [D]
  posTarget : Option (Qty × Qty) := none -- f64; R190 06; position target  [D]
  hdgTarget : Option Qty := none   -- BAM32; R190 06; heading target  [D]
  turn : Option Bool := none       -- 1; R191 06; fixed turn direction, true starboard  [D]
  vMax : Qty := 0                  -- f32; R191 06; speed limit of the command, 0 image  [D]
  rMax : Qty := 0                  -- f32; R191 06; turn limit of the command, 0 image  [D]
  tipTarget : Option (Qty × Qty) := none -- f64; R258 08; tip target  [D]
  tipDepth : Option Qty := none    -- f32; R257 08; tip depth target  [D]
  track : List Waypoint := []      -- 16 entries; R193 06; loaded track  [D]
  alongLeg : Bool := false         -- 1; Table 6-12 06; heading along the leg  [D]
  leg : Nat := 0                   -- u8; R193 06; next waypoint  [D]
  restart : Bool := false          -- 1; R194 06; the reference restarts at the tip's estimate in the next run of the law  [D]
  trackEnd : Bool := false         -- 1; R193 06; TRACK_END  [D]
  refN : Qty := 0                  -- f64; R191 06; reference north  [D]
  refE : Qty := 0                  -- f64; R191 06; reference east  [D]
  refPsi : Qty := 0                -- f32; R191 06; reference heading  [D]
  refVn : Qty := 0                 -- f32; R191 06; reference velocity north  [D]
  refVe : Qty := 0                 -- f32; R191 06; reference velocity east  [D]
  refR : Qty := 0                  -- f32; R191 06; reference turn rate  [D]
  refAn : Qty := 0                 -- f32; R203 07; reference acceleration north  [D]
  refAe : Qty := 0                 -- f32; R203 07; reference acceleration east  [D]
deriving DecidableEq, Repr, Inhabited

/-! ### Chapter 07: control engine -/

/-- One DP axis (R203 to R212). -/
structure Axis where
  integ : Qty := 0                 -- f32; R203 07; integral as force  [D]
  tau : Qty := 0                   -- f32; R203 07; demand  [D]
  fb : Qty := 0                    -- f32; R203 07; feedback part  [D]
  e : Qty := 0                     -- f32; R203 07; error  [D]
  rep : Qty := 0                   -- f32; R210 07; compensator output  [D]
  inj : Qty := 0                   -- f32; R227 07; injection of the frame  [D]
  joyFault : Bool := false         -- 1; R206 07; JOYSTICK_FAULT  [D]
  compState : Nat := 0             -- u8; R209 07; 0 OFF 1 LEARNING 2 FROZEN  [D]
  bins : List Int := List.replicate 512 0 -- 512 i16; R209 07; bins, Q15 of tau_max  [D]
  phi : Qty := 0                   -- fraction; R210 07; phase  [D]
  period : Qty := 2                -- f32; R209 07; configured period T, s  [D]
  inUse : Qty := 2                 -- f32; R212 07; period in use, s  [D]
  pulse : Bool := false            -- 1; R212 07; source PULSE  [D]
  pulseCh : Nat := 255             -- u8; R212 07; pulse channel  [D]
  pulseLast : Option Nat := none   -- ms; R212 07; last mark  [D]
  pulseLevel : Int := 0            -- 1; R212 07; last state of the pulse channel  [D]
  pulseSeen : Nat := 0             -- ms; R212 07; last mark of any kind or start of PULSE  [D]
  ignoredRun : Nat := 0            -- count; R212 07; consecutive ignored marks  [D]
  ignored : Nat := 0               -- u32; R212 07; ignored marks  [D]
  periodLost : Bool := false       -- 1; R212 07; PERIOD_LOST  [D]
  paused : Bool := false           -- 1; R211 07; paused in the last frame  [D]
  periods : Nat := 0               -- u16; Table 7-13 07; periods completed since learning  [D]
  sumSq : Qty := 0                 -- f32; Table 7-13 07; sum of squared fb in this period  [D]
  sumN : Nat := 0                  -- count; Table 7-13 07; frames in that sum  [D]
  rmsLast : Qty := 0               -- f32; Table 7-13 07; mean square of fb over the last period  [D]
  rmsBefore : Qty := 0             -- f32; Table 7-13 07; mean square before LEARN  [D]
deriving DecidableEq, Repr, Inhabited

/-- One servo loop (R213), Q15 integers. -/
structure Loop where
  r : Int := 0                     -- i16; R213 07; reference  [D]
  rTgt : Int := 0                  -- i16; R213 07; reference target  [D]
  ru : Int := 0                    -- i16; R213 07; reference of the last evaluation with its injection  [D]
  y : Int := 0                     -- i16; R213 07; feedback of the last evaluation  [D]
  df : Int := 0                    -- i16; R213 07; filtered derivative  [D]
  u : Int := 0                     -- i16; R213 07; output  [D]
  i : Int := 0                     -- i16; R213 07; integrator  [D]
  e : Int := 0                     -- i16; R213 07; error  [D]
  fault : Bool := false            -- 1; R214 07; feedback faulted  [D]
deriving DecidableEq, Repr, Inhabited

/-- A command set (chapter 10, Command sets and limiting). -/
structure CmdSet where
  tick : Nat := 0                  -- u32; R304 10; tick count  [D]
  isRepeat : Bool := false         -- 1; R22 01; repeat flag  [D]
  codes : List Nat := List.replicate 128 0xFFFF -- 128 u16; R304 10; setpoint codes  [D]
  heading : Qty := 0               -- BAM32; R306 10; voted heading  [D]
  yaw : Qty := 0                   -- f32; R306 10; yaw rate  [D]
  azim : List Qty := []            -- BAM32; R306 10; delivered azimuths  [D]
deriving DecidableEq, Repr, Inhabited

/-- Test signal parameters (Table 7-11). -/
structure Inject where
  target : Nat := 0
  index : Nat := 0
  slot : Nat := 0
  waveform : Nat := 4
  amplitude : Qty := 0
  duration : Qty := 0
  f0 : Qty := 0
  f1 : Qty := 0
  order : Nat := 7
  bitTicks : Nat := 1
  startTick : Nat := 0
  capture : Bool := false
  signals : List (Nat × Nat × Nat × Nat) := []
  decim : Nat := 1
  pre : Nat := 0
deriving DecidableEq, Repr, Inhabited

/-- Injection and capture (R224 to R227). -/
structure InjSt where
  job : Option Inject := none      -- Table 7-11; R225 07; pending or running injection  [D]
  live : Bool := false             -- 1; R225 07; the command has taken effect  [D]
  running : Bool := false          -- 1; R225 07; running  [D]
  notBefore : Nat := 0             -- tick count; R225 07; earliest frame start  [D]
  startedAt : Nat := 0             -- tick count; R225 07; first injected tick  [D]
  lfsr : Nat := 0                  -- 15; R224 07; PRBS shift register  [D]
  base : Int := 0                  -- i16; R224 07; output held under output injection  [D]
  capState : Nat := 0              -- u8; Table 7-12 07; capture state  [D]
  reason : Nat := 0                -- u8; Table 7-12 07; end reason  [D]
  sigs : List (Nat × Nat × Nat × Nat) := [] -- 8 entries; R227 07; signals recorded, by number  [D]
  preBuf : List (List Int) := []   -- 4096 samples; R227 07; pre-trigger samples, newest first  [D]
  samples : List (List Int) := []  -- 8 x 16384 i16; R227 07; samples, newest first  [D]
  decim : Nat := 1                 -- u16; R227 07; d  [D]
  pre : Nat := 0                   -- u16; R227 07; pre-trigger samples  [D]
  phase : Nat := 0                 -- count; R227 07; ticks since the last sample  [D]
  trigger : Nat := 0               -- u32; Table 7-12 07; trigger index  [D]
  trigFrame : Nat := 0             -- u32; Table 7-12 07; trigger frame  [D]
deriving DecidableEq, Repr, Inhabited

/-- A pending bank swap (R222). -/
structure Swap where
  bank : Nat := 0
  tick : Nat := 0
  frame : Nat := 0
  axesDone : Bool := false
deriving DecidableEq, Repr, Inhabited

/-- Control engine (chapter 07). -/
structure CtlSt where
  axes : List Axis := [{}, {}, {}] -- 3 entries; R203 07; X, Y, N  [D]
  joyIn : List (Option Qty) := [none, none, none] -- 3 values; R206 07; joystick inputs at the frame boundary, none when unusable  [D]
  gainScale : Qty := 1             -- 0 to 1; R208 07; share of the position gains in force  [D]
  termsOff : Bool := false         -- 1; R207 07; POSITION_TERMS_OFF  [D]
  returnAt : Option Nat := none    -- ms; R208 07; level fell below POSITION_LOST at  [D]
  envHeld : Option (Qty × Qty × Qty) := none -- f32; R207 07; F_env held at POSITION_LOST  [D]
  banks : List (List Host.Cell) := [[], []] -- 2 x 16384 bytes; R220 07; coefficient banks  [D]
  active : Nat := 0                -- 1; R220 07; bank of the DP axis and compensator records  [D]
  activeLoop : Nat := 0            -- 1; R222 07; bank of the loop records  [D]
  swap : Option Swap := none       -- Table; R222 07; pending swap  [D]
  loops : List (List Loop) := List.replicate 32 (List.replicate 6 {}) -- 32 x 6; R213 07; loop states  [D]
  winner : List Nat := List.replicate 32 255 -- 32 u8; R215 07; winner  [D]
  selCmd : List Int := List.replicate 32 0 -- 32 i16; R215 07; selected command  [D]
  fbLost : List Bool := List.replicate 32 false -- 32; R214 07; FB_LOST  [D]
  busLost : List Bool := List.replicate 4 false -- 4; R216 07; BUS_INPUT_LOST  [D]
  committed : CmdSet := {}         -- 1 KiB; R22 01; newest committed set  [D]
  fresh : Bool := false            -- 1; R22 01; committed since the previous strobe  [D]
  released : CmdSet := {}          -- 1 KiB; R22 01; set released at this strobe  [D]
  sbTouched : List Nat := []       -- channels; R311 10; channels the signal box changed  [D]
  sbRepeats : Lane3 Bool := ⟨false, false, false⟩ -- 3; R304 10; repeat flags of the lanes in the signal box's report  [D]
  inj : InjSt := {}                -- R224 07; injection and capture  [D]
  tipLost : Bool := false          -- 1; R254 08; TIP_KINEMATICS_LOST  [D]
  tipVertical : Bool := false      -- 1; R257 08; TIP_VERTICAL  [D]
  tau : List Qty := [0, 0, 0]      -- 3 f32; R256 08; demand passed to the solve  [D]
deriving DecidableEq, Repr, Inhabited

/-! ### Chapter 08: allocation -/

/-- Thruster states (Table 8-2). -/
inductive ThrState where
  | unconfigured | disabled | ramping | available | saturated | degraded | transit | lost
deriving DecidableEq, Repr, Inhabited

/-- One thruster (R233 to R241). -/
structure Thr where
  state : ThrState := .unconfigured -- u8; R235 08; Table 8-2 state  [D]
  enabled : Bool := true           -- 1; R61 02; enabled by command  [D]
  ramping : Bool := false          -- 1; R63 02; ramping to zero  [D]
  forced : Bool := false           -- 1; R63 02; disabled with FORCED  [D]
  lostLatch : Bool := false        -- 1; R236 08; LOST latch  [D]
  causes : Bool := false           -- 1; R235 08; a cause of LOST holds  [D]
  inTransit : Option Nat := none   -- sector; R241 08; in TRANSIT for that sector  [D]
  fx : Qty := 0                    -- f32; R229 08; solution: Fx, or F of a FIXED thruster  [D]
  fy : Qty := 0                    -- f32; R229 08; solution: Fy, 0 of a FIXED thruster  [D]
  prevFx : Qty := 0                -- f32; R229 08; solution of the previous frame  [D]
  prevFy : Qty := 0                -- f32; R229 08; solution of the previous frame  [D]
  delT : Qty := 0                  -- f32; R233 08; delivered thrust, signed  [D]
  delAz : Qty := 0                 -- BAM32; R233 08; delivered azimuth, degrees  [D]
  azRef : Qty := 0                 -- BAM32; R234 08; azimuth reference, degrees  [D]
  lowHold : Bool := false          -- 1; R234 08; low-thrust azimuth hold  [D]
  cap : Option Qty := none         -- f32; R237 08; magnitude cap  [D]
  cones : List (Option Bool) := List.replicate 4 none -- 4; R240 08; cone of each sector, true A  [D]
  edgeSince : List (Option Nat) := List.replicate 4 none -- 4 ms; R241 08; held at the sector-side edge since  [D]
  participated : Bool := false     -- 1; R249 08; took part in the previous frame  [D]
  compliance : Bool := false       -- 1; R235 08; a command channel reports COMPLIANCE  [D]
  limited : Bool := false          -- 1; R236 08; winner P or L, or COMPLIANCE, in the tick set closed at the boundary  [D]
  fbLost : Bool := false           -- 1; R236 08; FB_LOST in that tick set  [D]
  rowFlags : Nat := 0              -- u8; Table 8-9 08; flags bits 2 to 4  [D]
  ramp : Qty := 0                  -- f32; R63 02; signed thrust still commanded while RAMPING, kN  [D]
  alarmed : Bool := false          -- 1; R280 09; a thrust channel has been at its alarm level since the thruster became LOST  [D]
  nowAz : Qty := 0                 -- BAM32; R306 10; delivered azimuth of the newest tick set, degrees  [D]
deriving DecidableEq, Repr, Inhabited

/-- An attached body's use (R253 to R260). -/
structure BodySt where
  inUse : Bool := false            -- 1; Table 8-11 08; IN_USE  [D]
  override : Nat := 0              -- u8; R254 08; override mask  [D]
  ovVal : List Qty := List.replicate 6 0 -- 6 f32; Table 8-11 08; override values  [D]
  q : List Qty := List.replicate 6 0 -- 6 f32; R254 08; joint values in use  [D]
  qdot : List Qty := List.replicate 6 0 -- 6 f32; R254 08; filtered joint rates  [D]
  faults : Nat := 0                -- u8; R254 08; joint fault mask  [D]
  valid : List Qty := List.replicate 6 0 -- 6 f32; R254 08; last valid joint values  [D]
  reads : List (Option Qty) := List.replicate 6 none -- 6 f32; R254 08; joint readings in the tick set closed at the boundary, none under a joint fault  [D]
  vTol : Qty := 1                  -- f32; R257 08; vertical tolerance  [D]
deriving DecidableEq, Repr, Inhabited

/-- Allocation (chapter 08). -/
structure AllocSt where
  thr : List Thr := List.replicate 32 {} -- 32 entries; R235 08; T01 to T32  [D]
  bodies : List BodySt := [{}, {}] -- 2 entries; R253 08; attached bodies  [D]
  policy : Nat := 0                -- u8; R246 08; policy  [S]
  groups : Nat := 0                -- u8; R239 08; enabled sector groups  [D]
  powerRows : Bool := true         -- 1; R243 08; power rows enabled  [D]
  outcome : Nat := 0               -- u8; R247 08; outcome  [D]
  start : Nat := 2                 -- u8; R249 08; start  [D]
  x : List Qty := []               -- 80 f32; R249 08; warm-start x  [D]
  duals : List Qty := []           -- 200 f32; R249 08; warm-start y  [D]
  sectorSet : List (Nat × Nat) := [] -- list; R239 08; active sectors of the last solve  [D]
  topology : List Nat := []        -- list; R243 08; closed ties of the last solve  [D]
  tiesIn : List Nat := []          -- list; R243 08; closed ties in the tick set closed at the boundary  [D]
  busIn : List (Option (Qty × Qty)) := [none, none, none, none] -- 4 x 2 f32; R242 08; P_avail and P_load in that tick set, none under BUS_INPUT_LOST  [D]
  fromDel : Bool := false          -- 1; R252 08; next solve starts from the delivered state  [D]
  tauFix : List Qty := [0, 0, 0]   -- 3 f32; R229 08; tau_fixed of the last solve  [D]
  topoChanged : Bool := false      -- 1; Table 8-8 08; bus topology changed  [D]
  cold : Bool := true              -- 1; R249 08; next solve starts COLD  [D]
  rPri : Qty := 0                  -- f32; R244 08; primal residual  [D]
  rDua : Qty := 0                  -- f32; R244 08; dual residual  [D]
  pivot : Qty := 0                 -- f32; Table 8-8 08; smallest pivot share  [D]
  pBudget : List (Option Qty) := [none, none, none, none] -- 4 f32; R242 08; power budgets  [D]
  pAlloc : List Qty := [0, 0, 0, 0] -- 4 f32; Table 8-8 08; allocated power  [D]
  demand : List Qty := [0, 0, 0]   -- 3 f32; Table 8-8 08; demand  [D]
  achieved : List Qty := [0, 0, 0] -- 3 f32; R250 08; achieved demand  [D]
  slack : List Qty := [0, 0, 0]    -- 3 f32; R250 08; reported slack  [D]
  slackOver : List (Option Nat) := [none, none, none] -- 3 x ms; R250 08; slack above 5 % since, by axis  [D]
  slackUnder : Option Nat := none  -- ms; R250 08; slack below 5 % since  [D]
  unmet : Bool := false            -- 1; R250 08; DEMAND_UNMET  [D]
  failing : Bool := false          -- 1; R248 08; ALLOC_FAILING  [D]
  unused : Nat := 0                -- u16; R248 08; consecutive frames without a used solution  [D]
  notSolved : Nat := 0             -- count; R248 08; consecutive frames without SOLVED or REGULARISED  [D]
  sectorSwitch : Bool := false     -- 1; R240 08; SECTOR_SWITCH  [D]
  lastUsed : List (Qty × Qty) := [] -- list; R248 08; last used solution  [D]
deriving DecidableEq, Repr, Inhabited

/-! ### Chapter 09: process channels -/

/-- Channel states (Table 9-2). -/
inductive IslState where
  | off | through | regulate | capture | hold | alarm | safe | input | fault
deriving DecidableEq, Repr, Inhabited

/-- What the island link commands (R268). -/
inductive LinkCmd where
  | through | regulate | capture
deriving DecidableEq, Repr, Inhabited

/-- A HART transaction in the queue of a channel (R289). -/
structure HartJob where
  long : Bool := false
  polling : Nat := 0
  retries : Nat := 0
  longAddr : Nat := 0
  command : Nat := 0
  data : List Byte := []
  task : Task := {}
  since : Nat := 0
deriving DecidableEq, Repr, Inhabited

/-- A multidrop device (R291). -/
structure MdDev where
  addr : Nat := 0
  misses : Nat := 0
  missing : Bool := false
  missedAt : Nat := 0
  reply : PollReply := {}
  at_ : Option Nat := none
deriving DecidableEq, Repr, Inhabited

/-- The junction die's field of a downstream slot (Table 9-3, bytes 8 to 15). -/
structure DownField where
  jType : Nat := 0                 -- 4; Table 9-3 09; 0 idle 1 configuration 2 HART transmit 3 link control  [D]
  frag : Nat := 0                  -- 4; Table 9-3 09; fragment number modulo 16  [D]
  last : Bool := false             -- 1; Table 9-3 09; last fragment  [D]
  payload : List Byte := []        -- 6 bytes; Table 9-3 09; j_payload, its length j_len  [D]
deriving DecidableEq, Repr, Inhabited

/-- One channel island and the lanes' view of it (chapter 09). -/
structure Isl where
  cfg : ChanCfg := {}              -- Table 9-12; R261 09; configuration in force  [D]
  cfgNext : Option ChanCfg := none -- Table 9-12; R300 09; configuration held by CONFIG_PENDING  [D]
  cfgDown : List Byte := []        -- list; R60 02; configuration data still to go on the island link  [D]
  cfgFrag : Nat := 0               -- 4; Table 9-3 09; fragment number of the next configuration fragment  [D]
  hartDown : Option (List Byte) := none -- 300 bytes; R288 09; frame of the transaction in flight still to go on the island link  [D]
  hartFrag : Nat := 0              -- 4; Table 9-3 09; fragment number of the next HART fragment  [D]
  down : DownField := {}           -- 8 bytes; Table 9-3 09; junction field of the downstream slot of this tick  [D]
  linkOut : LinkCmd := .through    -- 2; R268 09; link command last sent  [D]
  hartTx : List Byte := []         -- 300 bytes; R288 09; transmit buffer of the island's modem  [D]
  hartFull : Bool := false         -- 1; R288 09; the buffer holds a whole frame  [D]
  hartSent : Bool := false         -- 1; R288 09; transmission of that frame has begun  [D]
  tick : Nat := 0                  -- u16; R269 09; tick count at the island, of the newest tick header  [D]
  resetDue : Bool := false         -- 1; R440 15; island reset that waits for THROUGH  [D]
  darkAt : Option Nat := none      -- ms; R265 09; last power source lost at  [D]
  state : IslState := .off         -- 4; Table 9-2 09; channel state  [D]
  powered : Bool := false          -- 1; R265 09; assisted power  [D]
  loopPowered : Bool := false      -- 1; R265 09; LOOP_POWERED  [D]
  linkCmd : LinkCmd := .through    -- 2; R268 09; what the link commands, as the island has received it  [D]
  sp : Lane3 Nat := ⟨0xFFFF, 0xFFFF, 0xFFFF⟩ -- 3 u16; Table 9-3 09; setpoint fields of this tick  [D]
  spOk : Bool := false             -- 1; R310 10; sb_check signs the field  [D]
  validMask : Nat := 0             -- 3; Table 9-13 09; valid setpoints  [D]
  devMask : Nat := 0               -- 3; R273 09; deviating bits  [D]
  rejected : Bool := false         -- 1; R270 09; field rejected  [D]
  driven : Nat := 0xFFFF           -- u16; R272 09; setpoint code in force  [D]
  single : Bool := false           -- 1; R272 09; SINGLE  [D]
  split : Bool := false            -- 1; R272 09; SPLIT  [D]
  splitRun : Nat := 0              -- count; R272 09; consecutive ticks of disagreement  [D]
  noneRun : Nat := 0               -- count; R272 09; consecutive ticks without a setpoint  [D]
  slotLoss : Nat := 0              -- count; R266 09; consecutive ticks without a downstream slot  [D]
  holdAt : Option Nat := none      -- ms; R266 09; HOLD entered at  [D]
  holdByPower : Bool := false      -- 1; R266 09; HOLD entered on power loss  [D]
  holdRec : Nat := 0               -- u8; R267 09; 0 none 1 HOLD_YIELD 2 HOLD_LOST  [D]
  holdPending : Bool := false      -- 1; R267 09; HOLD record to be reported  [D]
  holdV : Nat := 0                 -- u16; R267 09; terminal voltage of the HOLD record  [D]
  capAt : Option Nat := none       -- ms; R277 09; CAPTURE entered at  [D]
  capCode : Nat := 0               -- u16; R275 09; captured setpoint  [D]
  capMoving : Option Qty := none   -- code; R277 09; moving setpoint after CAPTURE_TIMEOUT  [D]
  capTimeout : Bool := false       -- 1; R277 09; CAPTURE_TIMEOUT  [D]
  alarm : Bool := false            -- 1; R280 09; ALARM latched  [D]
  undeliverable : Bool := false    -- 1; R281 09; ALARM_UNDELIVERABLE  [D]
  undelRun : Nat := 0              -- ms; R281 09; readback away from the alarm level for  [D]
  compliance : Bool := false       -- 1; R283 09; COMPLIANCE  [D]
  compAt : Nat := 0                -- ms; R280 09; COMPLIANCE since  [D]
  compLow : Nat := 0               -- count; R283 09; consecutive samples below 1.5 V  [D]
  compHigh : Nat := 0              -- count; R283 09; consecutive samples at 2.0 V or more  [D]
  compEvents : Nat := 0            -- u32; Table 9-13 09; COMPLIANCE onsets  [S]
  series : Bool := false           -- 1; R276 09; SERIES_LIMITED  [D]
  rbFault : Bool := false          -- 1; R274 09; READBACK_FAULT  [D]
  rbRun : Nat := 0                 -- count; R274 09; consecutive samples beyond the window  [D]
  rbQuiet : Nat := 0               -- ms; R274 09; comparison suspended until  [D]
  energyLow : Bool := false        -- 1; R265 09; ENERGY_LOW  [D]
  energyMv : Nat := 0              -- u16; Table 9-4 09; energy store voltage  [D]
  vTerm : Int := 0                 -- u16; Table 9-4 09; terminal voltage, mV  [D]
  readback : Int := 0              -- i32; Table 9-4 09; readback, nA  [D]
  overload : Bool := false         -- 1; R464 09; OVERLOAD  [D]
  ovRun : Nat := 0                 -- count; R464 09; consecutive samples out of range  [D]
  supRun : Nat := 0                -- count; R464 09; consecutive samples with the transmitter supply at its limit  [D]
  ovOkRun : Nat := 0               -- count; R464 09; consecutive samples in range  [D]
  noPulse : Bool := false          -- 1; R296 09; NO_PULSE  [D]
  lastEdge : Nat := 0              -- ms; R296 09; last edge  [D]
  edges : List Nat := []           -- ns; R296 09; edges in the gate and the last two  [D]
  level : Bool := false            -- 1; R296 09; level of the frequency input's comparator  [D]
  riseAt : Option Nat := none      -- ns; R296 09; edge whose pulse has not yet lasted 8 us  [D]
  digital : Int := 0               -- 1; R297 09; reported state  [D]
  digRaw : Int := 0                -- 1; R297 09; state under debounce  [D]
  digAt : Nat := 0                 -- ms; R297 09; debounce began  [D]
  transitions : Nat := 0           -- u32; Table 9-4 09; transitions since Boot  [S]
  edgeCount : Nat := 0             -- u32; Table 9-4 09; edge count  [S]
  value : Int := 0                 -- i32; Table 9-4 09; newest output  [D]
  sum : Int := 0                   -- i64; Table 9-4 09; sum of outputs since the previous slot  [D]
  count : Nat := 0                 -- u8; Table 9-4 09; outputs since the previous slot  [D]
  newFlag : Bool := false          -- 1; Table 9-4 09; NEW  [D]
  outputs : Nat := 0               -- u32; Table 9-14 09; outputs since the last restart  [D]
  outTick : Nat := 0               -- u32; R292 09; tick of the newest output  [D]
  outN : Nat := 0                  -- count; R292 09; outputs completed in that tick  [D]
  outSeen : Nat := 0               -- u32; Table 9-14 09; outputs since the last restart, as the slots show them  [D]
  cls : Nat := 255                 -- u8; Table 9-7 09; NE 43 class  [D]
  dcMean : Qty := 0                -- f32; R295 09; running mean of the DC blocker  [D]
  dcFrozen : Bool := false         -- 1; R295 09; DC blocker frozen  [D]
  up : UpSlot := {}                -- Table 9-4; R271 09; newest valid upstream slot at the lanes  [D]
  upQual : Nat := 0                -- u8; R12 00; quality byte of the newest valid upstream slot's stamp  [D]
  upMiss : Nat := 0                -- count; R271 09; consecutive ticks without a valid upstream slot  [D]
  linkFault : Bool := false        -- 1; R271 09; LINK_FAULT  [D]
  linkErrors : Nat := 0            -- u32; Table 9-13 09; ticks without a valid upstream slot  [S]
  alarms : Nat := 0                -- u16; Table 9-13 09; ALARM entries  [S]
  faulted : Bool := false          -- 1; R298 09; faulted for its role  [D]
  hartRx : List Byte := []         -- 300 bytes; R288 09; received HART bytes still to go upstream  [D]
  hartQ : List HartJob := []       -- 4 entries; R289 09; host transactions  [D]
  hartErrors : Nat := 0            -- u16; Table 9-13 09; transactions without a response  [S]
  bursts : List (HartFrame × Nat) := [] -- 8 entries; R290 09; burst captures  [D]
  md : List MdDev := []            -- 15 entries; R291 09; multidrop devices  [D]
  mdNext : Nat := 0                -- u8; R291 09; device polled next  [D]
  checkDrive : Option Nat := none  -- u16; R286 09; test current of a compliance check  [D]
  checkBack : Nat := 0             -- ticks; R286 09; ticks for which the channel still returns to its zero-thrust value  [D]
deriving DecidableEq, Repr, Inhabited

/-- The running compliance check (R286). -/
structure CheckSt where
  ch : Nat := 0
  trial : Bool := false
  iTest : Nat := 0
  trialMs : Nat := 0
  phase : Nat := 0
  since : Nat := 0
  vLo : Int := 0
  vHi : Int := 0
  task : Task := {}
deriving DecidableEq, Repr, Inhabited

/-! ### Chapter 10: signal box -/

/-- Signal box states (Table 10-4). -/
inductive SbState where
  | init | proofPending | resetWait | run | stopped | fault
deriving DecidableEq, Repr, Inhabited

/-- Proof progress of one input pair (R313, R320). -/
structure PairSt where
  a : Bool := false                -- 1; R312 10; channel A closed  [S]
  b : Bool := false                -- 1; R312 10; channel B closed  [S]
  discrepancy : Bool := false      -- 1; R313 10; DISCREPANCY latched  [S]
  differSince : Option Nat := none -- ms; R313 10; channels differ since  [D]
  bothOpenSince : Option Nat := none -- ms; R320 10; both open since  [D]
  armed : Bool := false            -- 1; R313 10; both have been open together for 50 ms  [D]
  firstClose : Option Nat := none  -- ms; R320 10; first closing after that opening  [D]
  proven : Bool := false           -- 1; R320 10; pair proven  [S]
  provenAt : Option Nat := none    -- ms; R320 10; proven at  [D]
  openA : Option Nat := none       -- ms; R328 10; opening of A in progress  [D]
  openB : Option Nat := none       -- ms; R328 10; opening of B in progress  [D]
  lastA : Nat × Nat := (0, 0)      -- u32, u16; R328 10; last opening of A: seconds, duration  [D]
  lastB : Nat × Nat := (0, 0)      -- u32, u16; R328 10; last opening of B  [D]
  secA : Nat := 0                  -- u32; R328 10; module second at which A opened  [D]
  secB : Nat := 0                  -- u32; R328 10; module second at which B opened  [D]
deriving DecidableEq, Repr, Inhabited

/-- Status mirror registers (Table 10-8). -/
structure SbMirror where
  present : Lane3 Bool := ⟨false, false, false⟩ -- 3; R328 10; lane sets present in the tick of this update  [D]
  seq : Nat := 0                   -- u32; R325 10; SB_SEQ  [S]
  state : Nat := 0x00010000        -- u32; R325 10; SB_STATE  [S]
  inputs : Nat := 0                -- u32; R325 10; SB_INPUTS  [S]
  proof : Nat := 0                 -- u32; R325 10; SB_PROOF  [S]
  slt : Nat := 0                   -- u32; R325 10; SB_SLT  [S]
  func : Nat := 0                  -- u32; R325 10; SB_FUNC  [S]
  heading : Nat := 0               -- u32; R325 10; SB_HEADING  [S]
  yaw : Nat := 0                   -- u32; R325 10; SB_YAW  [S]
  resMag : Nat := 0                -- u32; R325 10; SB_RES_MAG  [S]
  resDir : Nat := 0                -- u32; R325 10; SB_RES_DIR  [S]
  stops : Nat := 0                 -- u32; R325 10; SB_STOPS  [S]
  refused : Nat := 0               -- u32; R325 10; SB_REFUSED  [S]
  stopSec : Nat := 0               -- u64; R325 10; SB_STOP_SEC  [S]
  stopNs : Nat := 0                -- u32; R325 10; SB_STOP_NS  [S]
  limitsCrc : Nat := 0             -- u32; R325 10; SB_LIMITS_CRC  [S]
  tick : Nat := 0                  -- u32; R325 10; SB_TICK  [S]
deriving DecidableEq, Repr, Inhabited

/-- Signal box (chapter 10). -/
structure SbSt where
  powered : Bool := false          -- 1; R433 15; powered  [S]
  state : SbState := .init         -- 4; Table 10-4 10; state  [S]
  cause : Nat := 0                 -- u8; R316 10; recorded stop cause  [S]
  springA : Bool := true           -- 1; R321 10; line of channel 1 asserted  [S]
  springB : Bool := true           -- 1; R321 10; line of channel 2 asserted  [S]
  releaseAt : Option Nat := none   -- tick count; R324 10; reset accepted in this tick, lines to be released at the next strobe  [D]
  events : List (Nat × List Byte × Nat × Nat × Nat) := [] -- list; R326 10; records for the next strobe: code, data, sec, ns, quality  [D]
  safeA : Bool := false            -- 1; R314 10; SAFE-A closed (readback)  [S]
  safeB : Bool := false            -- 1; R314 10; SAFE-B closed (readback)  [S]
  cmdA : Bool := false             -- 1; R314 10; SAFE-A commanded closed  [S]
  cmdB : Bool := false             -- 1; R314 10; SAFE-B commanded closed  [S]
  openCmdAt : Option Nat := none   -- ms; R314 10; contacts commanded open at  [D]
  testA : Bool := false            -- 1; R320 10; SAFE-A tested  [S]
  testB : Bool := false            -- 1; R320 10; SAFE-B tested  [S]
  esd : PairSt := {}               -- R312 10; emergency stop pair  [S]
  en : PairSt := {}                -- R312 10; thrust-enable pair  [S]
  rstHigh : Bool := false          -- 1; R317 10; RST-ACK high  [S]
  rstAt : Nat := 0                 -- ms; R317 10; RST-ACK rose at  [D]
  rstFell : Nat := 0               -- ms; R318 10; RST-ACK fell at  [D]
  rstStuck : Bool := false         -- 1; R318 10; RST_STUCK  [S]
  rstWhileStuck : Bool := false    -- 1; R318 10; the pulse began while RST_STUCK  [D]
  pulseEnd : Option Nat := none    -- ms; R317 10; width of the pulse whose falling edge waits  [D]
  proofDone : Bool := false        -- 1; R320 10; proof complete  [S]
  proofAt : Option Nat := none     -- ms; R320 10; proof completed at  [D]
  proofDue : Bool := false         -- 1; R320 10; PROOF_DUE  [S]
  limits : Limits := {}            -- 4 KiB; R303 10; active limits block  [D]
  limitsNext : Option Limits := none -- 4 KiB; R303 10; limits block for the next strobe  [D]
  limitsOk : Bool := false         -- 1; R303 10; both channels verify the limits block  [D]
  present : Lane3 Bool := ⟨false, false, false⟩ -- 3; R304 10; lane sets present in this tick  [S]
  repeats : Lane3 Bool := ⟨false, false, false⟩ -- 3; R304 10; repeat flags in this tick  [D]
  heading : Option Qty := none     -- BAM32; R306 10; heading in use  [S]
  yaw : Qty := 0                   -- f32; R306 10; yaw rate in use  [S]
  noMajority : Bool := false       -- 1; R306 10; NAV_NO_MAJORITY  [S]
  slt : Nat := 0                   -- u32; Table 10-8 10; thrusters clamped in this tick  [S]
  kDir : Qty := 1                  -- u16; R307 10; smallest direction factor  [D]
  kYaw : Qty := 1                  -- u16; R308 10; smallest yaw factor  [D]
  kMin : Qty := 1                  -- u16; R305 10; smallest k  [D]
  resMag : Qty := 0                -- f32; Table 10-8 10; largest resultant  [S]
  resDir : Qty := 0                -- BAM32; Table 10-8 10; its earth direction  [S]
  limited : List Nat := []         -- channels; R287 09; channels limited in this tick  [D]
  disagree : Bool := false         -- 1; R309 10; channel disagreement in this tick  [S]
  disagreeRun : Nat := 0           -- count; R309 10; consecutive ticks of disagreement  [D]
  disagreements : Nat := 0         -- u16; Table 10-8 10; channel disagreements  [S]
  testFail : Bool := false         -- 1; R301 10; self-test failed  [D]
  missA : Nat := 0                 -- count; R321 10; consecutive tests not seen on line A  [D]
  missB : Nat := 0                 -- count; R321 10; consecutive tests not seen on line B  [D]
  yawSince : Option Nat := none    -- ms; Table 10-5 10; yaw rate at or above r_stop since  [D]
  yawHeld : Bool := false          -- 1; Table 10-5 10; cause YAW_RATE holds  [D]
  stops : Nat := 0                 -- u32; Table 10-8 10; exits from RUN  [S]
  refused : Nat := 0               -- u16; Table 10-8 10; refused resets  [S]
  stopSec : Nat := 0               -- u64; Table 10-8 10; last exit from RUN  [S]
  stopNs : Nat := 0                -- u32; Table 10-8 10; last exit from RUN  [S]
  outs : List (Lane3 Nat) := List.replicate 128 ⟨0xFFFF, 0xFFFF, 0xFFFF⟩ -- 128 x 3 u16; R305 10; limited setpoints  [D]
  signed : List Bool := List.replicate 128 false -- 128; R309 10; fields signed with sb_check  [D]
  signTick : Nat := 0              -- u32; R310 10; tick count under sb_check  [D]
  mirror : SbMirror := {}          -- Table 10-8; R325 10; status mirror  [S]
deriving DecidableEq, Repr, Inhabited

/-! ### Chapter 11: lanes, junction, ring, consist -/

/-- Lane states (LANE_STATUS). -/
inductive LaneState where
  | inService | excluded | reintegrating | shadow | lockedOut | unpowered
deriving DecidableEq, Repr, Inhabited

/-- One lane (R331 to R334). -/
structure LaneSt where
  state : LaneState := .unpowered  -- u8; R360 11; lane state  [S]
  powered : Bool := false          -- 1; R14 01; regulator on  [S]
  cause : Nat := 0                 -- u8; Table 11-9 11; last exclusion cause  [S]
  exclAt : Option Nat := none      -- ms; R334 11; last exclusion  [D]
  exclTimes : List Nat := []       -- ms list; R334 11; exclusions in the last hour  [D]
  excl : Nat := 0                  -- u32; R360 11; exclusions since Boot  [S]
  egress : Nat := 0                -- u32; R360 11; egress miscompares  [S]
  digest : Nat := 0                -- u32; R360 11; state digest mismatches  [S]
  deviating : Nat := 0             -- u32; R360 11; deviating ticks  [S]
  devRun : Nat := 0                -- count; R331 11; consecutive deviating ticks  [D]
  exclSec : Nat := 0               -- u64; R360 11; module seconds of the last exclusion  [S]
  changed : Nat := 0               -- u32; R360 11; frame of the last change of state  [S]
  shadowRun : Nat := 0             -- count; R334 11; consecutive matching shadow frames  [D]
  shadowFull : Bool := false       -- 1; R334 11; one of them had a full-image digest  [D]
  copied : Bool := false           -- 1; R334 11; the state copy of step 4 is made  [D]
  noRetry : Bool := false          -- 1; R334 11; failed a step, not retried automatically  [D]
  reintAt : Nat := 0               -- ms; R334 11; reintegration began  [D]
deriving DecidableEq, Repr, Inhabited

/-- One junction block's fault state (R335). -/
structure BlockFault where
  block : Nat := 0
  unit : Nat := 0
  at_ : Nat := 0
  resetting : Bool := false
  out : Bool := false
deriving DecidableEq, Repr, Inhabited

/-- Junction self-checking (R335). -/
structure JxSt where
  diffs : Nat := 0                 -- u16; Table 11-9 11; pair differences since Boot  [S]
  lastBlock : Nat := 0             -- u8; Table 11-9 11; block of the last  [S]
  blocks : List BlockFault := []   -- list; R335 11; blocks with a difference  [D]
  eccCount : Nat := 0              -- u32; R336 11; single-bit errors corrected  [D]
deriving DecidableEq, Repr, Inhabited

/-- What is known of one module of the consist (R339, CONSIST_STATUS entry). -/
structure Peer where
  hb : Heartbeat := {}             -- Table 11-5; R346 11; newest ring heartbeat  [D]
  ringAt : Option Nat := none      -- ms; R347 11; newest ring heartbeat received at  [D]
  offset : Option Nat := none      -- 4; R347 11; o_k  [D]
  heard : List (Option Nat) := [none, none, none, none] -- 4 ms; R348 11; last heard on ring east, west, HB-A, HB-B  [D]
  isLead : Bool := false           -- 1; R347 11; Lead bit of the newest word  [D]
  bit3 : Bool := false             -- 1; R347 11; bit 3 of the newest word  [D]
  lost : Bool := false             -- 1; R348 11; declared lost  [D]
  fromWord : Bool := false         -- 1; R347 11; o_k was taken from heartbeat words  [D]
deriving DecidableEq, Repr, Inhabited

/-- Ring link (R338 to R340). -/
structure LinkSt where
  up : Bool := false               -- 1; R339 11; UP  [S]
  good : Nat := 0                  -- count; R339 11; consecutive valid messages  [D]
  crcErr : Nat := 0                -- count; R339 11; CRC failures within 1 ms  [D]
  lastAt : Nat := 0                -- ms; R339 11; last valid message  [D]
  upAt : Option Nat := none        -- ms; R343 11; came up at  [D]
  delayPs : Int := 0               -- ps; R340 11; link delay  [D]
deriving DecidableEq, Repr, Inhabited

/-- What a delta carries of one reference (Table 11-7): its state, its fusion state and EXCLUDED. -/
structure RefFast where
  state : RefState := .unconfigured
  fusion : Nat := 0
  probation : Nat := 0
  proven : Bool := false
  excluded : Bool := false
deriving DecidableEq, Repr, Inhabited

/-- What a delta carries of one channel (Table 11-7): its state, its driven value, its conditions and its faults. -/
structure ChanFast where
  state : IslState := .off
  driven : Nat := 0xFFFF
  alarm : Bool := false
  compliance : Bool := false
  faulted : Bool := false
deriving DecidableEq, Repr, Inhabited

/-- What a delta carries of the HART state of one channel (Table 11-7): the multidrop list, the device polled next, the burst
captures and the errors. -/
structure HartFast where
  md : List MdDev := []
  mdNext : Nat := 0
  bursts : List (HartFrame × Nat) := []
  errors : Nat := 0
deriving DecidableEq, Repr, Inhabited

/-- The fast state a delta carries (Table 11-7). -/
structure Fast where
  frame : Nat := 0
  sec : Nat := 0
  ns : Nat := 0
  epoch : Nat := 0
  digest : Nat := 0
  release : Nat := 0
  lanes : Nat := 0
  modState : Nat := 5
  set : SetSt := {}
  obs : ObsSt := {}
  fus : FusSt := {}
  refs : List RefFast := []
  integ : List Qty := [0, 0, 0]
  phi : List Qty := [0, 0, 0]
  loops : List (List Loop) := []
  alloc : AllocSt := {}
  chans : List ChanFast := []
  hart : List HartFast := []
deriving DecidableEq, Repr, Inhabited

/-- The slow state a full image adds (Table 11-7). -/
structure Slow where
  ref : RefSt := {}
  axes : List Axis := [{}, {}, {}]
  banks : List (List Host.Cell) := [[], []]
  active : Nat := 0
  cfgs : List ChanCfg := []
  traj : List (Int × Qty × Qty) := []
  time : ImageTime := {}
  gnss : ImageGnss := {}
deriving DecidableEq, Repr, Inhabited

/-- A full image (R351). -/
structure FullImg where
  fast : Fast := {}
  slow : Slow := {}
deriving DecidableEq, Repr, Inhabited

/-- The state that a checkpoint message's bytes spell (the manual gives sizes only, Table 11-7). Assumption 6. -/
opaque Config.deltaContent : List Byte → Fast
/-- The full image that its 32 pieces spell. Assumption 6. -/
opaque Config.fullContent : List (List Byte) → FullImg
/-- The bytes of a delta message (Table 11-7). Assumption 6. -/
opaque Config.deltaBytes : Fast → List Byte
/-- The bytes of one piece of a full image, by its index (R352). Assumption 6. -/
opaque Config.pieceBytes : FullImg → Nat → List Byte
/-- The bytes of the factory record at its MRAM offset (R38): stored address, op_sec, power cycles, copy of REC_LAST. The manual
gives no layout. Assumption 6. -/
opaque Config.factoryBytes : Nat → Nat → Nat → Option Nat → List Byte

/-- Roles (Table 11-5). -/
inductive Role where
  | none | lead | layover | witness | isolated | transferring
deriving DecidableEq, Repr, Inhabited

/-- Consist (R338 to R359). -/
structure ConsSt where
  role : Role := .none             -- 3; R344 11; role  [S]
  addr : Nat := 0                  -- 3; R341 11; own address  [S]
  stored : Nat := 0                -- u8; R38 01; consist address in the factory record  [D]
  home : Bool := false             -- 1; R341 11; HOME strap  [D]
  found : Nat := 0                 -- 3; Table 11-9 11; modules found  [S]
  mismatch : Bool := false         -- 1; R342 11; ADDRESS_MISMATCH  [S]
  homeConflict : Bool := false     -- 1; R341 11; HOME_CONFLICT  [S]
  noHome : Bool := false           -- 1; R343 11; NO_HOME  [S]
  incomplete : Bool := false       -- 1; R341 11; CONSIST_INCOMPLETE  [S]
  oversize : Bool := false         -- 1; R341 11; CONSIST_OVERSIZE  [S]
  alarm : Bool := false            -- 1; R342 11; consist alarm  [D]
  splitView : Bool := false        -- 1; R350 11; SPLIT_VIEW  [S]
  splitAt : Nat := 0               -- ms; R350 11; last conflicting heartbeat  [D]
  lead : Nat := 0                  -- 3; Table 11-9 11; Lead address  [S]
  layover : Nat := 0               -- 3; Table 11-9 11; Layover address  [S]
  epoch : Nat := 0                 -- u32; R344 11; Lead epoch  [S]
  epochOpen : Bool := false        -- 1; R344, R350 11; the Lead that this module follows has not yet told its epoch  [D]
  peers : List Peer := List.replicate 4 {} -- 4 entries; R339 11; modules 1 to 4  [D]
  links : List LinkSt := [{}, {}]  -- 2 entries; R339 11; east, west  [S]
  ringState : Nat := 0             -- 2; R339 11; 0 CLOSED 1 OPEN 2 SPLIT 3 ALONE  [S]
  carrierFault : List Bool := [false, false, false, false] -- 4; R348 11; CARRIER_FAULT  [S]
  arbIn : Bool := false            -- 1; R349 11; ARB-IN high  [S]
  arbInSince : Nat := 0            -- ms; R349 11; level of ARB-IN since  [D]
  arbOut : Bool := false           -- 1; R349 11; ARB-OUT high  [S]
  arbRefused : Bool := false       -- 1; R349 11; ARB_REFUSED  [S]
  leadLostAt : Option Nat := none  -- ms; R348 11; LEAD_LOST since  [D]
  arbAt : Nat := 0                 -- ms; R349 11; request began  [D]
  relayWords : List (Option Nat) := [none, none, none, none] -- 4 u16; R347 11; words accepted in the previous tick  [D]
  sentWords : List (Option Nat) := [none, none, none, none] -- 4 u16; R347 11; words sent on HB-A and HB-B in this tick  [S]
  seqSent : Nat := 0               -- u32; R338 11; own ring sequence  [D]
  seen : List (Nat × Nat) := []    -- list; R338 11; source and sequence kept  [D]
  forwarded : Nat := 0             -- count; R338 11; messages forwarded  [D]
  fwd : List (List RingMsg) := [[], []] -- 2 x 2 messages; R36 01; messages forwarded on the east and west link, newest first  [D]
  hbSent : Option Heartbeat := none -- Table 11-5; R346 11; heartbeat of this tick  [S]
  deltas : List Fast := []         -- 10 x 8 KiB; R353 11; checkpoint store, newest first  [D]
  full : Option FullImg := none    -- 256 KiB; R353 11; full image in SRAM  [D]
  mramFull : List (Option FullImg) := [none, none] -- 2; R39 01; checkpoint slots marked valid, and what their bytes spell  [D]
  mramSlot : Nat := 0              -- 1; R39 01; slot written next  [D]
  pieces : List (Nat × List Byte) := [] -- 32 x 8 KiB; R353 11; pieces received  [D]
  pieceFrame : Nat := 0            -- u32; R353 11; frame of those pieces  [D]
  fullWait : Option (FullImg × Nat) := none -- R353 11; completed slot on its way to SRAM, frame  [D]
  sending : Nat := 0               -- 0 to 32; R352 11; pieces of the full image still to send  [D]
  ckptDiscard : Nat := 0           -- u16; Table 11-9 11; checkpoint messages discarded  [S]
  ckptAbandon : Nat := 0           -- u16; Table 11-9 11; full images abandoned  [S]
  fullFrame : Nat := 0             -- u32; Table 11-9 11; newest complete full image  [S]
  deltaFrame : Nat := 0            -- u32; Table 11-9 11; newest delta  [S]
  startAt : Option Nat := none     -- ms; R355 11; start signal S  [D]
  startSec : Nat := 0              -- u64; Table 11-9 11; module seconds of the last start signal  [S]
  takeMs : Nat := 0                -- u16; Table 11-9 11; duration of the last takeover  [S]
  takeovers : Nat := 0             -- u16; Table 11-9 11; takeovers and transfers since Boot  [S]
  takeoverCold : Bool := false     -- 1; R354 11; TAKEOVER_COLD  [S]
  phase : Nat := 0                 -- 3; Table 11-9 11; transfer phase  [S]
  prepFrame : Nat := 0             -- u32; R357 11; frame in which PREPARE began  [D]
  shadowFrames : Nat := 0          -- count; R357 11; SHADOW frames  [D]
  outgoing : Bool := false         -- 1; R357 11; this module is the outgoing Lead of a transfer  [D]
  resumed : Option Nat := none     -- u8; R355 11; module state to resume  [D]
  restored : Bool := false         -- 1; R354 11; checkpoint restored  [D]
  goodFrames : Nat := 0            -- count; R356 11; consecutive frames with a complete chain  [D]
  capturing : Bool := false        -- 1; R356 11; CAPTURE or REGULATE waits for two complete frames  [D]
  capLink : Bool := false          -- 1; R356 11; the link commands CAPTURE  [D]
  capWait : Bool := false          -- 1; R356 11; takeover waits for its islands  [D]
  captured : Bool := false         -- 1; R357 11; CAPTURED flag  [D]
  rollAt : Option Nat := none      -- ms; R341 11; roll call runs since  [D]
  rollDone : Bool := false         -- 1; R341 11; a roll call has assigned this module its address  [D]
  rollTask : Option (Task × Bool) := none -- task, STORE; R360 11; ROLL_CALL in progress  [D]
  roll : RollOutcome := {}         -- R341 11; newest result  [D]
  rollReq : Option Nat := none     -- 0 CHECK 1 STORE; R360 11; roll call asked of HOME  [D]
  rollOp : Nat := 2                -- 0 CHECK 1 STORE 2 after Boot; R341 11; roll call in progress or last  [D]
  rollGiven : Nat := 0             -- u8; R341 11; address that the roll call assigns to this module  [D]
  rollAnswers : List RollEntry := [] -- entries; R341 11; answers held by HOME, by address  [D]
  rollCount : Nat := 0             -- u8; R341 11; address with which the roll call came back to HOME, 0 before  [D]
  rollWest : Bool := false         -- 1; R341 11; HOME has sent its roll call west  [D]
  rollHomes : Nat := 1             -- count; R341 11; HOME straps seen  [D]
  bootEnd : Nat := 0               -- ms; R343 11; Boot completed at  [D]
  waitAt : Nat := 0                -- ms; R344 11; waiting for the declared modules since  [D]
  nowWords : List (Option Nat) := [none, none, none, none] -- 4 u16; R347 11; words accepted in this tick  [D]
  asm : Option FullImg := none     -- 256 KiB; R351 11; full image assembled or received whole, whose last piece is still to be written and read back  [D]
  bootOk : Bool := true            -- 1; R345 11; the self-tests at Boot passed  [D]
  seq : Nat := 0                   -- u32; R359 11; CS_SEQ  [S]
deriving DecidableEq, Repr, Inhabited

/-! ### Chapter 12: command interface -/

/-- A result slot (R374). -/
structure Slot where
  tag : Nat := 0
  opcode : Nat := 0
  status : Nat := 2
  reads : Nat := 0
  result : List Byte := []
  noReply : Bool := false
  queue : Nat := 0
  sequence : Nat := 0
  done : Bool := false
  due : Bool := false
deriving DecidableEq, Repr, Inhabited

/-- A session (R369 to R374). -/
structure Session where
  value : Nat := 0                 -- u32; R369 12; session value  [D]
  authority : Nat := 0             -- u8; R370 12; authority  [D]
  maxPacket : Nat := 4100          -- u16; Table 12-5 12; packet limit  [D]
  timeoutS : Nat := 60             -- u16; R372 12; timeout  [D]
  nonce : Nat := 0                 -- u64; R371 12; nonce  [D]
  src : Src := .udp 0 0 0          -- R371 12; source address and return path  [D]
  origin : Src := .udp 0 0 0       -- R371 12; source address of its OPEN_SESSION  [D]
  openedAt : Nat := 0              -- ms; R371 12; opened  [D]
  lastAt : Nat := 0                -- ms; R372 12; last accepted packet  [D]
  seq : Nat := 0                   -- u32; R373 12; last accepted sequence  [D]
  discarded : Nat := 0             -- u32; R373 12; packets discarded  [D]
  name : List Byte := []           -- 16 bytes; Table 12-5 12; host name  [D]
  slots : List Slot := []          -- 6 entries; R374 12; result slots  [D]
  marks : List Nat := []           -- frames; R412 13; frames of the newest marks  [D]
  orphans : Nat := 0               -- u32; R377 12; completion results discarded  [D]
deriving DecidableEq, Repr, Inhabited

/-- What the lanes send through the egress voter (Table 11-1): a command reply, a raw GNSS datagram on a port (R121), a ring message
with navigation data (R118). -/
inductive OutBody where
  | reply
  | raw (port : Nat) (d : List Byte)
  | nav (b : List Byte)
deriving DecidableEq, Repr, Inhabited

/-- A reply or packet on its way out (R330, R366). -/
structure OutPkt where
  id : Nat := 0
  body : OutBody := .reply
  dst : Src := .udp 0 0 0
  queue : Nat := 0
  opcode : Nat := 0
  tag : Nat := 0
  session : Nat := 0
  sequence : Nat := 0
  status : Nat := 0
  reads : Nat := 0
  result : List Byte := []
  noSlot : Bool := false
  completion : Bool := false
deriving DecidableEq, Repr, Inhabited

/-- A packet at the egress voter: the lanes' true copy, the copies that have arrived and their errors (R330). -/
structure Voting where
  pkt : OutPkt := {}
  copies : List (Lane × Nat) := []
  first : Nat := 0
  sent : Bool := false
deriving DecidableEq, Repr, Inhabited

/-- A command's delayed effect at the frame boundary (R61). -/
inductive Deferred where
  | timeSource (flags : Nat) (order : List Nat)
  | ptpClock (c : PtpClock)
  | ptpPort (port : Nat) (c : PtpPort)
  | pps (target : Nat) (c : PpsCfg)
  | gnssMode (mode solMax rate mask flags : Nat)
  | refSet (sensor : Bool) (index : Nat) (on : Bool)
  | lever (ref op : Nat)
  | resolve (op : Nat) (mask : List Nat)
  | setPosition (flags : Nat) (n e heading vMax rMax : Qty)
  | setTrack (wps : List Waypoint) (along : Bool) (vMax rMax : Qty)
  | setTip (flags : Nat) (n e heading depth vMax rMax : Qty) (body : Nat)
  | swapAxes
  | inject (j : Inject)
  | repetitive (axes action source : Nat) (period : Qty) (channel : Nat)
  | thrEnable (t : Nat)
  | thrDisable (t : Nat) (forced : Bool)
  | allocMode (policy groups flags : Nat)
  | body (b : Nat) (inUse : Bool) (ov : Nat) (vals : List Qty) (vTol : Qty)
  | chanCfg (ch : Nat) (c : ChanCfg)
  | chanClear (ch : Nat)
  | chanChar (ch : Nat) (c : CharCfg)
  | filter (ch depth dc : Nat) (tau : Qty)
  | mode (m : DpMode) (body : Nat)
  | counters
  | power (op : Nat)
  | lane (mask op : Nat)
  | transfer
  | dispCfg (op : Nat) (action : Nat) (trim : Int) (temp : Nat)
deriving DecidableEq, Repr, Inhabited

/-- An image transfer (R390). -/
structure Transfer where
  session : Nat := 0
  slot : Nat := 0
  length : Nat := 0
  digest : List Byte := []
  next : Nat := 0
  lastOff : Nat := 0
  lastAt : Nat := 0
deriving DecidableEq, Repr, Inhabited

/-- One vessel image slot (Table 12-15): 0 EMPTY 1 WRITING 2 COMPLETE 3 INVALID 4 VALID 5 ACTIVE. Its bytes stand in
the MRAM. -/
structure ImgSlot where
  state : Nat := 0                 -- u8; Table 12-15 12; state  [D]
  detail : Nat := 0                -- u8; Table 12-15 12; detail of the last failed commit  [D]
  keyUnchecked : Bool := false     -- 1; R389 12; key validity not checked  [D]
  length : Nat := 0                -- u32; Table 12-15 12; declared length  [D]
  next : Nat := 0                  -- u32; Table 12-15 12; next offset  [D]
deriving DecidableEq, Repr, Inhabited

/-- Registers of one queue (Table 12-8). -/
structure QueueSt where
  sqBase : Nat := 0                -- u64; R382 12; Q_SQ_BASE  [S]
  cqBase : Nat := 0                -- u64; R382 12; Q_CQ_BASE  [S]
  enable : Bool := false           -- 1; R382 12; ENABLE  [S]
  log2 : Nat := 0                  -- 4; R382 12; log2 of entries  [S]
  sqHead : Nat := 0                -- u8; R382 12; submission head  [S]
  cqTail : Nat := 0                -- u8; R382 12; completion tail  [S]
  cqHead : Nat := 0                -- u8; R382 12; Q_CQ_HEAD  [S]
  phase : Bool := false            -- 1; R382 12; completion phase  [S]
  full : Bool := false             -- 1; R384 12; CQ_FULL  [S]
  error : Nat := 0                 -- 4; R382 12; error code, 0 none  [S]
  dropped : Nat := 0               -- u8; R384 12; completions dropped  [S]
  waiting : List (OutPkt × Nat) := [] -- 64 entries; R384 12; completions waiting  [D]
  written : List (OutPkt × Nat × Bool) := [] -- ring in host memory; R384 12; completion entries written: reply, bytes, phase  [D]
deriving DecidableEq, Repr, Inhabited

/-- A relayed packet awaiting its reply (R363). -/
structure Relay where
  session : Nat := 0
  tag : Nat := 0
  src : Src := .udp 0 0 0
  at_ : Nat := 0
deriving DecidableEq, Repr, Inhabited

/-- Command interface (chapter 12). -/
structure HostSt where
  sessions : List (Option Session) := List.replicate 8 none -- 8 slots; R369 12; sessions  [S]
  nonces : List (Nat × Nat) := []  -- u64, ms; R371 12; nonces accepted with AUTH in the last 60 s  [D]
  deferred : List Deferred := []   -- list; R61 02; effects due at the next boundary, in processing order  [D]
  due : Nat := 0                   -- count; R61 02; those of them that the newest frame boundary makes effective  [D]
  voting : List Voting := []       -- list; R330 11; packets at the egress voter  [D]
  waitPkts : List OutPkt := []     -- list; R56 02; replies released by the voter that wait for egress budget  [D]
  sent : List OutPkt := []         -- list; R330 11; packets sent, newest first  [D]
  nextId : Nat := 0                -- count; R330 11; number of the next outgoing packet  [D]
  relays : List Relay := []        -- 64 entries; R363 12; relayed packets awaiting a reply  [D]
  relayed : List Packet := []      -- list; R363 12; packets handed to the ring  [D]
  replies : List (List Byte) := [] -- list; R363 12; relay replies returned  [D]
  arpEcho : Nat := 0               -- count; R362 12; ARP and echo requests answered  [D]
  netOut : Option (Nat × Datagram) := none -- port, request; R362 12; newest ARP or echo request answered  [D]
  refused : Nat := 0               -- u16; Table 12-7 12; packets refused under R364  [S]
  badCrc : Nat := 0                -- u16; Table 12-7 12; BAD_CRC  [S]
  discarded : Nat := 0             -- u16; Table 12-7 12; packets discarded under R373  [S]
  unlisted : Nat := 0              -- u16; Table 12-7 12; datagrams from unlisted sources  [S]
  transfer : Option Transfer := none -- R390 12; open image transfer  [D]
  commit : Option (Task × Nat) := none -- task, ms; R392 12; commit running  [D]
  slots : List ImgSlot := [{}, {}] -- 2 entries; R40 01; vessel image slots  [D]
  imgActive : Option Nat := none   -- 1; R393 12; active slot  [S]
  activateAt : Option Nat := none  -- slot; R393 12; slot to become ACTIVE at the boundary  [D]
  budgetsDue : Bool := false       -- 1; R47 02; budgets of the active image waiting for a frame boundary  [D]
  reload : Nat := 0                -- 0 to 12; R393 12; frames of reload left  [D]
  queues : List QueueSt := List.replicate 32 {} -- 32 entries; R382 12; queue registers  [S]
  stSnap : List Byte := List.replicate 32 0 -- 32 bytes; R394 12; GET_STATE result of the newest frame boundary  [D]
  tmSnap : List Byte := List.replicate 48 0 -- 48 bytes; R94 03; TIME_GET result of the newest frame boundary  [D]
  pwSnap : List Byte := List.replicate 64 0 -- 64 bytes; R446 15; POWER_STATUS result of the newest frame boundary  [D]
  frameSeq : Nat := 0              -- u32; R381 12; ST_SEQ  [S]
  idBlock : List Nat := [0, 0, 0, 0, 0, 0, 0xBAC2, 0, 0] -- 9 u32; R381 12; registers 0x0020 to 0x0043  [S]
  scratch : Nat := 0               -- u32; Table 12-7 12; SCRATCH  [S]
  route : List Nat := List.replicate 48 0 -- 48 u8; R386 12; VEC_ROUTE  [S]
  pend : List Bool := List.replicate 48 false -- 48; R385 12; VEC_PEND  [S]
  evtCfg : Nat := 0                -- u16; Table 12-12 12; EVT_CFG  [S]
  evtPulsed : List Bool := List.replicate 8 false -- 8; R386 12; pulse given in this tick  [D]
  evtPulses : List Nat := List.replicate 8 0 -- 8 counts; R386 12; pulses given  [D]
  msix : List Nat := List.replicate 48 0 -- 48 counts; R385 12; MSI-X messages asked for  [D]
  msixTable : List Nat := []       -- 48 x 16 bytes; R380 12; MSI-X table words written  [D]
  pba : List Bool := List.replicate 48 false -- 48; Table 12-6 12; MSI-X pending bit array  [D]
  vecNow : List Nat := []          -- vectors; R385 12; queue vectors asserted in this tick  [D]
  vecFrame : List Nat := []        -- vectors; R54 02; vectors asserted in this frame under a once-per-frame rule  [D]
deriving DecidableEq, Repr, Inhabited

/-! ### Chapter 13: event recorder -/

/-- A record before sequencing (Table 13-1). -/
structure Rec where
  source : Nat := 0
  code : Nat := 0
  lanes : Nat := 0
  sec : Nat := 0
  ns : Nat := 0
  quality : Nat := 0
  opSec : Nat := 0
  cycles : Nat := 0
  data : List Byte := []
deriving DecidableEq, Repr, Inhabited

/-- A clear in progress (R411). -/
structure Clear where
  task : Task := {}
  first : Nat := 0
  last : Nat := 0
deriving DecidableEq, Repr, Inhabited

/-- Event recorder (chapter 13). -/
structure RecSt where
  staged : List (Nat × Rec) := []  -- 256 records; R402 13; staging, oldest first, with sequences  [D]
  early : List Rec := []           -- part of staging; R404 13; staged before START, not yet sequenced  [D]
  lanePend : List Rec := []        -- list; R400 13; lane records waiting for the logging activity  [D]
  started : Bool := false          -- 1; R404 13; START has been sequenced since Boot  [D]
  seqNext : Nat := 0               -- u32; R401 13; next sequence  [D]
  held : Nat := 0                  -- u32; Table 13-4 13; records in the fill (REC_HELD)  [S]
  first : Nat := 0                 -- u32; Table 13-4 13; REC_FIRST  [S]
  mramLast : Nat := 0              -- u32; Table 13-4 13; REC_MRAM_LAST  [S]
  nearFull : Bool := false         -- 1; Table 13-4 13; NEAR_FULL  [S]
  full : Bool := false             -- 1; Table 13-4 13; FULL  [S]
  fault : Bool := false            -- 1; Table 13-4 13; REC_FAULT  [S]
  fullRec : Option (Nat × Rec) := none -- R406 13; FULL composed, to be written after the records before it  [D]
  clear : Option Clear := none     -- R411 13; clear pending  [S]
  lost : Nat := 0                  -- u32; Table 13-4 13; REC_LOST  [S]
  lostSeqs : List Nat := []        -- list; R409 13; sequences lost  [D]
  drop : Nat := 0                  -- u32; Table 13-4 13; REC_DROP  [S]
  dropPer : List Nat := List.replicate 15 0 -- 15 u32; R402 13; refusals per source since the last clear  [D]
  eccLost : Nat := 0               -- u32; Table 13-6 13; records lost to double-bit errors  [S]
  lostNow : Nat := 0               -- u16; R402 13; refusals not yet reported by STAGE_LOST  [D]
  lostMask : Nat := 0              -- u32; R402 13; their sources  [D]
  lostCause : Nat := 0             -- u8; R402 13; their cause  [D]
  clearSec : Nat := 0              -- u64; Table 13-6 13; last clear  [D]
  clearSeq : Nat := 0              -- u32; Table 13-6 13; last CLEARED  [D]
  sinceBoot : Nat := 0             -- u32; Table 13-6 13; records staged since Boot  [S]
  perSource : List Nat := List.replicate 15 0 -- 15 u32; Table 13-6 13; per source  [S]
  cursor : Nat := 0                -- u32; Table 13-4 13; REC_CURSOR  [S]
  loading : Bool := false          -- 1; Table 13-4 13; LOADING  [S]
  result : Nat := 0                -- 3; Table 13-4 13; result of the last load  [S]
  loads : Nat := 0                 -- u16; Table 13-4 13; completed loads  [S]
  window : List Byte := List.replicate 64 0 -- 64 bytes; Table 13-4 13; REC_WIN_0 to REC_WIN_15  [S]
  updSeq : Nat := 0                -- u32; Table 13-4 13; REC_UPD_SEQ  [S]
  regs : List Nat := List.replicate 7 0 -- 7 u32; R408 13; registers 0x100C to 0x1024 as last updated  [S]
deriving DecidableEq, Repr, Inhabited

/-! ### Chapter 14: wing display -/

/-- An update of a HOST region (R420). -/
structure DispUpd where
  bits : List Nat := []
  hold : Nat := 0
  task : Task := {}
deriving DecidableEq, Repr, Inhabited

/-- One display region (R419 to R422). -/
structure Region where
  running : Option (DispUpd × Nat) := none -- R420 14; running update and the ms at which it was first shown  [D]
  queued : Option DispUpd := none  -- R420 14; queued update  [D]
  shown : List Nat := []           -- segments; R420 14; segments on  [D]
  written : Bool := false          -- 1; R422 14; written since the lanes entered service  [D]
  rendered : Nat := 0              -- ms; R421 14; last rendering of a MODULE region  [D]
  dead : Bool := false             -- 1; R421 14; shows its dead pattern  [D]
deriving DecidableEq, Repr, Inhabited

/-- Wing display (chapter 14). -/
structure DispSt where
  regions : List Region := List.replicate 16 {} -- 16 entries; R419 14; regions  [D]
  frame : List Nat := []           -- 640 bits; R414 14; segment indices on in the frame being driven  [D]
  frames : Nat := 0                -- u32; Table 14-5 14; display frames since Boot  [S]
  clockMs : Nat := 0               -- ms; R415 14; start of the display frame in progress  [D]
  band : Nat := 0                  -- u8; R416 14; band in use  [D]
  bandNext : Option Nat := none    -- u8; R417 14; band decided, for the next full frame  [D]
  vLcd : Int := 0                  -- mV; R416 14; V_LCD in use  [D]
  temp : Qty := 0                  -- f32; R416 14; glass temperature  [D]
  tempLost : Bool := false         -- 1; R418 14; TEMP_SOURCE_LOST  [D]
  tempCh : Bool := false           -- 1; R425 14; temperature from the image channel  [D]
  trim : Int := 0                  -- i16; R416 14; contrast trim, mV  [D]
  blankAct : Bool := false         -- 1; R423 14; crack action BLANK  [D]
  cracked : Bool := false          -- 1; R423 14; CRACKED  [D]
  crackRun : Nat := 0              -- count; R423 14; frames above the limit  [D]
  crackOhm : Nat := 0              -- u16; R423 14; loop resistance  [D]
  blanked : Bool := false          -- 1; R423 14; driving 0 V  [D]
  blankFrames : Nat := 0           -- count; R422 14; frames blank after a driver reset  [D]
  bandLog : Option Nat := none     -- ms; R424 14; last BAND record  [D]
  oneLevel : Bool := false         -- 1; R422 14; all outputs at one level at POWER_LOSS  [D]
deriving DecidableEq, Repr, Inhabited

/-! ### Chapter 15: power and start-up -/

/-- Module states (Table 15-4). -/
inductive ModState where
  | off | backup | layover | boot | commissioning | ready | active | safeStop | fault
deriving DecidableEq, Repr, Inhabited

/-- One supply input (R426). -/
structure Supply where
  valid : Bool := false            -- 1; Table 15-1 15; VALID  [D]
  high : Bool := false             -- 1; R426 15; HIGH  [D]
  absent : Bool := true            -- 1; Table 15-1 15; ABSENT  [D]
  mv : Nat := 0                    -- u16; Table 15-10 15; voltage  [D]
deriving DecidableEq, Repr, Inhabited

/-- Power and start-up (chapter 15). -/
structure PowSt where
  state : ModState := .off         -- u8; R433 15; module state  [S]
  since : Nat := 0                 -- ms; Table 15-10 15; present state since  [D]
  pwrA : Supply := {}              -- R426 15; PWR-A  [D]
  pwrB : Supply := {}              -- R426 15; PWR-B  [D]
  fld : Supply := {}               -- R426 15; FLD  [D]
  vbak : Supply := {}              -- R426 15; VBAK  [D]
  fldLow : Bool := true            -- 1; R262 09; FLD_LOW  [D]
  fldOver : Bool := false          -- 1; R426 15; FLD_OVERCURRENT  [D]
  vbakLow : Bool := false          -- 1; R426 15; VBAK_LOW  [D]
  vbakAt : Nat := 0                -- ms; R426 15; last VBAK test  [D]
  pf : Option Nat := none          -- ms; R428 15; power fail since  [D]
  stopped : Bool := false          -- 1; R429 15; hold-up stop has begun  [D]
  holdupPct : Nat := 0             -- u16; R430 15; measured capacity, %  [D]
  holdupLow : Bool := false        -- 1; R430 15; HOLDUP_DEGRADED  [D]
  charged : Bool := false          -- 1; Table 15-10 15; hold-up store charged  [D]
  rides : Nat := 0                 -- u32; Table 15-10 15; RIDE_THROUGH events  [S]
  opSec : Nat := 0                 -- u32; R431 15; operating-seconds counter  [D]
  cycles : Nat := 0                -- u32; R431 15; power-cycle count  [D]
  shutdown : Nat := 0              -- u8; R431 15; shutdown-cause byte  [D]
  shutFound : Nat := 0             -- u8; Table 15-10 15; cause found at the last Boot  [D]
  latch : Bool := false            -- 1; R431 15; validity latch  [D]
  chamRestored : Bool := false     -- 1; R432 15; CHAMOIS_RESTORED  [D]
  facOpSec : Nat := 0              -- u32; R431 15; factory record copy of the operating seconds  [D]
  facCycles : Nat := 0             -- u32; R431 15; factory record copy of the power-cycle count  [D]
  facRecLast : Option Nat := none  -- u32; R405 13; factory record copy of REC_LAST  [D]
  copyAt : Nat := 0                -- ms; R431 15; last copy  [D]
  reset : Nat := 0                 -- u8; R439 15; reset source of the last Boot  [D]
  bootKind : Nat := 0              -- u8; R439 15; 0 from Off 1 from Layover  [D]
  bootAt : Nat := 0                -- ms; R441 15; Boot began  [D]
  bootMs : Nat := 0                -- u32; Table 15-10 15; duration of the last Boot  [D]
  railsOk : Bool := false          -- 1; R441 15; rails step passed  [D]
  railsDead : Bool := false        -- 1; R441 15; no further attempt until power is removed  [D]
  watchdog : Nat := 0              -- u16; R441 15; consecutive watchdog restarts  [D]
  restarts : List Nat := []        -- ms list; R437 15; fault restarts  [D]
  silentAt : Option Nat := none    -- ms; R437 15; fell silent at  [D]
  rstLow : Bool := false           -- 1; R439 15; SYS-RST holds the module  [D]
  imgFallback : Bool := false      -- 1; R443 15; IMAGE_FALLBACK  [D]
  noImage : Bool := true           -- 1; R443 15; NO_IMAGE  [D]
  factoryBad : Bool := false       -- 1; Table 15-8 15; FACTORY_RECORD_BAD  [D]
  gnssFault : Bool := false        -- 1; Table 15-8 15; GNSS_FAULT  [D]
  slot : Nat := 255                -- u8; Table 15-10 15; image slot booted  [S]
  resetLanes : Bool := false       -- 1; R438 15; lanes powered for reset  [D]
  overTemp : Bool := false         -- 1; R460 16; base plate above the maximum  [D]
  tBase : Qty := 0                 -- f32; Table 15-10 15; base-plate temperature  [D]
  portsOff : Bool := false         -- 1; R438 15; ports without command service disabled, PCIe in L1  [D]
  pcieL1 : Bool := false           -- 1; R438 15; PCIe link in L1  [D]
deriving DecidableEq, Repr, Inhabited

/-! ### The whole block -/

/-- The state of the block. -/
structure State where
  mono : Nat := 0                  -- ms; R43 02; milliseconds of strobes since the model began (the model's own clock)  [D]
  free : Nat := 0                  -- count; the model's own: counter of free values (assumption 5)  [D]
  image : Image := {}              -- 8 MiB; R2 00; settings of the active vessel image  [D]
  mram : List Host.Cell := []      -- 64 MiB; R38 01; MRAM bytes, unlisted reads 0x00 (assumption 2)  [D]
  time : TimeSt := {}              -- chapter 03; time base
  tt : TtSt := {}                  -- chapter 02; timetable
  inp : InSt := {}                 -- chapter 01; input sets
  gnss : GnssSt := {}              -- chapter 04; GNSS receiver
  ref : RefSt := {}                -- chapter 05; references, sensors, tracks
  fus : FusSt := {}                -- chapter 06; fusion
  obs : ObsSt := {}                -- chapter 06; observer
  set : SetSt := {}                -- chapter 06; setpoints
  ctl : CtlSt := {}                -- chapter 07; control engine
  servoUndo : Option CtlSt := none -- R51 02; control state before the servo slot whose outcome is not yet agreed  [D]
  alloc : AllocSt := {}            -- chapter 08; allocation
  isl : List Isl := List.replicate 128 {} -- 128 entries; R261 09; CH000 to CH127
  check : Option CheckSt := none   -- R286 09; running compliance check  [D]
  sb : SbSt := {}                  -- chapter 10; signal box
  lanes : Lane3 LaneSt := ⟨{}, {}, {}⟩ -- 3 entries; R331 11; Lane A, B, C
  jx : JxSt := {}                  -- R335 11; junction self-checking
  cons : ConsSt := {}              -- chapter 11; ring and consist
  host : HostSt := {}              -- chapter 12; command interface
  log : RecSt := {}                -- chapter 13; event recorder
  disp : DispSt := {}              -- chapter 14; wing display
  pow : PowSt := {}                -- chapter 15; power and start-up
  pending : List Instr := []       -- queue; the commands waiting, first in first out (empty at reset)
deriving DecidableEq, Repr

/-- The block before its first power-up: every field at the value the manual states for reset, and where it states
none at the value above (assumption 1). -/
def State.reset : State := {}

end Sys2Proof.Machine
end

