-- ==== Sys2Proof/Machine/Ops.lean ====
section
/-! DEFINITION. The shared operations: numbers and bytes as the manual writes them, the checks (CRC), the cell
memories, module time, the lanes as a set, MSI-X vectors and event lines, the recorder's staging, and the changes of
condition that many commands can cause (module state, falling silent, excluding a lane). -/

namespace Sys2Proof

/-! ### Lanes as a triple -/

/-- The value of one lane. -/
def Lane3.get {α : Type} (t : Lane3 α) : Lane → α
  | .a => t.a
  | .b => t.b
  | .c => t.c

/-- The triple with one lane's value replaced. -/
def Lane3.set {α : Type} (t : Lane3 α) (l : Lane) (v : α) : Lane3 α :=
  match l with
  | .a => { t with a := v }
  | .b => { t with b := v }
  | .c => { t with c := v }

/-- The three values in lane order. -/
def Lane3.list {α : Type} (t : Lane3 α) : List α := [t.a, t.b, t.c]

/-- A function on each lane's value. -/
def Lane3.map {α β : Type} (f : α → β) (t : Lane3 α) : Lane3 β := ⟨f t.a, f t.b, f t.c⟩

/-- All lanes. -/
def lanesAll : List Lane := [.a, .b, .c]

/-- The number of a lane: 0 for Lane A. -/
def Lane.num : Lane → Nat
  | .a => 0
  | .b => 1
  | .c => 2

end Sys2Proof

namespace Sys2Proof.Machine

/-! ### Numbers and bytes -/

/-- The low `n` bytes of `v`, least significant first (R7). -/
def leBytes : Nat → Nat → List Byte
  | 0, _ => []
  | n + 1, v => BitVec.ofNat 8 v :: leBytes n (v / 256)

/-- The number that bytes spell, least significant first (R7). -/
def leNat : List Byte → Nat
  | [] => 0
  | b :: bs => b.toNat + 256 * leNat bs

/-- `n` bytes of payload from offset `o`, as a number; bytes past the end read 0. -/
def fieldNat (bs : List Byte) (o n : Nat) : Nat := leNat ((bs.drop o).take n)

/-- A number of `w` bits read as two's complement. -/
def toSigned (w v : Nat) : Int := if v % 2 ^ w < 2 ^ (w - 1) then (v % 2 ^ w : Nat) else ((v % 2 ^ w : Nat) : Int) - 2 ^ w

/-- A signed number as `w` bits of two's complement. -/
def ofSigned (w : Nat) (i : Int) : Nat := (i % (2 ^ w : Nat)).toNat

/-- Signed field of `n` bytes. -/
def fieldInt (bs : List Byte) (o n : Nat) : Int := toSigned (8 * n) (fieldNat bs o n)

/-- A byte as a number. -/
def fieldByte (bs : List Byte) (o : Nat) : Nat := fieldNat bs o 1

/-- A count that stops at its largest value of `w` bits. -/
def sat (w n : Nat) : Nat := min n (2 ^ w - 1)

/-- An integer limited to `lo` to `hi`. -/
def clampI (lo hi x : Int) : Int := max lo (min hi x)

/-- A quantity limited to `lo` to `hi`. -/
def clampQ (lo hi x : Qty) : Qty := max lo (min hi x)

/-- One bit of a number, as 0 or 1. -/
def bitN (b : Bool) (i : Nat) : Nat := if b then 2 ^ i else 0

/-- The mask of a list of numbered items. -/
def maskOf (l : List Nat) : Nat := l.eraseDups.foldl (fun m i => m + 2 ^ i) 0

/-- The numbers below `n` whose bits are set. -/
def bitsOf (n mask : Nat) : List Nat := (List.range n).filter (fun i => mask.testBit i)

/-- The mask of a list of flags, the first at bit 0. -/
def maskBools (l : List Bool) : Nat := l.foldr (fun b m => 2 * m + (if b then 1 else 0)) 0

/-- Nearest integer, ties to even. -/
def roundEven (q : Qty) : Int :=
  let f := q.floor
  let d := q - f
  if d < 1 / 2 then f else if 1 / 2 < d then f + 1 else if f % 2 = 0 then f else f + 1

/-- Nearest integer, ties away from zero. -/
def roundHalf (q : Qty) : Int := if 0 ≤ q then (q + 1 / 2).floor else -((-q + 1 / 2).floor)

/-- Magnitude. -/
def absQ (q : Qty) : Qty := if q < 0 then -q else q

/-- Exponent `e` with 2^e ≤ q < 2^(e+1) for q > 0. -/
def ilog2 (q : Qty) : Int :=
  let e := (Nat.log2 q.num.natAbs : Int) - (Nat.log2 q.den : Int)
  let p : Qty := if 0 ≤ e then (2 ^ e.toNat : Nat) else 1 / (2 ^ (-e).toNat : Nat)
  if q < p then e - 1 else e

/-- Two to an integer power. -/
def pow2 (e : Int) : Qty := if 0 ≤ e then (2 ^ e.toNat : Nat) else 1 / (2 ^ (-e).toNat : Nat)

/-- The IEEE 754 number of `eb` exponent and `mb` fraction bits nearest to `q`, ties to even, as bits; a magnitude past
the largest gives infinity. -/
def ieeeBits (eb mb : Nat) (q : Qty) : Nat :=
  let sgn := if q < 0 then 2 ^ (eb + mb) else 0
  let a := absQ q
  if a = 0 then 0 else
    let bias : Int := 2 ^ (eb - 1) - 1
    let e := max (ilog2 a) (1 - bias)
    let m := (roundEven (a / pow2 (e - mb))).toNat
    let bits := if m < 2 ^ mb then m else ((e + bias - 1).toNat) * 2 ^ mb + m
    sgn + min bits ((2 ^ eb - 1) * 2 ^ mb)

/-- The quantity that IEEE 754 bits spell; none for an infinity or a NaN. -/
def ieeeOf (eb mb : Nat) (v : Nat) : Option Qty :=
  let f := v % 2 ^ mb
  let e := v / 2 ^ mb % 2 ^ eb
  let neg := (v / 2 ^ (mb + eb)) % 2 = 1
  let bias : Int := 2 ^ (eb - 1) - 1
  if e = 2 ^ eb - 1 then none else
    let a : Qty := if e = 0 then (f : Nat) * pow2 (1 - bias - mb) else ((2 ^ mb + f : Nat) : Qty) * pow2 ((e : Int) - bias - mb)
    some (if neg then -a else a)

/-- Round to the nearest binary32 number, ties to even, subnormals kept (R202). A magnitude past the largest has no finite value. -/
def rnd32 (q : Qty) : Qty := (ieeeOf 8 23 (ieeeBits 8 23 q)).getD (Config.f32 q)

/-- A binary32 sum (R202). -/
def addF (a b : Qty) : Qty := rnd32 (a + b)
/-- A binary32 difference. -/
def subF (a b : Qty) : Qty := rnd32 (a - b)
/-- A binary32 product. -/
def mulF (a b : Qty) : Qty := rnd32 (a * b)
/-- A binary32 quotient. -/
def divF (a b : Qty) : Qty := rnd32 (a / b)

/-- Four bytes of a binary32 result field. -/
def f32Bytes (q : Qty) : List Byte := leBytes 4 (ieeeBits 8 23 q)
/-- Eight bytes of a binary64 result field. -/
def f64Bytes (q : Qty) : List Byte := leBytes 8 (ieeeBits 11 52 q)
/-- A binary32 payload field. -/
def fieldF32 (bs : List Byte) (o : Nat) : Option Qty := ieeeOf 8 23 (fieldNat bs o 4)
/-- A binary64 payload field. -/
def fieldF64 (bs : List Byte) (o : Nat) : Option Qty := ieeeOf 11 52 (fieldNat bs o 8)

/-- Bytes of a signed field. -/
def leInt (n : Nat) (i : Int) : List Byte := leBytes n (ofSigned (8 * n) i)

/-- Zero bytes. -/
def zeros (n : Nat) : List Byte := List.replicate n 0

/-- A list of bytes cut or filled with zeros to `n` bytes. -/
def fitBytes (n : Nat) (bs : List Byte) : List Byte := bs.take n ++ zeros (n - bs.length)

/-! ### Angles -/

/-- An angle in degrees as BAM32 (R11). -/
def bam32 (deg : Qty) : Nat :=
  let r := deg / 360
  (roundEven ((r - r.floor) * 4294967296)).toNat % 4294967296

/-- A BAM32 value in degrees (R11). -/
def bamDeg (n : Nat) : Qty := (n : Qty) * 360 / 4294967296

/-- An angle in 0° to less than 360° (R10). -/
def wrap360 (a : Qty) : Qty := a - 360 * (a / 360).floor

/-- wrap180 (R463): the range is greater than −180° up to and including +180°. -/
def wrap180 (a : Qty) : Qty := let w := wrap360 a; if w ≤ 180 then w else w - 360

/-! ### Cyclic redundancy checks -/

/-- One bit step of a reflected CRC with the reflected polynomial. -/
def crcBit (poly c : Nat) : Nat := if c % 2 = 1 then (c / 2) ^^^ poly else c / 2

/-- One byte of a reflected CRC. -/
def crcByte (poly c : Nat) (b : Byte) : Nat :=
  let x := c ^^^ b.toNat
  crcBit poly (crcBit poly (crcBit poly (crcBit poly (crcBit poly (crcBit poly (crcBit poly (crcBit poly x)))))))

/-- A reflected CRC with initial value and final exclusive-OR of all ones. -/
def crcRefl (width poly : Nat) (bs : List Byte) : Nat :=
  (bs.foldl (crcByte poly) (2 ^ width - 1)) ^^^ (2 ^ width - 1)

/-- CRC-32C (R365): 0x1EDC6F41 reflected is 0x82F63B78. -/
def crc32c (bs : List Byte) : Nat := crcRefl 32 0x82F63B78 bs

/-- CRC-64 of R29: 0x42F0E1EBA9EA3693 reflected is 0xC96C5795D7870F42. -/
def crc64 (bs : List Byte) : Nat := crcRefl 64 0xC96C5795D7870F42 bs

/-- One bit step of a CRC that shifts left, of `width` bits. -/
def crcLeftBit (width poly c : Nat) : Nat :=
  if c.testBit (width - 1) then ((c * 2) % 2 ^ width) ^^^ poly else (c * 2) % 2 ^ width

/-- A CRC that shifts left, most significant bit first. -/
def crcLeft (width poly start : Nat) (bs : List Byte) : Nat :=
  bs.foldl (fun c b => (List.range 8).foldl (fun x _ => crcLeftBit width poly x) (c ^^^ (b.toNat * 2 ^ (width - 8)))) start

/-- CRC-8 of a heartbeat word (R347): polynomial 0x07, initial value 0. -/
def crc8 (b : Nat) : Nat := crcLeft 8 0x07 0 [BitVec.ofNat 8 b]

/-! ### Lanes -/

/-- The state of one lane of the block. -/
def laneOf (s : State) (l : Lane) : LaneSt := s.lanes.get l

/-- A lane's state replaced. -/
def setLane (s : State) (l : Lane) (v : LaneSt) : State := { s with lanes := s.lanes.set l v }

/-- A lane in service (R331 to R334). -/
def inService (s : State) (l : Lane) : Bool := (laneOf s l).state == .inService

/-- The lanes in service, in lane order. -/
def serving (s : State) : List Lane := lanesAll.filter (inService s)

/-- How many lanes are in service. -/
def nServing (s : State) : Nat := (serving s).length

/-- Lanes in service, bit 0 Lane A. -/
def laneMask (s : State) : Nat := maskOf ((serving s).map Lane.num)

/-- LANE_DEGRADED (R333). -/
def laneDegraded (s : State) : Bool := nServing s == 2

/-- LANE_SINGLE (R333). -/
def laneSingle (s : State) : Bool := nServing s == 1

/-! ### Cell memories -/

/-- What an unlisted address reads as (assumption 2). -/
def memDefault : Byte := 0

/-- The byte of a cell memory at an address. -/
def memRead : List Host.Cell → Nat → Byte
  | [], _ => memDefault
  | (k, v) :: t, a => if k = a then v else memRead t a

/-- One byte written; the canonical form is kept: a byte equal to what an unlisted address reads as is not listed. -/
def memWrite : List Host.Cell → Nat → Byte → List Host.Cell
  | [], a, v => if v = memDefault then [] else [(a, v)]
  | (k, w) :: t, a, v =>
    if a < k then (if v = memDefault then (k, w) :: t else (a, v) :: (k, w) :: t)
    else if a = k then (if v = memDefault then t else (a, v) :: t)
    else (k, w) :: memWrite t a v

/-- Bytes written from an address on. -/
def memWriteAll (m : List Host.Cell) (a : Nat) : List Byte → List Host.Cell
  | [] => m
  | b :: bs => memWriteAll (memWrite m a b) (a + 1) bs

/-- `n` bytes from an address on. -/
def memReadAll (m : List Host.Cell) (a n : Nat) : List Byte := (List.range n).map (fun i => memRead m (a + i))

/-- The canonical form: addresses strictly rising, none listed with the value of an unlisted one. -/
def memWf : List Host.Cell → Bool
  | [] => true
  | [(_, v)] => v != memDefault
  | (k, v) :: (k', v') :: t => decide (k < k') && v != memDefault && memWf ((k', v') :: t)

/-- Offset of vessel image slot `i` in the MRAM (Table 1-12). -/
def imgBase (i : Nat) : Nat := if i = 0 then 0x02800000 else 0x03000000

/-- The low 64 bits of the digest of the active image: bytes 64 to 71 of its header, 0 without an image (R388). -/
def imageDigest64 (s : State) : Nat :=
  match s.host.imgActive with
  | none => 0
  | some k => leNat (memReadAll s.mram (imgBase k + 64) 8)

/-! ### Module time -/

/-- The quality byte at this instant (Table 3-1). -/
def qualityByte (s : State) : Nat :=
  let stepped := match s.time.steppedAt with
    | none => false
    | some t => decide (s.mono < t + 60000)
  s.time.state % 4 + bitN stepped 2 + bitN s.time.slewing 3 + 16 * (s.time.stepCount % 16)

/-- Module time as nanoseconds since the epoch of R12. -/
def nowNs (s : State) : Nat := s.time.sec * 1000000000 + s.time.ns

/-- An onset time reached at least `d` ms ago. -/
def heldFor (s : State) (t : Option Nat) (d : Nat) : Bool :=
  match t with
  | none => false
  | some x => decide (x + d ≤ s.mono)

/-- An onset kept or begun while a condition holds, and dropped when it does not. -/
def onset (s : State) (t : Option Nat) (c : Bool) : Option Nat :=
  if c then (match t with | some x => some x | none => some s.mono) else none

/-- The entry with the latest start among those that have begun; 0 s before the first entry and under an empty table, which
the manual leaves open (DESIGN CHOICE; assumption 102). -/
def leapAt (table : List (Nat × Int)) (begun : Nat × Int → Bool) : Int :=
  match (table.filter begun).foldl
      (fun (b : Option (Nat × Int)) e => match b with
        | none => some e
        | some x => if x.1 ≤ e.1 then some e else some x) none with
  | none => 0
  | some e => e.2

/-- TAI−UTC at a module second, from the working leap-second table (R69). -/
def taiUtc (s : State) (sec : Nat) : Int := leapAt s.time.leap (fun e => decide (e.1 ≤ sec))

/-- TAI−UTC at a UTC second (R69). -/
def taiUtcAt (s : State) (utc : Int) : Int := leapAt s.time.leap (fun e => decide ((e.1 : Int) ≤ utc + e.2))

/-- The angle that a wire field carries for an angle in degrees: the BAM32 value nearest to it (R11). -/
def bamRound (deg : Qty) : Qty := bamDeg (bam32 deg)

/-- What a quotient by zero comes to: the manual gives the quantity and states no result for that divisor. Free value; assumption
106. -/
opaque Config.divZero : Qty → Qty

/-- A quotient; a free value where the divisor is zero. -/
def divQ (a b : Qty) : Qty := if b = 0 then Config.divZero a else a / b

/-- The low 32 bits of the frame number. -/
def frame32 (s : State) : Nat := s.tt.frame % 2 ^ 32

/-- The low 32 bits of the frame at which a command processed now takes effect (R61): the next one. -/
def effectFrame (s : State) : Nat := (s.tt.frame + 1) % 2 ^ 32

/-- A fresh free number (assumption 5). -/
def takeNat (s : State) : Nat × State := (Config.freeNat s.free, { s with free := s.free + 1 })

/-- A fresh free quantity (assumption 5). -/
def takeQty (s : State) : Qty × State := (Config.freeQty s.free, { s with free := s.free + 1 })

/-! ### Roles and conditions -/

/-- The module drives: it is Lead or Isolated (R343, R344). -/
def drives (s : State) : Bool := s.cons.role == .lead || s.cons.role == .isolated

/-- A vessel image is active (R393, R443). -/
def imageActive (s : State) : Bool := s.host.imgActive.isSome

/-- The states in which the lanes run the timetable (Table 15-4): Commissioning, Ready, Active, Safe-Stop. -/
def runState (s : State) : Bool :=
  match s.pow.state with
  | .commissioning | .ready | .active | .safeStop => true
  | _ => false

/-- A lane is in service and the module runs its activities. -/
def lanesRun (s : State) : Bool := runState s && decide (0 < nServing s)

/-- The junction die is powered and answers: not Off, Backup or Fault (R337, Table 15-4). -/
def junctionUp (s : State) : Bool :=
  match s.pow.state with
  | .off | .backup | .fault => false
  | .boot => s.pow.railsOk
  | _ => true

/-- The number of a module state (Table 15-4). -/
def ModState.code : ModState → Nat
  | .off => 0
  | .backup => 1
  | .layover => 2
  | .boot => 3
  | .commissioning => 4
  | .ready => 5
  | .active => 6
  | .safeStop => 7
  | .fault => 8

/-- The number of a role (Table 11-5). -/
def Role.code : Role → Nat
  | .none => 0
  | .lead => 1
  | .layover => 2
  | .witness => 3
  | .isolated => 4
  | .transferring => 5

/-- The number of a DP mode (Table 12-16). -/
def DpMode.code : DpMode → Nat
  | .standbyHold => 0
  | .joystick => 1
  | .autoHeading => 2
  | .autoPosition => 3
  | .trackFollow => 4
  | .tipHold => 5

/-- The number of a signal box state (Table 10-4). -/
def SbState.code : SbState → Nat
  | .init => 0
  | .proofPending => 1
  | .resetWait => 2
  | .run => 3
  | .stopped => 4
  | .fault => 5

/-! ### Junction blocks (R16, R335) -/

/-- A junction block, or one unit of it, is being reset or out of service (R335). No result of a pair whose halves differ
leaves it (R16). -/
def blockDown (s : State) (block unit : Nat) : Bool :=
  s.jx.blocks.any (fun b => b.block == block && b.unit == unit && (b.resetting || b.out))

/-- An Ethernet port disabled in Layover: every one without the command service (R438). -/
def portOff (s : State) (port : Nat) : Bool := s.pow.portsOff && !(s.image.cmd.ports.getD port {}).service

/-- An Ethernet port works: its block is in service and it is not disabled. -/
def portUp (s : State) (port : Nat) : Bool := decide (port < 12) && !blockDown s 1 port && !portOff s port

/-- The PCIe endpoint works (Table 11-2, block 4). -/
def pcieUp (s : State) : Bool := !blockDown s 4 0

/-- A ring link block works (Table 11-2, block 5), so that a message of this module can leave. -/
def ringUp (s : State) : Bool := !blockDown s 5 0 || !blockDown s 5 1

/-- The receiving hardware of a link works (Table 11-2, Table 16-4, R438). -/
def linkWorks (s : State) (link : Nat) : Bool :=
  if link ≤ 11 then portUp s link
  else if link ≤ 13 then !blockDown s 5 (link - 12)
  else if link ≤ 37 then !blockDown s 2 (link - 14)
  else if link ≤ 45 then !blockDown s 3 (link - 38)
  else true

/-! ### Vectors and event lines -/

/-- The MSI-X table masks a vector: bit 0 of its vector control word, which is set at reset (PCIe standard format, Table 12-6;
PRESUMED, assumption 108). -/
def msixMasked (s : State) (v : Nat) : Bool := (s.host.msixTable.getD (4 * v + 3) 1).testBit 0

/-- A vector's assertion (R385, R386): the pending bit, the MSI-X message while the PCIe endpoint works (R16), or its bit of the
pending bit array while the vector is masked, one pulse of each routed line in pulse mode at its first assertion in the tick. -/
def assertVec (v : Nat) (s : State) : State :=
  let lines := (List.range 8).filter (fun e =>
    (s.host.route.getD v 0).testBit e && s.host.evtCfg.testBit (8 + e) && !(s.host.evtPulsed.getD e false))
  { s with
    host.pend := s.host.pend.set v true
    host.msix := if pcieUp s && !msixMasked s v then s.host.msix.modify v (· + 1) else s.host.msix
    host.pba := if msixMasked s v then s.host.pba.set v true else s.host.pba
    host.evtPulsed := lines.foldl (fun l e => l.set e true) s.host.evtPulsed
    host.evtPulses := lines.foldl (fun l e => l.modify e (· + 1)) s.host.evtPulses }

/-- A vector asserted at most once per frame by a numbered source (R54, R406, R427). -/
def assertVecFrame (v src : Nat) (s : State) : State :=
  if s.host.vecFrame.contains (64 * src + v) then s
  else assertVec v { s with host.vecFrame := (64 * src + v) :: s.host.vecFrame }

/-- The queue vector of a reply sent, at most once per tick (R385). -/
def assertQueueVec (q : Nat) (s : State) : State :=
  if s.host.vecNow.contains q then s
  else assertVec q { s with host.vecNow := q :: s.host.vecNow }

/-- The active state of event line `e` (R386, EVT_STATE): in level mode, while a routed vector is pending. -/
def evtLine (s : State) (e : Nat) : Bool :=
  !(s.host.evtCfg.testBit (8 + e)) &&
    (List.range 48).any (fun v => s.host.pend.getD v false && (s.host.route.getD v 0).testBit e)

/-! ### Recorder staging (chapter 13) -/

/-- Bytes of a record with its sequence (Table 13-1). -/
def recBytes (seq : Nat) (r : Rec) : List Byte :=
  leBytes 4 seq ++ leBytes 4 r.opSec ++ leBytes 4 r.cycles ++ leBytes 8 r.sec ++ leBytes 4 r.ns ++
    leBytes 1 r.quality ++ leBytes 1 r.source ++ leBytes 2 r.code ++ leBytes 1 r.lanes ++ fitBytes 35 r.data

/-- The capacity of staging (R402). -/
def stageCap : Nat := 256

/-- Slots of the region (Table 1-12). -/
def recSlots : Nat := 524288

/-- The newest sequence assigned, REC_LAST. -/
def recLast (s : State) : Nat := (s.log.seqNext + 2 ^ 32 - 1) % 2 ^ 32

/-- A record that the recorder composes itself (R402). -/
def ownRec (s : State) (code : Nat) (data : List Byte) : Rec :=
  { source := 0, code, lanes := laneMask s, sec := s.time.sec, ns := s.time.ns, quality := qualityByte s,
    opSec := s.pow.opSec, cycles := s.pow.cycles, data }

/-- Counts of a record staged since Boot (Table 13-6). -/
def countStaged (r : Rec) (l : RecSt) : RecSt :=
  { l with sinceBoot := sat 32 (l.sinceBoot + 1), perSource := l.perSource.modify r.source (fun n => sat 32 (n + 1)) }

/-- A refusal at staging (R402), with its cause. -/
def refuseRec (source cause : Nat) (l : RecSt) : RecSt :=
  { l with drop := sat 32 (l.drop + 1), dropPer := l.dropPer.modify source (fun n => sat 32 (n + 1)), lostNow := sat 16 (l.lostNow + 1), lostMask := l.lostMask ||| 2 ^ source,
           lostCause := cause }

/-- FULL composed as soon as REC_FIRST + 524,286 has been assigned (R406). -/
def composeFull (s : State) : State :=
  if !s.log.full && s.log.seqNext == (s.log.first + (recSlots - 1)) % 2 ^ 32 && !s.log.fault then
    assertVecFrame 35 1 { s with
      log.full := true
      log.fullRec := some (s.log.seqNext, ownRec s 4 (leBytes 4 ((s.log.first + recSlots) % 2 ^ 32) ++ [0]))
      log.seqNext := (s.log.seqNext + 1) % 2 ^ 32 }
  else s

/-- A record given the next sequence and put into staging (R401); after FULL, staging is a ring of the newest 256 and
each record sequenced counts as lost (R406). -/
def sequenceRec (r : Rec) (s : State) : State :=
  let l := countStaged r s.log
  let st := if l.full then (l.staged ++ [(l.seqNext, r)]).drop (l.staged.length + 1 - stageCap) else l.staged ++ [(l.seqNext, r)]
  let l := { l with staged := st, seqNext := (l.seqNext + 1) % 2 ^ 32,
                    lost := if s.log.full then sat 32 (l.lost + 1) else l.lost,
                    lostSeqs := if s.log.full then s.log.seqNext :: l.lostSeqs else l.lostSeqs }
  composeFull { s with log := l }

/-- One record staged (R401, R402, R404): it waits without a sequence before START; it is refused when staging is full
and the fill goes on. -/
def stageRec (r : Rec) (s : State) : State :=
  let r := { r with opSec := s.pow.opSec, cycles := s.pow.cycles }
  if !s.log.started then
    if stageCap ≤ s.log.early.length + s.log.staged.length then { s with log := refuseRec r.source 0 s.log }
    else { s with log.early := s.log.early ++ [r] }
  else if stageCap ≤ s.log.staged.length && !s.log.full then { s with log := refuseRec r.source 0 s.log }
  else sequenceRec r s

/-- STAGE_LOST, staged as soon as there is room (R402). -/
def stageLost (s : State) : State :=
  if s.log.lostNow = 0 || (stageCap ≤ s.log.staged.length && !s.log.full) || !s.log.started then s
  else
    let r := ownRec s 5 (leBytes 2 s.log.lostNow ++ leBytes 1 s.log.lostCause ++ leBytes 4 s.log.lostMask)
    sequenceRec r { s with log.lostNow := 0, log.lostMask := 0 }

/-- A record with a given instant and lane mask, staged by the junction die (R398, R400). -/
def logAt (source code lanes sec ns quality : Nat) (data : List Byte) (s : State) : State :=
  stageRec { source, code, lanes, sec, ns, quality, data } s

/-- A record of the junction die: the instant of detection, the lanes in service (R398). -/
def logJ (source code : Nat) (data : List Byte) (s : State) : State :=
  logAt source code (laneMask s) s.time.sec s.time.ns (qualityByte s) data s

/-- A record of the lanes: the frame boundary of its frame; it waits for the logging activity (R398, R400). -/
def logLMask (source code lanes : Nat) (data : List Byte) (s : State) : State :=
  { s with log.lanePend := s.log.lanePend ++
      [{ source, code, lanes, sec := s.tt.bSec, ns := s.tt.bNs, quality := s.tt.bQual, data }] }

/-- A record of the lanes with the mask of the lanes in service. -/
def logL (source code : Nat) (data : List Byte) (s : State) : State := logLMask source code (laneMask s) data s

/-! ### Changes of condition -/

/-- A change of module state: logged with its reason, vector 40 (R434). -/
def changeState (target : ModState) (reason : Nat) (s : State) : State :=
  let s' := logJ 1 2 (leBytes 1 s.pow.state.code ++ leBytes 1 target.code ++ leBytes 1 reason) s
  assertVec 40 { s' with pow.state := target, pow.since := s.mono }

/-- A lane held in reset. -/
def holdLane (x : LaneSt) : LaneSt :=
  match x.state with
  | .inService | .reintegrating | .shadow => { x with state := .excluded, shadowRun := 0, copied := false }
  | _ => x

/-- The outputs stop: island links, heartbeats, ARB-OUT, ring origination (R337, Table 15-3, R440). -/
def stopOutputs (s : State) : State :=
  { s with cons.arbOut := false, cons.hbSent := none, cons.sentWords := [none, none, none, none] }

/-- The module falls silent (R337): module state Fault, lanes held in reset, nothing driven and nothing sent. -/
def fallSilent (s : State) : State :=
  if s.pow.state == .fault || s.pow.state == .off || s.pow.state == .backup then s
  else
    let s := changeState .fault 4 s
    { stopOutputs s with
      lanes := s.lanes.map holdLane
      pow.silentAt := some s.mono
      pow.shutdown := 4
      host.voting := [] }

/-- A module condition after a loss of lanes (R333): a Lead with no lane in service falls silent, and so does an Isolated module,
which drives as a Lead does (R343); a Lead that reaches LANE_SINGLE starts a planned transfer to a TAKEOVER_READY Layover. -/
def afterLaneLoss (s : State) : State :=
  if nServing s = 0 && drives s then fallSilent s
  else if nServing s = 1 && s.cons.role == .lead && s.cons.phase == 0
      && (s.cons.peers.getD (s.cons.layover - 1) {}).hb.flags.testBit 0 && s.cons.layover != 0 then
    { s with host.deferred := s.host.deferred ++ [.transfer] }
  else s

/-- A lane is excluded (R331, R332, R334): held in reset, counted, logged with its cause, vector 36; the third
exclusion within one hour locks it out. -/
def excludeLane (l : Lane) (cause : Nat) (s : State) : State :=
  let x := laneOf s l
  let times := (x.exclTimes.filter (fun t => decide (s.mono < t + 3600000))) ++ [s.mono]
  let locked := decide (3 ≤ times.length)
  let x' := { x with
    state := if locked then .lockedOut else .excluded
    powered := if cause = 8 || cause = 9 then false else x.powered
    cause := cause
    exclAt := some s.mono
    exclTimes := times
    excl := sat 32 (x.excl + 1)
    exclSec := s.time.sec
    changed := frame32 s
    devRun := 0
    shadowRun := 0
    shadowFull := false
    copied := false
    noRetry := cause = 10 || cause = 11 }
  let s := setLane s l x'
  let s := { s with
    tt.timeoutRun := s.tt.timeoutRun.set l 0
    inp.redeliv := s.inp.redeliv.filter (fun r => r.lane != l) }
  let s := logAt 11 1 (2 ^ l.num) s.time.sec s.time.ns (qualityByte s) (leBytes 1 (if locked then 3 else 1) ++ leBytes 1 cause) s
  afterLaneLoss (assertVec 36 s)

/-- A fault charged to one lane (R331): with three lanes, or for the last two causes named there (6 CHAIN_CLOSING; 7 ECC_DOUBLE,
8 CLOCK, 9 SUPPLY), the lane is excluded; with two lanes it is a lane-set fault. A single lane in service that meets a cause is
excluded (assumption 20). -/
def laneFault (l : Lane) (cause : Nat) (s : State) : State :=
  if !(inService s l) then s
  else if nServing s = 2 && !(cause == 6 || cause == 7 || cause == 8 || cause == 9) then fallSilent s
  else excludeLane l cause s

/-- A change of channel CHAN_STATUS fault, in the lanes' view, is logged by the family that judges it (R298). -/
def chanOf (s : State) (ch : Nat) : Isl := s.isl.getD ch {}

/-- One island changed. -/
def onIsl (ch : Nat) (f : Isl → Isl) (s : State) : State := { s with isl := s.isl.modify ch f }

end Sys2Proof.Machine
end

