-- ==== Sys2Proof/Machine/Operands.lean ====
section
/-! DEFINITION. The operand forms of the commands: how traffic is charged to its budget (R56, R57), how a reply leaves
(R330, R366, R384), how sessions and result slots are found (R369 to R378), and how a command packet passes the checks
of Table 12-4 to the meaning of its opcode. -/

namespace Sys2Proof

/-- The type codes of the ring messages other than checkpoints (Table 11-4 names the field, and only R352 gives codes). Free value;
assumption 110. -/
opaque Config.ringType : RingBody → Nat

namespace Machine

/-! ### Class budgets -/

/-- A write, message or packet started when it fits whole into what remains of its class and nothing of its class
waits; otherwise it waits (R56, R57). The answer says whether it started. -/
def chargeMram (w : Waiting) (s : State) : Bool × State :=
  if w.bytes ≤ s.tt.mramLeft.getD w.cls 0 && !(s.tt.mramWait.any (fun x => x.cls == w.cls)) then
    (true, { s with tt.mramLeft := s.tt.mramLeft.modify w.cls (· - w.bytes) })
  else (false, { s with tt.mramWait := s.tt.mramWait ++ [w] })

/-- A ring message of this module charged (R56); it waits while neither ring block works (R16). -/
def chargeRing (w : Waiting) (s : State) : Bool × State :=
  if ringUp s && w.bytes ≤ s.tt.ringLeft.getD w.cls 0 && !(s.tt.ringWait.any (fun x => x.cls == w.cls)) then
    (true, { s with tt.ringLeft := s.tt.ringLeft.modify w.cls (· - w.bytes) })
  else (false, { s with tt.ringWait := s.tt.ringWait ++ [w] })

/-- The number of a link: 0 east, 1 west. -/
def linkNum (east : Bool) : Nat := if east then 0 else 1

/-- The type code of a ring message (R352 gives those of a delta and of the pieces of a full image). -/
def ringType (body : RingBody) : Nat :=
  match body with
  | .delta .. => 0
  | .piece i _ _ _ _ => 0x20 + i
  | _ => Config.ringType body

/-- The links whose ring block works, the east one first. -/
def workingLinks (s : State) : List Bool := [true, false].filter (fun e => !blockDown s 5 (linkNum e))

/-- The links on which a message of this module leaves: both, a roll call in its one direction (R338, R341). -/
def linksFor (body : RingBody) (s : State) : List Bool :=
  match body with
  | .rollCall _ _ _ east => (workingLinks s).filter (· == east)
  | _ => workingLinks s

/-- A message of this module leaves on its links (R338, Table 11-4): its source and the next sequence number, and in a time
message the instant of its transmission. -/
def castRing (w : Waiting) (body : RingBody) (dst : Nat) (timed : Bool) (s : State) : State :=
  let m : RingMsg :=
    { src := s.cons.addr, dst, cls := w.cls, seq := s.cons.seqSent, payloadLen := w.bytes, body, kind := ringType body
      tTx := if timed then some (s.time.sec % 2 ^ 32, s.time.ns) else none }
  { s with
    cons.seqSent := (s.cons.seqSent + 1) % 2 ^ 32
    tt.ringSent := s.tt.ringSent ++ (linksFor body s).map (fun e => { m with sentEast := e }) }

/-- Ring traffic starts: a heartbeat is the one of this tick (R346), and a relayed packet is on its way (R363). -/
def startRing (w : Waiting) (s : State) : State :=
  match w.cargo with
  | .ring body dst timed =>
    let s := castRing w body dst timed s
    match body with
    | .heartbeat h => { s with cons.hbSent := some h }
    | .relay p => { s with host.relayed := p :: s.host.relayed }
    | _ => s
  | _ => s

/-- A ring message of this module, now or when its class has budget (R56, R338). -/
def sendRing (w : Waiting) (s : State) : State :=
  let r := chargeRing w s
  if r.1 then startRing w r.2 else r.2

/-- The packets that wait for a port: the first four stand in its transmit buffer (R36), the others with their producer. -/
def portWaits (s : State) (port : Nat) : List Waiting := s.tt.egressWait.filter (fun w => w.port == port)

/-- A port's transmit buffer is full and a packet more of host service is with its producer, which waits (R36, R60). -/
def producerWaits (s : State) : Bool := (List.range 12).any (fun p => ((portWaits s p).drop 4).any (fun w => w.cls == 2))

/-- A packet of an Ethernet port (R56). -/
def chargeEgress (w : Waiting) (s : State) : Bool × State :=
  if w.bytes ≤ s.tt.egressLeft.getD (6 * w.port + w.cls) 0
      && !(s.tt.egressWait.any (fun x => x.cls == w.cls && x.port == w.port)) then
    (true, { s with tt.egressLeft := s.tt.egressLeft.modify (6 * w.port + w.cls) (· - w.bytes) })
  else (false, { s with tt.egressWait := s.tt.egressWait ++ [w] })

/-! ### Checkpoint slots and the factory record (R38, R39, R41) -/

/-- The MRAM offset of a checkpoint slot (Table 1-12). -/
def ckptBase (slot : Nat) : Nat := if slot = 0 then 0x02000000 else 0x02400000

/-- The MRAM offset of the factory record (Table 1-12). -/
def factoryBase : Nat := 0x03800000

/-- The last byte of a slot is written: read back rightly, the slot is valid from now on and its image goes to SRAM within 2
frames (R39, R353); the slots alternate. A slot that fails its read-back stays invalid and is the one written next (DESIGN CHOICE;
assumption 107). -/
def finishSlot (slot : Nat) (verified : Bool) (s : State) : State :=
  match s.cons.asm with
  | none => s
  | some f =>
    if verified then
      { s with
        cons.mramFull := s.cons.mramFull.set slot (some f)
        cons.mramSlot := 1 - slot
        cons.fullFrame := f.fast.frame
        cons.fullWait := some (f, s.tt.frame)
        cons.asm := none }
    else { s with cons.asm := none }

/-- One piece of 8 KiB stands in its slot (R38, R39). -/
def storePiece (slot index : Nat) (data : List Byte) (verified : Bool) (s : State) : State :=
  let s := { s with mram := memWriteAll s.mram (ckptBase slot + 8192 * index) (data.take 8192) }
  if index = 31 then finishSlot slot verified s else s

/-- A piece on its way to the slot written now, which is not valid meanwhile (R39, R353); it waits for the checkpoint class (R41). -/
def putPiece (index : Nat) (data : List Byte) (verified : Bool) (s : State) : State :=
  let slot := s.cons.mramSlot
  let r := chargeMram { cls := 0, bytes := 8192, cargo := .ckptPiece slot index data }
    { s with cons.mramFull := s.cons.mramFull.set slot none }
  if r.1 then storePiece slot index data verified r.2 else r.2

/-- The factory record written (R38): a stored consist address (R342), or else both Chamois counters and REC_LAST (R405, R431). -/
def storeFactory (address : Option Nat) (s : State) : State :=
  let s := match address with
    | some a => { s with cons.stored := a }
    | none => { s with pow.facOpSec := s.pow.opSec, pow.facCycles := s.pow.cycles, pow.copyAt := s.mono
                       pow.facRecLast := if s.log.started then some (recLast s) else s.pow.facRecLast }
  let bytes := Config.factoryBytes s.cons.stored s.pow.facOpSec s.pow.facCycles s.pow.facRecLast
  { s with mram := memWriteAll s.mram factoryBase (bytes.take 65536) }

/-- A write of the factory record in its class (R41, R431): it waits for the class where it must. -/
def writeFactory (address : Option Nat) (s : State) : State :=
  let r := chargeMram { cls := 3, bytes := if address.isSome then 1 else 12, cargo := .factory address } s
  if r.1 then storeFactory address r.2 else r.2

/-! ### Replies -/

/-- The whole reply on the wire (R366): 16 bytes of header, status, read count, result, CRC-32C. -/
def replyBytes (o : OutPkt) : List Byte :=
  let b := leBytes 2 o.opcode ++ leBytes 2 o.tag ++ leBytes 1 o.queue ++ leBytes 1 0 ++ leBytes 2 (4 + o.result.length)
    ++ leBytes 4 o.session ++ leBytes 4 o.sequence ++ leBytes 2 o.status ++ leBytes 2 o.reads ++ o.result
  b ++ leBytes 4 (crc32c b)

/-- Bytes of a reply on the wire. -/
def replySize (o : OutPkt) : Nat := 24 + o.result.length

/-- Entries of a queue's rings. -/
def ringSize (q : QueueSt) : Nat := 2 ^ q.log2

/-- The completion ring has no free entry: the tail would reach the head (assumption 21). -/
def cqIsFull (q : QueueSt) : Bool := (q.cqTail + 1) % ringSize q == q.cqHead % ringSize q

/-- One completion entry written with the current phase, which toggles at each wrap (R384). -/
def putCompletion (o : OutPkt) (len : Nat) (q : QueueSt) : QueueSt :=
  let t := (q.cqTail + 1) % ringSize q
  { q with written := (o, len, q.phase) :: q.written, cqTail := t, phase := if t = 0 then !q.phase else q.phase }

/-- A completion entry on its way into the ring: written, waiting behind a full ring, or dropped and counted (R384). -/
def pushCompletion (o : OutPkt) (len : Nat) (q : QueueSt) : QueueSt :=
  if !q.enable then q
  else if cqIsFull q || !q.waiting.isEmpty then
    if q.waiting.length < 64 then { q with waiting := q.waiting ++ [(o, len)], full := true }
    else { q with dropped := sat 8 (q.dropped + 1), full := true }
  else let q := putCompletion o len q
       { q with full := cqIsFull q }

/-- The ring class of a relayed packet or reply: that of the relay, which for IMAGE_CHUNK is the vessel image class (R363). -/
def relayClass (opcode : Nat) : Nat := if opcode = 0x0202 then 4 else 2

/-- The block that carries a reply works: a port, the PCIe endpoint, a ring link (R16, R335). -/
def wayUp (s : State) : Src → Bool
  | .udp port _ _ => portUp s port
  | .pcie _ _ _ => pcieUp s
  | .relay _ => ringUp s

/-- A reply leaves the module by its way back (Table 12-1, R384, R363), and its queue vector is asserted (R385). Nothing
leaves a block whose halves differ (R16): what it holds then is lost, and the reply stays in its result slot. -/
def transmit (o : OutPkt) (s : State) : State :=
  if !wayUp s o.dst then s
  else
    let s := assertQueueVec o.queue { s with host.sent := o :: s.host.sent }
    match o.dst with
    | .pcie q _ repLen =>
      let len := if o.completion then 0 else min (replySize o) repLen
      { s with host.queues := s.host.queues.modify q (pushCompletion o len) }
    | .relay k => castRing { cls := relayClass o.opcode, bytes := replySize o } (.relayReply (replyBytes o)) k false s
    | _ => s

/-- A UDP reply fits one Ethernet frame at its port's MTU, as the module sends no fragments (R362); what does not fit is not sent
and stays in its slot (DESIGN CHOICE; assumption 108). -/
def fitsFrame (s : State) (o : OutPkt) : Bool :=
  match o.dst with
  | .udp port _ _ => decide (replySize o + 28 ≤ (s.image.cmd.ports.getD port {}).mtu)
  | _ => true

/-- A raw datagram starts on its way to the image's destination (R121). -/
def startRaw (port : Nat) (d : List Byte) (s : State) : State :=
  { s with gnss.rawSent := s.gnss.rawSent + 1
           gnss.rawOut := s.gnss.rawOut ++ [{ port, ip := s.image.gnss.rawIp, udpPort := s.image.gnss.rawUdp, bytes := d }] }

/-- A raw datagram released to its port, in the GNSS raw class; it waits for budget (R56, R121). -/
def sendRaw (port : Nat) (d : List Byte) (s : State) : State :=
  let r := chargeEgress { cls := 3, bytes := d.length, port := port, cargo := .raw d } s
  if r.1 && portUp r.2 port then startRaw port d r.2 else r.2

/-- A packet released to its transport: a UDP reply is charged to the host service class of its port, a relayed reply
to the ring class of the relay, which for IMAGE_CHUNK is the vessel image class (R56, R363); what finds no budget waits (R56). The bytes charged are those of the reply;
whether the Ethernet, IP and UDP headers count as well is not in the manual (DESIGN CHOICE; assumption 101). -/
def sendReply (o : OutPkt) (s : State) : State :=
  let r : Bool × State := match o.dst with
    | .udp port _ _ => chargeEgress { cls := 2, bytes := replySize o, port := port, cargo := .packet o.id } s
    | .pcie _ _ _ => (true, s)
    | .relay _ => chargeRing { cls := relayClass o.opcode, bytes := replySize o, cargo := .packet o.id } s
  if !fitsFrame s o then s
  else if r.1 then transmit o r.2 else { r.2 with host.waitPkts := r.2.host.waitPkts ++ [o] }

/-- A packet that the voter lets go (R330): a reply, a raw datagram (R121), or navigation data on the ring (R118). -/
def sendOut (o : OutPkt) (s : State) : State :=
  match o.body with
  | .reply => sendReply o s
  | .raw port d => sendRaw port d s
  | .nav b => sendRing { cls := 3, bytes := b.length, cargo := .ring (.gnssData b) 0xFF false } s

/-- A packet produced: with lanes in service it goes to the egress voter and waits for the lanes' copies (R330);
otherwise the junction die sends it itself (R379). -/
def emitReply (o : OutPkt) (s : State) : State :=
  let o := { o with id := s.host.nextId }
  let s := { s with host.nextId := s.host.nextId + 1 }
  if nServing s = 0 then sendOut o s
  else { s with host.voting := s.host.voting ++ [{ pkt := o, first := s.mono }] }

/-- A reply of the junction die itself, without slot (R368 checks 1 to 4). -/
def junctionReply (p : Packet) (status : Nat) (s : State) : State :=
  let o : OutPkt :=
    { id := s.host.nextId, dst := p.src, queue := p.queue, opcode := p.opcode, tag := p.tag,
      session := p.session, sequence := p.sequence, status, noSlot := true }
  sendOut o { s with host.nextId := s.host.nextId + 1 }

/-! ### Sessions and slots -/

/-- The session slot number in a session value (R369). -/
def sessionSlot (v : Nat) : Nat := v / 2 ^ 24 % 16

/-- The open session that a value names. -/
def sessionOf (s : State) (v : Nat) : Option (Nat × Session) :=
  match s.host.sessions.getD (sessionSlot v) none with
  | none => none
  | some x => if v ≠ 0 && x.value == v then some (sessionSlot v, x) else none

/-- One session changed. -/
def onSession (k : Nat) (f : Session → Session) (s : State) : State :=
  { s with host.sessions := s.host.sessions.modify k (Option.map f) }

/-- A slot of the tag. -/
def slotOf (x : Session) (tag : Nat) : Option Slot := x.slots.find? (fun t => t.tag == tag)

/-- A slot taken by a command: the slot of its tag, replaced, or a free one of the 6 (R374, R377). A command still
running in a replaced slot has its completion result discarded and counted when it completes. -/
def takeSlot (x : Session) (n : Slot) : Option Session :=
  if x.slots.any (fun t => t.tag == n.tag) then
    some { x with slots := x.slots.map (fun t => if t.tag == n.tag then n else t) }
  else if x.slots.length < 6 then some { x with slots := x.slots ++ [n] }
  else none

/-- The opcodes that never occupy a slot (R378). -/
def slotless (opcode : Nat) : Bool :=
  opcode == 0x0101 || opcode == 0x0103 || opcode == 0x0104 || opcode == 0x0105 || opcode == 0x0106

/-- What an opcode answers: status, result, read count of a reply without slot, and the new state. -/
structure Done where
  status : Nat
  result : List Byte := []
  reads : Nat := 0
  state : State

/-- The meaning of an opcode for the checks of Table 12-4: its authority (`authNow` where it depends on the state), whether it is answered without lanes, its role
check, its length check, and what it does from the field checks on. `k` is the session slot, 255 for session 0. -/
structure OpSpec where
  auth : Packet → Nat := fun _ => 0
  authNow : State → Packet → Nat := fun _ _ => 0
  without : Packet → Bool := fun _ => false
  role : State → Packet → Bool := fun _ _ => true
  len : State → Packet → Bool := fun _ p => p.payload.length == 0
  run : Nat → Packet → State → Done

/-- A failure that changes nothing. -/
def fail (status : Nat) (s : State) : Done := { status, state := s }

/-- The opcodes that a module serves without an image, and during a reload: system and image opcodes (R393, R443). -/
def systemOpcode (opcode : Nat) : Bool := opcode / 256 == 1 || opcode / 256 == 2

/-- Opcodes restricted by a reload or by NO_IMAGE in a module with lanes in service: the others find the state
precondition of step 13 not met (assumption 22). -/
def servedNow (s : State) (p : Packet) : Bool :=
  nServing s = 0 || systemOpcode p.opcode || (decide (s.host.reload = 0) && imageActive s)

/-- A packet in the form that the responder answers: no lane in service (R379). -/
def roleOk (o : OpSpec) (s : State) (p : Packet) : Bool :=
  (if nServing s = 0 || s.cons.role == .transferring then o.without p else true) && o.role s p

/-- Steps 8 to 14 of Table 12-4 for a packet of an open session or of session 0; `auth` is the session's level. -/
def runChecks (spec : Option OpSpec) (k auth : Nat) (p : Packet) (s : State) : Done :=
  match spec with
  | none => fail 0x0010 s
  | some o =>
    let badQueue := match p.src with
      | .pcie q _ _ => q != p.queue
      | _ => false
    if 32 ≤ p.queue || 8 ≤ p.flags || (p.flags.testBit 2 && p.opcode != 0x0103) || badQueue then fail 0x0013 s
    else if auth < max (o.auth p) (o.authNow s p) then fail 0x0031 s
    else if !roleOk o s p then fail 0x0020 s
    else if !o.len s p then fail 0x0011 s
    else
      let d := o.run k p s
      if (d.status = 0 || d.status = 1 || d.status = 2 || d.status = 3) && !servedNow s p then fail 0x0021 s else d

/-- The task of a packet in session slot `k`. -/
def taskOf (k : Nat) (p : Packet) : Task := { session := k, tag := p.tag, seq := p.sequence }

/-- FORCED flag of a packet. -/
def forced (p : Packet) : Bool := p.flags.testBit 0

/-- NO_REPLY flag of a packet. -/
def noReply (p : Packet) : Bool := p.flags.testBit 1

/-- A reply without slot, at once, read count 0 unless the opcode says otherwise (R368, R376). -/
def replyNoSlot (p : Packet) (d : Done) (session : Nat) (s : State) : State :=
  if noReply p then s
  else emitReply { dst := p.src, queue := p.queue, opcode := p.opcode, tag := p.tag, session, sequence := p.sequence,
                   status := d.status, reads := d.reads, result := d.result, noSlot := nServing s = 0 } s

/-- The reply limit of R375: a reply past the session's max_packet is BAD_LENGTH without result; the command is then
not carried out (assumption 23). -/
def limitReply (maxPacket : Nat) (before : State) (d : Done) : Done :=
  if maxPacket < 24 + d.result.length || 4076 < d.result.length then fail 0x0011 before else d

/-- Step 14 stored: the slot holds the reply, and the first reply is sent (R375). -/
def storeAndReply (k : Nat) (p : Packet) (d : Done) : State :=
  let pend := d.status == 2
  let reads := if pend || noReply p then 0 else 1
  let n : Slot := { tag := p.tag, opcode := p.opcode, status := d.status, reads := reads,
                    result := if pend then [] else d.result, noReply := noReply p, queue := p.queue,
                    sequence := p.sequence, done := !pend }
  let s := onSession k (fun x => { x with slots := x.slots.map (fun t =>
      if t.tag == p.tag && t.sequence == p.sequence && !t.done then n else t) }) d.state
  if noReply p then s
  else emitReply { dst := p.src, queue := p.queue, opcode := p.opcode, tag := p.tag, session := p.session,
                   sequence := p.sequence, status := d.status, reads := reads, result := n.result } s

/-- A command packet processed by the lanes, or by the responder while no lane is in service: steps 5 to 14 of
Table 12-4. The meaning of the packet's opcode is `spec`, none for an opcode outside Table 12-18. A module in Fault, Off
or Backup answers nothing (R337). -/
def processPacket (spec : Option OpSpec) (p : Packet) (s : State) : State :=
  if !junctionUp s then s
  else if p.session = 0 then
    if p.opcode == 0x0101 || p.opcode == 0x0102 || p.opcode == 0x0103 then
      let d := limitReply 4100 s (runChecks spec 255 0 p s)
      replyNoSlot p d p.session d.state
    else replyNoSlot p (fail 0x0030 s) p.session s
  else match sessionOf s p.session with
    | none => replyNoSlot p (fail 0x0030 s) p.session s
    | some (k, x) =>
      if p.sequence ≤ x.seq then
        onSession k (fun y => { y with discarded := sat 32 (y.discarded + 1) })
          { s with host.discarded := sat 16 (s.host.discarded + 1) }
      else
        let s := onSession k (fun y => { y with seq := p.sequence, lastAt := s.mono, src := p.src }) s
        if slotless p.opcode then
          let d := limitReply x.maxPacket s (runChecks spec k x.authority p s)
          replyNoSlot p d p.session d.state
        else match takeSlot { x with seq := p.sequence, lastAt := s.mono, src := p.src }
              { tag := p.tag, opcode := p.opcode, noReply := noReply p, queue := p.queue, sequence := p.sequence } with
          | none => replyNoSlot p (fail 0x0022 s) p.session s
          | some y =>
            let s := onSession k (fun _ => y) s
            storeAndReply k p (limitReply x.maxPacket s (runChecks spec k x.authority p s))

/-- A command that answered PENDING completes (R375): its slot takes the final status and result and waits for its
completion reply; where the slot has been freed or taken by another command the result is discarded and counted
(R377). -/
def completeSlot (c : Task) (status : Nat) (result : List Byte) (s : State) : State :=
  match s.host.sessions.getD c.session none with
  | none => s
  | some x =>
    if x.slots.any (fun t => t.tag == c.tag && t.sequence == c.seq && !t.done) then
      let big := x.maxPacket < 24 + result.length
      onSession c.session (fun y => { y with slots := y.slots.map (fun t =>
        if t.tag == c.tag && t.sequence == c.seq && !t.done then
          { t with status := if big then 0x0011 else status, result := if big then [] else result,
                   done := true, due := !t.noReply }
        else t) }) s
    else onSession c.session (fun y => { y with orphans := sat 32 (y.orphans + 1) }) s

/-- A session closed (R372): its slots are freed; an open transfer of it is abandoned (R390); the end is logged with
its kind (2 closed, 3 timed out). -/
def closeSession (k kind : Nat) (s : State) : State :=
  match s.host.sessions.getD k none with
  | none => s
  | some x =>
    let s := logJ 12 1 (leBytes 1 k ++ leBytes 1 kind ++ leBytes 1 x.authority ++ fitBytes 16 x.name) s
    let s := { s with host.sessions := s.host.sessions.set k none }
    match s.host.transfer with
    | none => s
    | some t =>
      if t.session = k then
        { s with host.transfer := none
                 host.slots := s.host.slots.modify t.slot (fun i => { i with state := 3 }) }
      else s

/-- Every session closed, at a Boot (R372). -/
def closeAll (s : State) : State := (List.range 8).foldl (fun s k => closeSession k 2 s) s

/-- An event queued for the next frame boundary in processing order (R61). -/
def defer (d : Deferred) (s : State) : State := { s with host.deferred := s.host.deferred ++ [d] }

/-- An effect of SETPOINT_SET, of which the last of a host service applies (R192). -/
def isSetpoint : Deferred → Bool
  | .setPosition _ _ _ _ _ _ | .setTrack _ _ _ _ | .setTip _ _ _ _ _ _ _ _ => true
  | _ => false

/-- Two effects on the same object, of which the last one processed counts (R61). -/
def sameObject : Deferred → Deferred → Bool
  | .thrEnable t, .thrEnable u | .thrEnable t, .thrDisable u _ | .thrDisable t _, .thrEnable u | .thrDisable t _, .thrDisable u _ => t == u
  | .refSet a i _, .refSet b j _ => a == b && i == j
  | .mode _ _, .mode _ _ => true
  | a, b => isSetpoint a && isSetpoint b

/-- Two effects act on the settings of one object, whether the later one replaces the earlier or follows on it. -/
def sameTarget : Deferred → Deferred → Bool
  | .lever i _, .lever j _ => i == j
  | .allocMode _ _ _, .allocMode _ _ _ => true
  | .body a _ _ _ _, .body b _ _ _ _ => a == b
  | .repetitive _ _ _ _ _, .repetitive _ _ _ _ _ => true
  | a, b => sameObject a b

/-- A command for the object waits for the boundary: a later one for that object does not find it in its requested state,
since the last of them applies (R61, R64). -/
def waits (d : Deferred) (s : State) : Bool := s.host.deferred.any (sameTarget d)

/-- A reserved range of the payload reads 0 (R6). -/
def reservedZero (p : Packet) (o n : Nat) : Bool := fieldNat p.payload o n == 0

end Machine
end Sys2Proof
end

