-- ==== Sys2Proof/Machine/Flags.lean ====
section
/-! DEFINITION. Status flags and counters that the commands share: outcomes of activities and their counters
(chapter 02), which activity runs next, and how work items are agreed. -/

namespace Sys2Proof.Machine

/-- The activity after `act` in ID order; ID 8 is the servo, which runs in its slots (R45). -/
def actAfter (act : Nat) : Nat := if act = 7 then 9 else act + 1

/-- The part of the frame in which an activity runs (R45): the chain before the output instant, which is the strobe of
tick 4 (R21), IDs 9 to 12 after it; the servo in every tick. A frame begins with both strobes of its tick 0. -/
def inPart (act : Nat) (s : State) : Bool :=
  !s.tt.boundaryDue && !s.tt.strobeDue &&
    (if act ≤ 7 then decide (s.tt.tick < 4) else act == 8 || decide (4 ≤ s.tt.tick))

/-- An activity may run: it is the next one of the frame, in its part of the frame, and the lanes run the timetable (R45).
During the reload of an image only input gather, logging, housekeeping and system opcodes run (R393). -/
def mayRun (act : Nat) (s : State) : Bool := lanesRun s && s.tt.nextAct == act && inPart act s

/-- The activity does its work in this frame: not during the reload of an image, and not without an image, where only
input gather, host service, logging and housekeeping run (R393, R443). -/
def works (s : State) : Bool := decide (s.host.reload = 0) && imageActive s

/-- The cycles charged to an activity in µs, for each lane in service (R44): a measured quantity (assumption 5), within the
budget and within `most`; the whole budget for a lane of `full`, whose cycles reached it (R48). -/
def chargeAct (act most : Nat) (full : List Lane) (s : State) : State :=
  let b := s.tt.budget.getD act 0
  lanesAll.foldl (fun s l =>
    if inService s l then
      let (n, s') := takeNat s
      { s' with tt.usedNow := s'.tt.usedNow.modify (3 * act + l.num)
                  (fun u => max u (if full.contains l then b else n % (min b most + 1))) }
    else s) s

/-- At least `least` µs charged to an activity on every serving lane, within its budget (R44). -/
def chargeLeast (act least : Nat) (s : State) : State :=
  let b := s.tt.budget.getD act 0
  { s with tt.usedNow := s.tt.usedNow.mapIdx (fun i u =>
      if i / 3 = act && inService s (lanesAll.getD (i % 3) .a) then max u (min b least) else u) }

/-- An outcome exchange begins (R49, R50): a lane that did not time out in the one before starts its run of timeouts
again (R331), and no lane has reported HELD yet. -/
def newOutcome (s : State) : State :=
  let run := fun (l : Lane) => if s.tt.timedOut.get l then s.tt.timeoutRun.get l else 0
  { s with
    tt.timeoutRun := ⟨run .a, run .b, run .c⟩
    tt.timedOut := ⟨false, false, false⟩
    tt.heldBy := ⟨false, false, false⟩
    tt.holdLogged := false }

/-- Changes of a loop's feedback are logged, vector 39 (R214); a switchboard's inputs are not a feedback channel. -/
def logLoops (before : List (List Loop)) (s : State) : State :=
  (List.range 32).foldl (fun s t => [0, 1, 2, 3, 5].foldl (fun s k =>
    let old := ((before.getD t []).getD k {}).fault
    let new := ((s.ctl.loops.getD t []).getD k {}).fault
    if old = new then s
    else assertVec 39 (logL 7 2 (leBytes 1 t ++ leBytes 1 k ++ leBytes 1 (if new then 1 else 0)) s)) s) s

/-- The servo slot of this tick was not held (R49): its results stand, and what it found is reported. -/
def settleServo (s : State) : State :=
  match s.servoUndo with
  | none => s
  | some c => newOutcome (logLoops c.loops { s with servoUndo := none })

/-- An activity completed, with a charge of at most `most`: the next one follows; its run of holds ends; the lanes have
reported in time. -/
def completeIn (act most : Nat) (s : State) : State :=
  let s := chargeAct act most [] (newOutcome (settleServo s))
  { s with tt.nextAct := actAfter act, tt.run := s.tt.run.set act 0 }

/-- An activity completed within its budget. -/
def completeAct (act : Nat) (s : State) : State := completeIn act (s.tt.budget.getD act 0) s

/-- The newest record of a hold, the list being newest first, with further lanes in its mask. -/
def markHold (m : Nat) : List Rec → List Rec
  | [] => []
  | r :: rs => if r.source == 2 && r.code == 1 then { r with lanes := r.lanes ||| m } :: rs else r :: markHold m rs

/-- Lanes that report HELD or count as HELD in the hold in hand (R50, R52, R54): their counters and the mask of the record. -/
def countHeld (act : Nat) (lanes : List Lane) (s : State) : State :=
  let m := maskOf (lanes.map Lane.num)
  { s with
    tt.laneHeld := lanes.foldl (fun l x => l.modify (3 * act + x.num) (fun n => sat 32 (n + 1))) s.tt.laneHeld
    tt.heldBy := lanes.foldl (fun h l => h.set l true) s.tt.heldBy
    log.lanePend := if s.tt.holdLogged then (markHold m s.log.lanePend.reverse).reverse else s.log.lanePend }

/-- Counters, vector and record of an agreed hold (R54); `lanes` are the lanes that reported HELD. -/
def agreedHold (act : Nat) (lanes : List Lane) (s : State) : State :=
  let run := s.tt.run.getD act 0 + 1
  let s := countHeld act lanes { s with
    tt.agreedHeld := s.tt.agreedHeld.modify act (fun n => sat 32 (n + 1))
    tt.run := s.tt.run.set act run
    tt.heldNow := s.tt.heldNow.set act true
    tt.maxRun := if act ≤ 7 then max s.tt.maxRun (sat 16 run) else s.tt.maxRun
    tt.recCount := s.tt.recCount.modify act (fun n => sat 32 (n + 1)) }
  let s := assertVecFrame 42 2 s
  let due := match s.tt.recAt.getD act none with
    | none => true
    | some t => decide (t + 1000 ≤ s.mono)
  if due then
    let s := logLMask 2 1 (maskOf (lanes.map Lane.num)) (leBytes 1 act ++ leBytes 4 (s.tt.recCount.getD act 0)) s
    { s with tt.recAt := s.tt.recAt.set act (some s.mono), tt.recCount := s.tt.recCount.set act 0, tt.holdLogged := true }
  else s

/-- An outcome timeout charged to a lane (R50); the third in a row is a lane fault (R331, cause 5). -/
def chargeTimeout (l : Lane) (s : State) : State :=
  let run := s.tt.timeoutRun.get l + 1
  let s := { s with
    tt.timeouts := s.tt.timeouts.set l (sat 32 (s.tt.timeouts.get l + 1))
    tt.timedOut := s.tt.timedOut.set l true
    tt.timeoutRun := s.tt.timeoutRun.set l run }
  if 3 ≤ run then laneFault l 5 s else s

/-- Items agreed in a work-item activity (R52): the lowest count reported; a lane not heard in time counts as zero. -/
def agreedItems (rep : Lane3 ItemReport) (s : State) : Nat :=
  (serving s).foldl (fun n l => min n (if (rep.get l).arrived then (rep.get l).items else 0))
    (((serving s).map (fun l => (rep.get l).items)).foldl max 0)

/-- The lanes that report HELD, or count as HELD because their report did not arrive (R52). -/
def itemsHeld (rep : Lane3 ItemReport) (s : State) : List Lane :=
  (serving s).filter (fun l => (rep.get l).held || !(rep.get l).arrived)

/-- The end of a work-item activity (R52, R54): timeouts are charged, a hold is counted, the next activity follows. -/
def endItems (act : Nat) (rep : Lane3 ItemReport) (s : State) : State :=
  let held := itemsHeld rep s
  let late := (serving s).filter (fun l => !(rep.get l).arrived)
  let s := chargeAct act (s.tt.budget.getD act 0) held (newOutcome (settleServo s))
  let s := { s with tt.nextAct := actAfter act }
  let s := if held.isEmpty then { s with tt.run := s.tt.run.set act 0 } else agreedHold act held s
  late.foldl (fun s l => chargeTimeout l s) s

end Sys2Proof.Machine
end

