-- ==== Sys2Proof/Machine/Time.lean ====
section
/-! DEFINITION. The time base (chapter 03): sources, holdover, slew and step, PPS, IEEE 1588, stamp queues, snapshot,
and the opcodes of R94. -/

namespace Sys2Proof.Machine

/-! ### Error and STATE -/

/-- EXT-10M is the synthesiser reference (R74). -/
def extInUse (s : State) : Bool := s.time.extQualified && s.time.extEnabled

/-- e(t) of R76 in ns, t from the loss. -/
def holdEst (s : State) : Qty :=
  let t : Qty := ((s.mono - s.time.lostAt.getD s.mono : Nat) : Qty) / 1000
  let k := if extInUse s then s.image.time.kExt else s.image.time.k
  let c := if extInUse s then s.image.time.cExt else s.image.time.c
  s.time.e0 + k * t * t * 1000000000 + c * absQ (s.pow.tBase - s.time.lossTemp) * t

/-- The measured error now, ns: a slew removes 100 ns per second of it (R75, R78). -/
def curErr (s : State) : Int :=
  if s.time.slewing then
    let d : Int := ((s.mono - s.time.slewAt) / 10 : Nat)
    if 0 ≤ s.time.err then max 0 (s.time.err - d) else min 0 (s.time.err + d)
  else s.time.err

/-- ERR_EST (Table 3-9): e(t) while no source is selected after a loss, else the measured error; all ones before any. -/
def errEst (s : State) : Nat :=
  if s.time.selected.isNone && s.time.lostAt.isSome then sat 32 (roundEven (holdEst s)).toNat
  else if s.time.errKnown then sat 32 (curErr s).natAbs
  else 0xFFFFFFFF

/-- A port that is MASTER while STATE is INVALID listens again (R87). -/
def demote (v : Nat) (p : PtpPortSt) : PtpPortSt := if v = 0 && p.role == .master then { p with role := .listening } else p

/-- STATE changed: a QUALITY record (R77); no port stays MASTER while STATE is INVALID (R87). -/
def setTimeState (v : Nat) (s : State) : State :=
  if s.time.state = v then s
  else
    let q := qualityByte s
    let s' := { s with time.state := v, time.ptp := s.time.ptp.map (demote v) }
    logJ 3 1 (leBytes 1 q ++ leBytes 1 (qualityByte s') ++ leBytes 1 (s.time.selected.getD 255)) s'

/-- The STATE that the Lead's newest heartbeat gives (R71). -/
def leadState (s : State) : Nat := (s.cons.peers.getD (s.cons.lead - 1) {}).hb.timeQuality % 4

/-- STATE judged from the measured error of the selected source (R71, R77); `fromInvalid` at the first step. -/
def judgeState (fromInvalid : Bool) (s : State) : State :=
  match s.time.selected with
  | none => s
  | some id =>
    if s.time.step.isSome then s
    else if (curErr s).natAbs < 1000 then
      if id = 3 then setTimeState (leadState s) s
      else if s.time.state = 0 && !fromInvalid then s
      else setTimeState 3 s
    else if fromInvalid then setTimeState 1 s
    else s

/-! ### Selection of a source (R70 to R80) -/

/-- The source to select (R71). A module that is not Lead and has no qualified CONSIST selects among IDs 0 to 2 by the
order: the manual does not say what it selects then (DESIGN CHOICE; assumption 102). -/
def bestSource (s : State) : Option Nat :=
  if !(drives s) && (s.time.srcs.getD 3 {}).qualified then some 3
  else s.time.order.find? (fun i => i < 3 && (s.time.srcs.getD i {}).qualified)

/-- Step announced at S + 2 (R79, R80). -/
def announceStep (id : Nat) (amount : Int) (s : State) : State :=
  let at2 := s.time.sec + 2
  let s := logJ 3 3 (leInt 8 amount ++ leBytes 8 at2) s
  assertVec 33 { s with time.step := some (at2, amount), time.stepSrc := id }

/-- The rate of a slew, ppb: the limit of R75, toward the source (R78). -/
def slewRate (err : Int) : Qty := if 0 < err then 100 else if err < 0 then -100 else 0

/-- The steering toward a source, ppb (R75): in proportion to the error, over the image's time constant, within ±100 ppb. The manual
gives the time constant and the limit and no loop equation (DESIGN CHOICE; assumption 113). -/
def steerRate (tau : Nat) (err : Int) : Qty := clampQ (-100) 100 ((err : Qty) / ((max tau 1 : Nat) : Qty))

/-- A source taken as the selected one with its measured error: a slew below 1 ms, else a step (R78, R79). -/
def adoptSource (id : Nat) (s : State) : State :=
  let off := (s.time.srcs.getD id {}).offset
  let s := logJ 3 2 (leBytes 1 (s.time.selected.getD 255) ++ leBytes 1 id ++ leInt 8 off) s
  let s := { s with time.selected := some id, time.err := off, time.errKnown := true, time.slewAt := s.mono,
                    time.lostAt := none, time.slewing := false, time.steer := 0 }
  if s.time.state = 0 || 1000000 ≤ off.natAbs then announceStep id off s
  else judgeState false { s with time.slewing := off ≠ 0, time.steer := slewRate off }

/-- The best source selected, unless the change would need a second step while one is pending (R72, R80). A change that needs
no second step is made at once, and a step then pending is still applied: the manual does not say what becomes of it
(DESIGN CHOICE; assumption 102). -/
def reselect (s : State) : State :=
  match bestSource s with
  | none => s
  | some id =>
    if s.time.selected = some id then s
    else if s.time.step.isSome && (s.time.state = 0 || 1000000 ≤ ((s.time.srcs.getD id {}).offset).natAbs) then s
    else adoptSource id s

/-- Typical error of a source, ns (R76, Table 3-2). -/
def typicalErr (s : State) (id : Nat) : Qty :=
  match id with
  | 0 => if s.gnss.mode = 1 then 15 else 25
  | 1 => 15
  | 2 => 5
  | _ => 50 * (s.time.hops : Qty)

/-- A pending step cancelled (R80). -/
def cancelStep (s : State) : State :=
  match s.time.step with
  | none => s
  | some (_, amt) => assertVec 33 (logJ 3 5 (leInt 8 amt) { s with time.step := none })

/-- The selected source is no longer to be used (R71, R76): another qualified source replaces it, else holdover begins, with
the rate frozen at the learned one. -/
def deselect (id : Nat) (s : State) : State :=
  match bestSource s with
  | some _ => reselect { s with time.err := curErr s, time.slewing := false, time.steer := 0 }
  | none =>
    let e := ((curErr s).natAbs : Qty) + typicalErr s id
    let s := logJ 3 2 (leBytes 1 id ++ leBytes 1 255 ++ leInt 8 (s.time.srcs.getD id {}).offset) s
    let s := { s with time.err := curErr s, time.slewing := false, time.steer := 0, time.selected := none,
                      time.lostAt := some s.mono, time.e0 := e, time.lossTemp := s.pow.tBase }
    if s.time.state = 0 then s else setTimeState (if e < 1000 then 2 else 1) s

/-- The time for which a source's condition has held starts from zero (R70). -/
def restartSource (id : Nat) (s : State) : State :=
  { s with
    time.srcs := s.time.srcs.modify id (fun x => { x with qualified := false, since := none })
    time.ppsRun := if id = 2 then 0 else s.time.ppsRun }

/-- A source lost (R70, R76, R80): its qualification starts from zero; a step toward it is cancelled; another qualified source
replaces it, else holdover begins. -/
def loseSource (id : Nat) (s : State) : State :=
  let was := (s.time.srcs.getD id {}).qualified
  let s := restartSource id s
  if !was then s
  else
    let s := if s.time.step.isSome && s.time.stepSrc = id then cancelStep s else s
    if s.time.selected = some id then deselect id s else reselect s

/-- A change of role (R71): a module that drives no longer selects CONSIST; another one selects it where it is qualified. -/
def roleSource (s : State) : State :=
  if drives s && s.time.selected = some 3 then
    deselect 3 (if s.time.step.isSome && s.time.stepSrc = 3 then cancelStep s else s)
  else reselect s

/-- The time-affecting integrity flags of Table 4-8 (R112): bits 1 to 5 and 7 of `gnss.flags`. -/
def timeAffecting : Nat := 0xBE

/-- The qualification condition of a source has held for its time (Table 3-2). -/
def sourceDue (s : State) (id : Nat) : Bool :=
  let x := s.time.srcs.getD id {}
  !x.qualified && s.time.running &&
  match id with
  | 0 => s.time.order.contains 0 && heldFor s x.since 10000
  | 1 => s.time.order.contains 1 && heldFor s x.since 10000 && s.time.ptp.any (fun p => p.role == .slave)
  | 2 => s.time.order.contains 2 && decide (10 ≤ s.time.ppsRun) && !heldFor s x.lastGood 1500
  | 3 => heldFor s x.since 1000
  | _ => false

/-- The loss condition of a source (Table 3-2); disabling a source is a loss (chapter 03, Opcodes). -/
def lossDue (s : State) (id : Nat) : Bool :=
  let x := s.time.srcs.getD id {}
  x.qualified &&
  match id with
  | 0 => heldFor s x.lastGood 2000 || (s.gnss.flags &&& timeAffecting) ≠ 0 || !s.time.order.contains 0
  | 1 => !(s.time.ptp.any (fun p => p.role == .slave)) || !s.time.order.contains 1
  | 2 => heldFor s x.lastGood 1500 || !s.time.order.contains 2
  | 3 => heldFor s x.lastGood 30
  | _ => false

/-- SOURCE_QUALIFIED (R70 to R72, R78, R79). -/
def execSourceQualified (id : Nat) (err : Int) (s : State) : Host.Outcome State Fault Refusal :=
  .next (if sourceDue s id then
    reselect { s with time.srcs := s.time.srcs.modify id (fun x => { x with qualified := true, present := true, offset := err }) }
  else s)

/-- SOURCE_LOST (R70, R76, R80). -/
def execSourceLost (id : Nat) (s : State) : Host.Outcome State Fault Refusal :=
  .next (if lossDue s id then loseSource id s else s)

/-- A source heard at this instant. -/
def hearSource (id : Nat) (s : State) : State :=
  { s with time.srcs := s.time.srcs.modify id (fun x => { x with present := true, lastGood := some s.mono }) }

/-- A measurement of a source's offset from module time. That of the selected source is the measured error: one of 1 ms or
more is stepped (R79), a smaller one is steered out (R75, R78). -/
def measureSource (id : Nat) (off : Int) (s : State) : State :=
  let s := { s with time.srcs := s.time.srcs.modify id (fun x => { x with offset := off }) }
  if s.time.selected = some id && s.time.step.isNone then
    let slewing := s.time.slewing && off ≠ 0
    let tau := s.image.time.tau
    let s := { s with time.err := off, time.errKnown := true, time.slewAt := s.mono, time.slewing := slewing,
                      time.learned := Config.learnRate tau s.time.learned off,
                      time.steer := if slewing then slewRate off else steerRate tau off }
    if 1000000 ≤ off.natAbs then announceStep id off { s with time.slewing := false, time.steer := 0 } else judgeState false s
  else s

/-- Module time moved by an amount in ns (R79). -/
def moveTime (amt : Int) (t : TimeSt) : TimeSt :=
  let n := ((t.sec * 1000000000 + t.ns : Nat) : Int) + amt
  let n := n.toNat
  { t with sec := n / 1000000000, ns := n % 1000000000 }

/-! ### PPS outputs (R82 to R84) -/

/-- The second boundary of module time that lies in the present tick. -/
def secondNow (s : State) : Option Nat :=
  let b := if s.time.ns = 0 then s.time.sec else s.time.sec + 1
  if b * 1000000000 < nowNs s + 1000000 then some b else none

/-- The second boundary at which an output is to begin a pulse now: it is enabled, STATE is not INVALID, and its last pulse
lies at least 1 s back in module time as it runs now (R82, R84). -/
def ppsDue (s : State) (p : PpsOut) : Option Nat :=
  match secondNow s with
  | none => none
  | some b =>
    let spaced := match p.lastNs with
      | none => true
      | some l => decide (l + 1000000000 ≤ (b : Int) * 1000000000)
    if s.time.running && s.time.state ≠ 0 && p.cfg.enable && spaced then some b else none

/-- A pulse begun where one is due, with the width, polarity and offset then in force (R82, R83). -/
def ppsPulse (out : Nat) (s : State) : State :=
  { s with time.ppsOut := s.time.ppsOut.modify out (fun p => match ppsDue s p with
    | none => p
    | some b => { p with lastNs := some ((b : Int) * 1000000000), edgeNs := (b : Int) * 1000000000 + p.cfg.offset,
                         pulses := p.pulses + 1, width := p.cfg.width, pol := p.cfg.polarity, offset := p.cfg.offset }) }

/-- Every pulse that is due: an output never drops one (R84). -/
def ppsPulses (s : State) : State := ppsPulse 1 (ppsPulse 0 s)

/-- A position reference or sensor after a step: its time offset moves by the step (R81). -/
def stepUnit (amt : Int) (u : RefUnit) : RefUnit :=
  { u with
    align := u.align.map (fun a => { a with offset := a.offset + amt, lastA := a.lastA + amt })
    lastTv := u.lastTv.map (· + amt)
    hist := u.hist.map (fun h => { h with tv := h.tv + amt })
    meas := u.meas.map (fun m => { m with tv := m.tv + amt }) }

/-- The records in hand, restated in module time after a step, so that a step alone makes no sensor unaligned (R81).
DESIGN CHOICE (assumption 104): the spec does not say how the stamps taken before a step meet the offsets moved by it. -/
def stepRecs (amt : Int) (l : List InRecord) : List InRecord :=
  l.map (fun r => { r with stampNs := (r.stampNs + amt).toNat, doneNs := (r.doneNs + amt).toNat })

/-- What else holds instants of module time that later instants are measured against, moved with a step (R81): the records in
hand, epochs, votes, attitude history, tracks, the trajectory and the instant of the estimate. -/
def stepNav (amt : Int) (s : State) : State :=
  { s with
    inp.fset := stepRecs amt s.inp.fset
    inp.tset := stepRecs amt s.inp.tset
    inp.fnext := stepRecs amt s.inp.fnext
    inp.tnext := stepRecs amt s.inp.tnext
    inp.fcur := stepRecs amt s.inp.fcur
    inp.tcur := stepRecs amt s.inp.tcur
    inp.parsed := s.inp.parsed.map (fun p => { p with arrival := p.arrival + amt, tag := if p.internal then p.tag.map (· + amt) else p.tag })
    inp.fast := s.inp.fast.map (fun f => { f with stamp := (f.stamp + amt).toNat })
    gnss.blocks := s.gnss.blocks.map (fun b => ((b.1 + amt).toNat, b.2))
    gnss.held := s.gnss.held.map (fun e => { e with tv := e.tv + amt })
    ref.refs := s.ref.refs.map (stepUnit amt)
    ref.sens := s.ref.sens.map (stepUnit amt)
    ref.votes := s.ref.votes.map (fun v => { v with at_ := v.at_ + amt })
    ref.attHist := s.ref.attHist.map (fun h => (h.1 + amt, h.2))
    ref.tracks := s.ref.tracks.map (fun t => { t with tv := t.tv + amt })
    obs.traj := s.obs.traj.map (fun p => (p.1 + amt, p.2))
    obs.at_ := s.obs.at_ + amt }

/-- STEP_APPLIED (R79, R81): at the boundary S + 2; the pulse of that boundary goes out before the step (R84). The frame phase of
Table 2-4 is the sum of the steps since Boot, modulo 1 s (DESIGN CHOICE; assumption 113). -/
def execStepApplied (residual : Int) (s : State) : Host.Outcome State Fault Refusal :=
  .next (match s.time.step with
  | none => s
  | some (at2, amt) =>
    if s.time.sec < at2 then s
    else
      let wasInvalid := s.time.state = 0
      let s := ppsPulses s
      let s := { s with time := moveTime amt s.time }
      let s := { s with
        time.step := none
        time.stepCount := (s.time.stepCount + 1) % 16
        time.steppedAt := some s.mono
        time.phase := (((s.time.phase : Int) + amt) % 1000000000).toNat
        time.err := residual
        time.errKnown := true
        time.slewAt := s.mono
        time.slewing := residual ≠ 0
        time.steer := slewRate residual
        gnss.clkAcc := none
        gnss.clkHist := []
        gnss.gf := []
        time.ppsLast := s.time.ppsLast.map (fun x => ((x : Int) + amt).toNat)
        time.ppsPend := s.time.ppsPend.map (fun x => (((x.1 : Int) + amt).toNat, x.2))
        time.ppsOut := s.time.ppsOut.map (fun p => { p with lastNs := p.lastNs.map (· + amt) })
        time.srcs := s.time.srcs.map (fun x => { x with offset := x.offset - amt }) }
      let s := logJ 3 4 (leInt 8 amt) (stepNav amt s)
      reselect (judgeState wasInvalid s))

/-- SLEW_COMPLETE (R78): the error has been removed. -/
def execSlewComplete (s : State) : Host.Outcome State Fault Refusal :=
  .next (if s.time.slewing && curErr s = 0 then
    judgeState false { s with time.slewing := false, time.err := 0, time.steer := 0 }
  else s)

/-- FREERUN_ENTRY (R77): e(t) has reached 1 µs. -/
def execFreerunEntry (s : State) : Host.Outcome State Fault Refusal :=
  .next (if s.time.state = 2 && s.time.selected.isNone && 1000 ≤ holdEst s then setTimeState 1 s else s)

/-- EXT10M_QUALIFIED (R74). -/
def execExt10mQualified (s : State) : Host.Outcome State Fault Refusal :=
  .next (if s.time.running then
    { s with time.extPresent := true, time.extQualified := true, time.extSince := some s.mono } else s)

/-- EXT10M_LOST (R74): the changeover makes no phase step. -/
def execExt10mLost (s : State) : Host.Outcome State Fault Refusal :=
  .next { s with time.extQualified := false, time.extSince := none }

/-! ### PPS pins (R73, R82 to R85) -/

/-- PPS_OUT_PULSE: an enabled output begins the pulse of the second boundary in this tick (R82 to R84). -/
def execPpsOutPulse (out : Nat) (s : State) : Host.Outcome State Fault Refusal := .next (ppsPulse out s)

/-- A PPS-IN pulse with its seconds label (R70, R73): it counts toward the ten, and measures the source. -/
def labelled (label t : Nat) (good : Bool) (s : State) : State :=
  measureSource 2 ((label : Int) * 1000000000 - t)
    { s with time.ppsLabel := some label, time.ppsPend := none, time.ppsRun := if good then s.time.ppsRun + 1 else 1 }

/-- A PPS-IN pulse for which no ZDA sentence came (R73): the module second nearest to it, or no label while INVALID. -/
def unlabelled (t : Nat) (good : Bool) (s : State) : State :=
  if s.time.state ≠ 0 then labelled ((t + 500000000) / 1000000000) t good s
  else { s with time.ppsPend := none, time.ppsRun := 0 }

/-- A pulse whose 900 ms for a ZDA sentence are over (R73). -/
def settlePps (s : State) : State :=
  match s.time.ppsPend with
  | none => s
  | some (t, good) => if t + 900000000 < nowNs s then unlabelled t good s else s

/-- PPS_IN_EDGE at `ns` of the module second in progress (R73, R85): captured with its quality, the cable delay subtracted; an
interval outside 1 s ± 1 µs loses the source (R70). With a ZDA port named, the label is awaited. -/
def execPpsInEdge (ns : Nat) (s : State) : Host.Outcome State Fault Refusal :=
  .next (if !s.time.running || !s.time.ppsInCfg.enable then s
  else
    let t := (((s.time.sec * 1000000000 + ns : Nat) : Int) - s.time.ppsInCfg.offset).toNat
    let good := match s.time.ppsLast with
      | none => false
      | some l => decide (l + 999999000 ≤ t ∧ t ≤ l + 1000001000)
    let first := s.time.ppsLast.isNone
    let s := hearSource 2 { s with time.ppsSec := t / 1000000000 % 2 ^ 32, time.ppsNs := t % 1000000000,
                                   time.ppsQual := qualityByte s, time.ppsLast := some t }
    let s := if !good && !first then loseSource 2 s else s
    if s.time.ppsInCfg.labelPort = 255 then unlabelled t good s
    else { s with time.ppsPend := some (t, good) })

/-- Days from 1970-01-01 to a date of the Gregorian calendar. -/
def daysOf (y m d : Nat) : Int :=
  let y := if m ≤ 2 then y - 1 else y
  let doy := (153 * ((m + 9) % 12) + 2) / 5 + d - 1
  let yoe := y % 400
  ((y / 400 * 146097 + yoe * 365 + yoe / 4 - yoe / 100 + doy : Nat) : Int) - 719468

/-- A ZDA label for the newest PPS-IN pulse (R73): the sentence completes on the named port within 900 ms after it; its UTC
second is converted by R69. -/
def labelPps (link : Nat) (utc : Int) (doneNs : Nat) (s : State) : State :=
  match s.time.ppsPend with
  | none => s
  | some (t, good) =>
    if s.time.ppsInCfg.labelPort ≠ 255 && link = 14 + s.time.ppsInCfg.labelPort && t ≤ doneNs && doneNs ≤ t + 900000000 then
      labelled ((utc + taiUtcAt s utc).toNat) t good s
    else s

/-! ### IEEE 1588 (R86 to R89) -/

/-- A PTP port takes part (Table 3-11). -/
def ptpOn (s : State) (port : Nat) : Bool :=
  (s.time.ptp.getD port {}).cfg.enable && s.time.ptpClock.clockType ≠ 0 && !portOff s port

/-- clockClass announced as grandmaster (R87). -/
def clockClass (s : State) : Nat :=
  match s.time.state with
  | 3 => 6
  | 2 => 7
  | 1 => 52
  | _ => 248

/-- The role of a port that has no better master: MASTER, or LISTENING while STATE is INVALID (R87). -/
def freeRole (s : State) : PtpRole := if s.time.state = 0 then .listening else .master

/-- The 16 most recent PTP offsets agree within 200 ns (R70). -/
def ptpAgree (l : List Int) : Bool :=
  decide (l.length = 16) && l.all (fun a => l.all (fun b => decide (a - b ≤ 200)))

/-- A slave port has left SLAVE state (R70): its measurements end, and the PTP source is lost. -/
def ptpLost (s : State) : State := loseSource 1 { s with time.ptpOffsets := [] }

/-- The port that is SLAVE. -/
def slavePort (s : State) : Option Nat := (List.range 12).find? (fun k => (s.time.ptp.getD k {}).role == .slave)

/-! The best master clock algorithm is the default algorithm of IEEE 1588, which Table 3-6 names and does not print (PRESUMED;
assumption 112). -/

/-- A data set of the algorithm: a grandmaster's data as sent by one port and received by another. -/
structure PtpData where
  gm : GmData := {}
  sender : Nat := 0
  receiver : Nat := 0
  receiverPort : Nat := 0
deriving DecidableEq, Repr, Inhabited

/-- The lower of two values is the better: 1 for the first, -1 for the second, 0 for neither. -/
def lowerBetter (a b : Nat) : Int := if a < b then 1 else if b < a then -1 else 0

/-- The first of several comparisons that decides. -/
def firstDecides (l : List Int) : Int := (l.find? (· ≠ 0)).getD 0

/-- Data sets of two grandmasters compared: 2 or -2, better by its data. -/
def compareGm (a b : GmData) : Int :=
  2 * firstDecides [lowerBetter a.priority1 b.priority1, lowerBetter a.clockClass b.clockClass, lowerBetter a.accuracy b.accuracy,
    lowerBetter a.variance b.variance, lowerBetter a.priority2 b.priority2, lowerBetter a.identity b.identity]

/-- Data sets of one grandmaster compared by their way here: 2 or -2 better, 1 or -1 better by topology. -/
def comparePath (a b : PtpData) : Int :=
  if b.gm.steps + 1 < a.gm.steps then -2
  else if a.gm.steps + 1 < b.gm.steps then 2
  else if b.gm.steps < a.gm.steps then (if a.receiver < a.sender then -2 else -1)
  else if a.gm.steps < b.gm.steps then (if b.receiver < b.sender then 2 else 1)
  else firstDecides [lowerBetter a.sender b.sender, lowerBetter a.receiverPort b.receiverPort]

/-- Two data sets compared. -/
def comparePtp (a b : PtpData) : Int := if a.gm.identity = b.gm.identity then comparePath a b else compareGm a.gm b.gm

/-- What the module says of its own clock as grandmaster (R87). The manual gives clockClass and currentUtcOffset; accuracy, variance
and time source are free values (assumption 112). -/
def ownGm (s : State) : GmData :=
  let q := Config.ptpQuality s.time.state (s.time.selected.getD 255)
  { clockClass := clockClass s, accuracy := q.1, variance := q.2.1, timeSource := q.2.2, identity := Config.baseMac
    priority1 := s.time.ptpClock.priority1, priority2 := s.time.ptpClock.priority2, utcOffset := taiUtc s s.time.sec }

/-- The module's own data set in the algorithm: a clock that takes its time from PTP is no primary reference there (class 248;
assumption 112). -/
def ownData (s : State) : PtpData :=
  let g := ownGm s
  { gm := if s.time.selected = some 1 then { g with clockClass := 248 } else g, sender := Config.baseMac, receiver := Config.baseMac }

/-- A port's announce receipt timeout, ms (Table 3-6). -/
def announceTimeoutMs (c : PtpPort) : Nat := (roundEven ((c.timeout : Qty) * 1000 * pow2 c.logAnnounce)).toNat

/-- The best master heard on a port: candidates whose newest Announce is within the timeout. -/
def portBest (s : State) (port : Nat) : Option PtpData :=
  let p := s.time.ptp.getD port {}
  let l := p.foreign.filter (fun f => f.ok && decide (s.mono < f.last + announceTimeoutMs p.cfg) && decide (f.gm.steps < 255))
  l.foldl (fun (m : Option PtpData) f =>
    let d : PtpData := { gm := f.gm, sender := f.clock, receiver := Config.baseMac, receiverPort := port + 1 }
    match m with
    | none => some d
    | some b => if 0 < comparePtp d b then some d else some b) none

/-- The best master heard on any port. -/
def clockBest (s : State) : Option PtpData :=
  ((List.range 12).filterMap (fun k => if ptpOn s k then portBest s k else none)).foldl (fun (m : Option PtpData) d => match m with
    | none => some d
    | some b => if 0 < comparePtp d b then some d else some b) none

/-- The role that the algorithm gives an enabled port. A grandmaster-only clock is MASTER or PASSIVE; at most one port is SLAVE
(Table 3-6), the one with the best master of the clock. A port that has heard no master yet goes on LISTENING. -/
def portRole (s : State) (port : Nat) : PtpRole :=
  let p := s.time.ptp.getD port {}
  let own := ownData s
  match portBest s port with
  | none => if p.role == .listening || p.role == .disabled then p.role else freeRole s
  | some e =>
    if s.time.ptpClock.clockType = 3 then (if 0 ≤ comparePtp own e then freeRole s else .passive)
    else match clockBest s with
      | none => freeRole s
      | some b =>
        if 0 < comparePtp own b then freeRole s
        else if b.receiverPort = port + 1 then .slave
        else if comparePtp b e = 1 then .passive
        else freeRole s

/-- Every port's role judged again: a slave port that is no longer SLAVE, or another one in its place, loses the PTP source (R70,
R89). -/
def decidePorts (s : State) : State :=
  let old := slavePort s
  let s' := { s with time.ptp := s.time.ptp.mapIdx (fun k p => { p with role := if ptpOn s k then portRole s k else p.role }) }
  if old.isSome && slavePort s' ≠ old then ptpLost s' else s'

/-- An Announce noted for its sender: the second within four announce intervals makes it a candidate. -/
def noteForeign (now : Nat) (m : PtpMsg) (p : PtpPortSt) : PtpPortSt :=
  let window := (roundEven (4000 * pow2 p.cfg.logAnnounce)).toNat
  let same (f : ForeignMaster) : Bool := f.clock == m.sender && f.port == m.senderPort
  let f : ForeignMaster := match p.foreign.find? same with
    | some f => { f with gm := m.gm, ok := f.ok || decide (now ≤ f.last + window), last := now }
    | none => { clock := m.sender, port := m.senderPort, gm := m.gm, last := now }
  { p with foreign := (f :: p.foreign.filter (fun x => !same x)).take 5, lastAnnounce := some now }

/-- An Announce received (R86). -/
def ptpAnnounce (port : Nat) (m : PtpMsg) (s : State) : State :=
  decidePorts { s with time.ptp := s.time.ptp.modify port (noteForeign s.mono m) }

/-- An offset measured at the slave port (R70): the PTP condition is judged at each measurement. The port's ingress latency, added to
its receive stamps, and its egress latency, taken from its transmit stamps, change the offset by half their difference (R88). -/
def ptpOffset (port : Nat) (o : Int) (s : State) : State :=
  let c := (s.time.ptp.getD port {}).cfg
  let o := o + ((c.ingress : Int) - c.egress) / 2
  let l := (o :: s.time.ptpOffsets).take 16
  let s := { s with time.ptp := s.time.ptp.modify port (fun p => { p with offset := o }), time.ptpOffsets := l }
  measureSource 1 (-o) (hearSource 1 { s with time.srcs := s.time.srcs.modify 1 (fun x => { x with since := onset s x.since (ptpAgree l) }) })

/-- The message types of Table 3-6: Sync, Delay_Req, Pdelay_Req, Pdelay_Resp, Follow_Up, Delay_Resp, Pdelay_Resp_Follow_Up and
Announce; management, signalling and the rest are not supported. -/
def ptpKnown (t : Nat) : Bool := [0, 1, 2, 3, 8, 9, 10, 11].contains t

/-- A delay request kept for its answer with its receive stamp (R88), by the port's delay mechanism: 0 end-to-end, at a master;
1 peer-to-peer. -/
def ptpRequest (port : Nat) (m : PtpMsg) (s : State) : State :=
  { s with time.ptp := s.time.ptp.modify port (fun p =>
      let x := (m.sequenceId, nowNs s + p.cfg.ingress)
      if m.messageType = 1 && p.cfg.delay = 0 && p.role == .master then { p with delayReqs := p.delayReqs ++ [x] }
      else if m.messageType = 2 && p.cfg.delay = 1 then { p with pdelayReqs := p.pdelayReqs ++ [x] }
      else p) }

/-- PTP_MESSAGE (R70, R86, R87): a message of the port's transport and of the clock's domain. -/
def execPtpMessage (port : Nat) (m : PtpMsg) (s : State) : Host.Outcome State Fault Refusal :=
  .next (if !s.time.running || !ptpOn s port then s
  else if !m.supported || !ptpKnown m.messageType then
    { s with time.ptp := s.time.ptp.modify port (fun p => { p with ignored := sat 32 (p.ignored + 1) }) }
  else if m.domain ≠ s.time.ptpClock.domain || m.transport ≠ (s.time.ptp.getD port {}).cfg.transport then s
  else
    let s := ptpRequest port m (if m.messageType = 11 then ptpAnnounce port m s else s)
    match m.offset with
    | none => s
    | some o => if slavePort s = some port then ptpOffset port o s else s)

/-- PTP_ANNOUNCE_TIMEOUT (R70, R86, R89): a port has heard no Announce for its receipt timeout; it becomes MASTER unless STATE is
INVALID (R87), and a SLAVE port that leaves SLAVE loses the PTP source at that instant. The masters heard on it are forgotten, and the
roles of the other ports judged anew. -/
def execPtpAnnounceTimeout (port : Nat) (s : State) : Host.Outcome State Fault Refusal :=
  let p := s.time.ptp.getD port {}
  .next (if (p.role == .slave || p.role == .listening || p.role == .passive) && heldFor s p.lastAnnounce (announceTimeoutMs p.cfg) then
    let s := { s with time.ptp := s.time.ptp.modify port (fun p => { p with role := freeRole s, foreign := [] }) }
    decidePorts (if p.role == .slave then ptpLost s else s)
  else s)

/-- Bytes that a PTP message of each kind takes of the time class: its length in IEEE 1588, and 28 bytes of UDP and IPv4
headers on that transport (assumption 24). -/
def ptpBytes (transport : Nat) (k : PtpTx) : Nat :=
  (match k with
    | .announce => 64
    | .sync | .delayReq | .followUp => 44
    | .delayResp | .pdelayReq | .pdelayResp | .pdelayFollowUp => 54) + (if transport = 1 then 28 else 0)

/-! ### Transmit stamps (R90, R91) -/

/-- A transmit stamp queued: module time less the port's egress latency (R88); a full queue drops the newest, sets OVF
and counts it (R91). -/
def queueStamp (port : Nat) (e : StampReq) (s : State) : State :=
  let n := nowNs s - (s.time.ptp.getD port {}).cfg.egress
  let x : StampEntry := { sec := n / 1000000000, ns := n % 1000000000, frac := s.time.frac, quality := qualityByte s, req := e }
  { s with time.stamps := s.time.stamps.modify port (fun q =>
      if 16 ≤ q.entries.length then { q with ovf := true, drops := sat 16 (q.drops + 1) }
      else { q with entries := q.entries ++ [x] }) }

/-- TX_STAMP_QUEUED: a host packet with a stamp request, or a PTP event message of a port with stamp copying (R90). -/
def execTxStampQueued (port : Nat) (e : StampReq) (s : State) : Host.Outcome State Fault Refusal :=
  .next (if e.kind = 0 || (s.time.ptp.getD port {}).cfg.copy then queueStamp port e s else s)

/-- What a port may send now (R86, R87): a master its Announce, not while INVALID, its Sync, the Follow_Up of a two-step
Sync and the answers to delay requests; a slave its delay requests; a peer-to-peer port its Pdelay messages. -/
def ptpMay (s : State) (port : Nat) (k : PtpTx) : Bool :=
  let p := s.time.ptp.getD port {}
  s.time.running && ptpOn s port && portUp s port && (match k with
    | .announce => p.role == .master && s.time.state ≠ 0
    | .sync => p.role == .master
    | .followUp => p.role == .master && p.followUp.isSome
    | .delayReq => p.role == .slave && p.cfg.delay = 0
    | .delayResp => p.role == .master && p.cfg.delay = 0 && !p.delayReqs.isEmpty
    | .pdelayReq => p.role != .disabled && p.cfg.delay = 1
    | .pdelayResp => p.cfg.delay = 1 && !p.pdelayReqs.isEmpty
    | .pdelayFollowUp => p.cfg.delay = 1 && p.pFollowUp.isSome)

/-- The grandmaster data that a port announces (R87): a boundary clock carries those of its upstream grandmaster, one step
further; any other clock its own. -/
def announced (s : State) : GmData :=
  match (if s.time.ptpClock.clockType = 2 then (slavePort s).bind (portBest s) else none) with
  | some b => { b.gm with steps := b.gm.steps + 1 }
  | none => ownGm s

/-- The sequence number of a message of its kind: an answer repeats that of the message it answers. -/
def ptpSeq (p : PtpPortSt) (k : PtpTx) : Nat :=
  match k with
  | .followUp => (p.followUp.getD (0, 0)).1
  | .delayResp => (p.delayReqs.headD (0, 0)).1
  | .pdelayResp => (p.pdelayReqs.headD (0, 0)).1
  | .pdelayFollowUp => (p.pFollowUp.getD (0, 0)).1
  | _ => p.sent % 65536

/-- The stamp that a message carries (R88), in ns of module time: a Follow_Up the transmit stamp of what it follows, an answer the
receive stamp of its request, any other its own transmit stamp, less the port's egress latency. -/
def ptpStamp (s : State) (p : PtpPortSt) (k : PtpTx) : Nat :=
  match k with
  | .followUp => (p.followUp.getD (0, 0)).2
  | .delayResp => (p.delayReqs.headD (0, 0)).2
  | .pdelayResp => (p.pdelayReqs.headD (0, 0)).2
  | .pdelayFollowUp => (p.pFollowUp.getD (0, 0)).2
  | _ => nowNs s - p.cfg.egress

/-- The message type of an event message (R90). -/
def ptpEvent : PtpTx → Option Nat
  | .sync => some 0
  | .delayReq => some 1
  | .pdelayReq => some 2
  | .pdelayResp => some 3
  | _ => none

/-- A message as the port sends it (R87). -/
def ptpBuild (s : State) (p : PtpPortSt) (k : PtpTx) : PtpSent :=
  { kind := k, sequenceId := ptpSeq p k, domain := s.time.ptpClock.domain, transport := p.cfg.transport,
    oneStep := p.cfg.oneStep = 1, sec := ptpStamp s p k / 1000000000 % 2 ^ 48, ns := ptpStamp s p k % 1000000000,
    gm := announced s }

/-- What a port has still to send once a message has gone at `now`: a two-step event message calls for its Follow_Up, with its
transmit stamp less the egress latency (R88). -/
def ptpSentOf (now : Nat) (x : PtpSent) (p : PtpPortSt) : PtpPortSt :=
  let p := { p with sent := p.sent + 1, last := some x }
  let two := if x.oneStep then none else some (x.sequenceId, now - p.cfg.egress)
  match x.kind with
  | .sync => { p with followUp := two }
  | .followUp => { p with followUp := none }
  | .delayResp => { p with delayReqs := p.delayReqs.tail }
  | .pdelayResp => { p with pdelayReqs := p.pdelayReqs.tail, pFollowUp := two }
  | .pdelayFollowUp => { p with pFollowUp := none }
  | _ => p

/-- A PTP message leaves its port; with stamp copying its transmit stamp is queued (R90). -/
def sendPtp (port : Nat) (k : PtpTx) (s : State) : State :=
  if !ptpMay s port k then s
  else
    let p := s.time.ptp.getD port {}
    let x := ptpBuild s p k
    let s := { s with time.ptp := s.time.ptp.modify port (ptpSentOf (nowNs s) x) }
    match ptpEvent k with
    | none => s
    | some t => if p.cfg.copy then
        queueStamp port { kind := 1, sequenceId := x.sequenceId, messageType := t, domain := x.domain } s
      else s

/-- PTP_MESSAGE_TRANSMIT (R86, R87, R89): a message that the port may send is charged to the time class, and waits where that
class has no room (R56). -/
def execPtpMessageTransmit (port : Nat) (kind : PtpTx) (s : State) : Host.Outcome State Fault Refusal :=
  let p := s.time.ptp.getD port {}
  .next (if ptpMay s port kind then
    let r := chargeEgress { cls := 0, bytes := ptpBytes p.cfg.transport kind, port := port, cargo := .ptp kind } s
    if r.1 then sendPtp port kind r.2 else r.2
  else s)

/-! ### Snapshot (R93) -/

/-- The next leap second of the working table: the earliest entry that has not begun (R69, R93). -/
def leapNext (s : State) : Option (Nat × Int) :=
  (s.time.leap.filter (fun e => decide (s.time.sec < e.1))).foldl (fun (b : Option (Nat × Int)) e => match b with
    | none => some e
    | some x => if e.1 < x.1 then some e else some x) none

/-- The pending leap second is negative: TAI−UTC falls. -/
def leapNegative (s : State) : Bool :=
  match leapNext s with
  | none => false
  | some e => decide (e.2 < taiUtc s s.time.sec)

/-- TIME_STATE register. -/
def timeStateReg (s : State) : Nat :=
  s.time.selected.getD 255 + bitN s.time.step.isSome 8 + bitN s.time.extQualified 9 + bitN (leapNext s).isSome 10 +
    bitN (leapNegative s) 11

/-- The snapshot registers latched (R93): every register of Table 3-9 changes only here. -/
def latchSnap (s : State) : State :=
  { s with time.snap :=
      { seq := (s.time.snap.seq + 1) % 2 ^ 32, sec := s.time.sec, ns := s.time.ns, frac := s.time.frac,
        quality := qualityByte s, frame := s.tt.frame, timeState := timeStateReg s, errEst := errEst s,
        stepAt := (s.time.step.map (·.1)).getD 0, stepAmt := ofSigned 64 ((s.time.step.map (·.2)).getD 0),
        taiUtc := ofSigned 16 (taiUtc s s.time.sec), ppsSec := s.time.ppsSec, ppsNs := s.time.ppsNs } }

/-- SNAP_LATCH: a write to SNAP_CTRL with bit 0 set (R93). -/
def execSnapLatch (value : Nat) (s : State) : Host.Outcome State Fault Refusal :=
  .next (if value.testBit 0 then latchSnap s else s)

/-! ### Opcodes (R94) -/

/-- TIME_GET result for the present instant (Table 3-10). -/
def timeGetResult (s : State) : List Byte :=
  leBytes 8 s.time.sec ++ leBytes 4 s.time.ns ++ leBytes 2 s.time.frac ++ leBytes 1 (qualityByte s) ++
    leBytes 1 (s.time.selected.getD 255) ++ leBytes 4 (errEst s) ++ leInt 2 (taiUtc s s.time.sec) ++
    leBytes 1 (bitN (leapNext s).isSome 0 + bitN (leapNegative s) 1) ++
    leBytes 1 (bitN s.time.extPresent 0 + bitN s.time.extQualified 1) ++
    leBytes 8 ((s.time.step.map (·.1)).getD 0) ++ leInt 8 ((s.time.step.map (·.2)).getD 0) ++ leBytes 8 s.tt.frame

/-- TIME_GET (0x0901): the result of the boundary that begins the frame. -/
def timeGetSpec : OpSpec :=
  { without := fun _ => true, run := fun _ _ s => { status := 0, result := s.host.tmSnap, state := s } }

/-- TIME_GET (R94). -/
def execTimeGet (p : Packet) (s : State) : Host.Outcome State Fault Refusal :=
  .next (processPacket (some timeGetSpec) { p with opcode := 0x0901 } s)

/-- State byte of a source in TIME_SOURCE. -/
def srcStateByte (s : State) (id : Nat) : Nat :=
  let x := s.time.srcs.getD id {}
  if id < 3 && !s.time.order.contains id then 4
  else if s.time.selected = some id then 3
  else if x.qualified then 2
  else if x.present then 1 else 0

/-- Qualification time remaining, ms. -/
def srcRemain (s : State) (id : Nat) : Nat :=
  let x := s.time.srcs.getD id {}
  let need := if id = 3 then 1000 else 10000
  if x.qualified then 0
  else if id = 2 then (10 - s.time.ppsRun) * 1000
  else match x.since with
    | none => need
    | some t => need - (s.mono - t)

/-- TIME_SOURCE result. -/
def timeSourceResult (s : State) : List Byte :=
  ((List.range 4).map (fun i => leBytes 1 i ++ leBytes 1 (srcStateByte s i) ++ zeros 2 ++
    leInt 8 (s.time.srcs.getD i {}).offset ++ leBytes 4 (srcRemain s i))).flatten ++
    leBytes 1 (bitN s.time.extEnabled 0) ++ (s.time.order.map (fun i => leBytes 1 i)).flatten

/-- Priority bytes of TIME_SOURCE are valid: 0 to 2 or 0xFF, no ID twice. -/
def orderOk (l : List Nat) : Bool :=
  l.all (fun i => i < 3 || i = 255) && (List.range 3).all (fun i => decide (l.count i ≤ 1))

/-- TIME_SOURCE (0x0902). -/
def timeSourceSpec : OpSpec :=
  { auth := fun p => if fieldByte p.payload 0 = 0 then 0 else 2
    len := fun _ p => p.payload.length == 8
    run := fun _ p s =>
      let op := fieldByte p.payload 0
      let order := [fieldByte p.payload 2, fieldByte p.payload 3, fieldByte p.payload 4]
      if 1 < op then fail 0x0013 s
      else if op = 1 && !orderOk order then fail 0x0013 s
      else if op = 1 then
        { status := 1, result := timeSourceResult s, state := defer (.timeSource (fieldByte p.payload 1) order) s }
      else { status := 0, result := timeSourceResult s, state := s } }

/-- TIME_SOURCE (R94). -/
def execTimeSource (p : Packet) (s : State) : Host.Outcome State Fault Refusal :=
  .next (processPacket (some timeSourceSpec) { p with opcode := 0x0902 } s)

/-- A TIME_SOURCE write takes effect: a disabled source in use is lost (chapter 03, Opcodes, note). -/
def applyTimeSource (flags : Nat) (order : List Nat) (s : State) : State :=
  let s := { s with time.order := order, time.extEnabled := flags.testBit 0 }
  let s := (List.range 3).foldl (fun s i => if order.contains i then s else loseSource i s) s
  reselect s

/-- Port state code in PTP_CONFIG results (assumption 24). -/
def ptpRoleCode : PtpRole → Nat
  | .disabled => 3
  | .listening => 4
  | .master => 6
  | .passive => 7
  | .slave => 9

/-- PTP_CONFIG result: the payload with the active values, the port state and the last offset. -/
def ptpConfigResult (port op : Nat) (s : State) : List Byte :=
  let c := s.time.ptpClock
  let q := s.time.ptp.getD port { cfg := { timeout := 0 } }
  let x := q.cfg
  leBytes 1 port ++ leBytes 1 op ++ leBytes 1 c.clockType ++ leBytes 1 c.domain ++ leBytes 1 c.priority1 ++
    leBytes 1 c.priority2 ++ leBytes 1 (bitN x.enable 0) ++ leBytes 1 x.transport ++ leBytes 1 x.delay ++
    leBytes 1 x.oneStep ++ leInt 1 x.logSync ++ leInt 1 x.logAnnounce ++ leInt 1 x.logDelay ++ leBytes 1 x.timeout ++
    leBytes 1 (bitN x.copy 0) ++ zeros 1 ++ leBytes 2 x.ingress ++ leBytes 2 x.egress ++ zeros 4 ++
    leBytes 1 (if port = 255 then 0 else ptpRoleCode q.role) ++ zeros 3 ++ leInt 4 q.offset

/-- Settings of one port in a PTP_CONFIG payload. -/
def ptpPortOf (b : List Byte) : PtpPort :=
  { enable := fieldByte b 6 = 1, transport := fieldByte b 7, delay := fieldByte b 8, oneStep := fieldByte b 9,
    logSync := fieldInt b 10 1, logAnnounce := fieldInt b 11 1, logDelay := fieldInt b 12 1, timeout := fieldByte b 13,
    copy := fieldByte b 14 = 1, ingress := fieldNat b 16 2, egress := fieldNat b 18 2 }

/-- Ranges of Tables 3-6 and 3-11 for one port. -/
def ptpPortOk (b : List Byte) : Bool :=
  let c := ptpPortOf b
  decide (fieldByte b 6 ≤ 1) && decide (c.transport ≤ 1) && decide (c.delay ≤ 1) && decide (c.oneStep ≤ 1) &&
    decide (-4 ≤ c.logSync) && decide (c.logSync ≤ 1) && decide (-3 ≤ c.logAnnounce) && decide (c.logAnnounce ≤ 3) &&
    decide (-4 ≤ c.logDelay) && decide (c.logDelay ≤ 5) && decide (2 ≤ c.timeout) && decide (c.timeout ≤ 10) &&
    decide (fieldByte b 14 ≤ 1) && decide (c.ingress ≤ 2000) && decide (c.egress ≤ 2000)

/-- PTP_CONFIG (0x0903). -/
def ptpConfigSpec : OpSpec :=
  { auth := fun p => if fieldByte p.payload 1 = 0 then 0 else 2
    len := fun _ p => p.payload.length == 24
    run := fun _ p s =>
      let b := p.payload
      let port := fieldByte b 0
      let op := fieldByte b 1
      if 1 < op then fail 0x0013 s
      else if 11 < port && port ≠ 255 then fail 0x0014 s
      else if op = 0 then { status := 0, result := ptpConfigResult port op s, state := s }
      else if port = 255 then
        if 3 < fieldByte b 2 || 127 < fieldByte b 3 then fail 0x0014 s
        else
          let c : PtpClock := { clockType := fieldByte b 2, domain := fieldByte b 3, priority1 := fieldByte b 4,
                                priority2 := fieldByte b 5 }
          { status := 1, result := ptpConfigResult port op s, state := defer (.ptpClock c) s }
      else if !ptpPortOk b then fail 0x0014 s
      else { status := 1, result := ptpConfigResult port op s, state := defer (.ptpPort port (ptpPortOf b)) s } }

/-- PTP_CONFIG (R94). -/
def execPtpConfig (p : Packet) (s : State) : Host.Outcome State Fault Refusal :=
  .next (processPacket (some ptpConfigSpec) { p with opcode := 0x0903 } s)

/-- The role of a port whose settings change: an enabled port begins LISTENING at `now`. -/
def ptpReconf (on : Bool) (now : Nat) (p : PtpPortSt) : PtpPortSt :=
  if on && p.cfg.enable then (if p.role == .disabled then { p with role := .listening, lastAnnounce := some now } else p)
  else { p with role := .disabled, lastAnnounce := none, foreign := [], followUp := none, delayReqs := [], pdelayReqs := [], pFollowUp := none }

/-- A PTP_CONFIG write takes effect; a slave port that is disabled loses the PTP source (R70). -/
def applyPtp (clock : Option PtpClock) (port : Nat) (cfg : Option PtpPort) (s : State) : State :=
  let c := clock.getD s.time.ptpClock
  let l := s.time.ptp.modify port (fun p => { p with cfg := cfg.getD p.cfg })
  let was := slavePort s
  let s := { s with time.ptpClock := c, time.ptp := l.map (ptpReconf (c.clockType ≠ 0) s.mono) }
  if was.isSome && (slavePort s).isNone then ptpLost s else s

/-- A transmit stamp entry (Table 3-7). -/
def stampBytes (e : StampEntry) : List Byte :=
  leBytes 8 e.sec ++ leBytes 4 e.ns ++ leBytes 2 e.frac ++ leBytes 1 e.quality ++ leBytes 1 e.req.kind ++
    leBytes 2 e.req.sequenceId ++ leBytes 1 e.req.messageType ++ leBytes 1 e.req.domain ++ leBytes 4 e.req.cookie ++ zeros 8

/-- TX_STAMP_READ (0x0904): oldest first, removed; OVF and the drop count returned and cleared (R91). -/
def txStampReadSpec : OpSpec :=
  { auth := fun _ => 1
    len := fun _ p => p.payload.length == 4
    run := fun _ p s =>
      let port := fieldByte p.payload 0
      let n := fieldByte p.payload 1
      if 11 < port || n = 0 || 16 < n then fail 0x0014 s
      else
        let q := s.time.stamps.getD port {}
        let out := q.entries.take n
        { status := 0
          result := leBytes 1 out.length ++ leBytes 1 (bitN q.ovf 0) ++ leBytes 2 q.drops ++ (out.map stampBytes).flatten
          state := { s with time.stamps := s.time.stamps.modify port (fun q =>
            { q with entries := q.entries.drop n, ovf := false, drops := 0 }) } } }

/-- TX_STAMP_READ (R91). -/
def execTxStampRead (p : Packet) (s : State) : Host.Outcome State Fault Refusal :=
  .next (processPacket (some txStampReadSpec) { p with opcode := 0x0904 } s)

/-- The settings of a PPS pin in force. -/
def ppsCfgOf (s : State) (target : Nat) : PpsCfg :=
  if target = 2 then s.time.ppsInCfg else (s.time.ppsOut.getD target {}).cfg

/-- PPS_CONFIG result: the payload with the active values. -/
def ppsConfigResult (target op : Nat) (s : State) : List Byte :=
  let c := ppsCfgOf s target
  leBytes 1 target ++ leBytes 1 op ++ leBytes 1 (bitN c.enable 0) ++ leBytes 1 c.polarity ++ leBytes 4 c.width ++
    leInt 4 c.offset ++ leBytes 1 c.labelPort ++ zeros 3

/-- PPS_CONFIG (0x0905). -/
def ppsConfigSpec : OpSpec :=
  { auth := fun p => if fieldByte p.payload 1 = 0 then 0 else 2
    len := fun _ p => p.payload.length == 16
    run := fun _ p s =>
      let b := p.payload
      let target := fieldByte b 0
      let op := fieldByte b 1
      let c : PpsCfg := { enable := fieldByte b 2 = 1, polarity := fieldByte b 3, width := fieldNat b 4 4,
                          offset := fieldInt b 8 4, labelPort := fieldByte b 12 }
      if 1 < op then fail 0x0013 s
      else if 2 < target then fail 0x0014 s
      else if op = 0 then { status := 0, result := ppsConfigResult target op s, state := s }
      else if 1 < fieldByte b 2 || 1 < c.polarity || c.offset < -1000 || 1000 < c.offset
          || (target < 2 && (c.width < 1000 || 500000000 < c.width))
          || (target = 2 && 23 < c.labelPort && c.labelPort ≠ 255) then fail 0x0014 s
      else { status := 1, result := ppsConfigResult target op s, state := defer (.pps target c) s } }

/-- PPS_CONFIG (R94). -/
def execPpsConfig (p : Packet) (s : State) : Host.Outcome State Fault Refusal :=
  .next (processPacket (some ppsConfigSpec) { p with opcode := 0x0905 } s)

/-- A PPS_CONFIG write takes effect; a pulse in progress keeps its width (R83). -/
def applyPps (target : Nat) (c : PpsCfg) (s : State) : State :=
  if target = 2 then { s with time.ppsInCfg := c }
  else { s with time.ppsOut := s.time.ppsOut.modify target (fun p => { p with cfg := c }) }

/-- Time settings come into force (R94): order and reference, PTP, PPS. -/
def timeFrom (g : ImageTime) (s : State) : State :=
  let ports := (List.range 12).map (fun i =>
    let old := s.time.ptp.getD i {}
    ptpReconf (g.clock.clockType ≠ 0) s.mono { old with cfg := g.ports.getD i {} })
  let was := slavePort s
  let lost := fun (s : State) => if was.isSome && (slavePort s).isNone then ptpLost s else s
  applyTimeSource (bitN g.ext10m 0) g.order
    (lost { s with
      time.ptpClock := g.clock
      time.ptp := ports
      time.ppsInCfg := g.ppsIn
      time.ppsOut := [{ s.time.ppsOut.getD 0 {} with cfg := g.ppsA }, { s.time.ppsOut.getD 1 {} with cfg := g.ppsB }] })

/-- The settings of the active image in force (R94): at Boot and at the frame from which a new image applies. -/
def timeFromImage (s : State) : State := timeFrom s.image.time s

/-- Lead time received on the ring (R70, R71, R340): the Lead's transmit time plus the accumulated delays. -/
def consistTime (leadNs : Int) (hops : Nat) (s : State) : State :=
  let off := leadNs - (nowNs s : Int)
  let s := { s with time.hops := hops,
                    time.srcs := s.time.srcs.modify 3 (fun x => { x with since := onset s x.since true }) }
  measureSource 3 off (hearSource 3 s)

/-- The time for which a source's condition has held starts from zero where the source has stopped (R70): no valid solution for
2 s, no pulse for 1.5 s, no Lead time for 30 ms. -/
def restartSilent (s : State) : State :=
  let gone := fun (id ms : Nat) => heldFor s (s.time.srcs.getD id {}).lastGood ms
  let s' := { s with
    time.srcs := s.time.srcs.mapIdx (fun id x =>
      if (id = 0 && gone 0 2000) || (id = 3 && gone 3 30) then { x with since := none } else x) }
  if gone 2 1500 then { s' with time.ppsRun := 0 } else s'

/-- What a tick does to STATE: a slew that has brought the error below 1 µs gives LOCKED (R77); while CONSIST is
selected STATE follows the Lead's (R71); a source that has stopped starts its time afresh, and a pulse waits no longer for
its label (R73). -/
def tickTime (s : State) : State :=
  let s := settlePps (restartSilent s)
  if s.time.slewing || s.time.selected = some 3 then judgeState false s else s

end Sys2Proof.Machine
end

