-- ==== Sys2Proof/Machine/Input.lean ====
section
/-! DEFINITION. Input window, input agreement (chapter 01) and the parsing of records in input gather (chapter 05). The
field layouts of NMEA 0183 sentences and NMEA 2000 messages are the family's own (assumption 25). -/

namespace Sys2Proof

/-- The bytes over which the digest of a set is computed (R29: record count and every record with its fields; the byte
layout of the fields is not printed). Free value; assumption 6. -/
opaque Config.setBytes : List InRecord → List Byte
/-- North, east and down of a geodetic position (latitude, longitude, height) from the work-site origin, the first
argument (R9; formula not printed). Assumption 26. -/
opaque Config.llToNed : V3 → V3 → V3
/-- Degrees of a plane angle of 1 rad, as the lanes hold it. Assumption 25. -/
opaque Config.degPerRad : Qty

namespace Machine

/-! ### Sets (R24 to R29) -/

/-- A record that belongs to the tick set (R24): island samples, servo CAN FD frames, the signal box's tick report. -/
def isTickData : RecData → Bool
  | .slot _ _ | .servoCan _ _ | .sbReport _ _ => true
  | _ => false

/-- Capacity of a set in bytes (R27). -/
def setCap (tick : Bool) : Nat := if tick then 12288 else 131072

/-- Bytes that records take of a set: 20 bytes of record fields each (R27). -/
def setSize (l : List InRecord) : Nat := l.foldl (fun n r => n + r.length + 20) 0

/-- A record put in its place: by arrival stamp, then by link number (R26); a later arrival follows equal ones. -/
def insertRec (r : InRecord) : List InRecord → List InRecord
  | [] => [r]
  | x :: t => if r.stampNs < x.stampNs || (r.stampNs = x.stampNs && r.link < x.link) then r :: x :: t
              else x :: insertRec r t

/-- The end of the window in hand, in ns of module time (R25): ticks and frames are counted from the newest strobe, so that a
step of module time moves the end with it (R19). A window whose strobe has come and whose set is still to be cut ends there. -/
def windowEnd (tick : Bool) (s : State) : Nat :=
  if tick then nowNs s + (if s.tt.strobeDue then 0 else 1000000)
  else nowNs s + (if s.tt.boundaryDue then 0 else (10 - s.tt.tick) * 1000000)

/-- A record dropped (R27): counted, the first of the window logged, and later ones of the window dropped too. -/
def dropRec (tick : Bool) (r : InRecord) (s : State) : State :=
  if tick then
    let s' := { s with tt.tsetDrop := sat 32 (s.tt.tsetDrop + 1), inp.tFull := true }
    if s.inp.tFull then s' else logJ 2 3 (leBytes 1 1 ++ leBytes 2 r.link ++ leBytes 2 r.length) s'
  else
    let s' := { s with tt.fsetDrop := sat 32 (s.tt.fsetDrop + 1), inp.fFull := true }
    if s.inp.fFull then s' else logJ 2 3 (leBytes 1 0 ++ leBytes 2 r.link ++ leBytes 2 r.length) s'

/-- When a record is both stamped and complete. -/
def heldFrom (r : InRecord) : Nat := max r.stampNs r.doneNs

/-- A record added to the set whose window holds it: one stamped at or after the boundary belongs to the next set, and so does
one stamped before it that is still being received then (R25). -/
def addRecord (r : InRecord) (s : State) : State :=
  let tick := isTickData r.data
  if heldFrom r < windowEnd tick s then
    if tick then
      if s.inp.tFull || setCap true < setSize s.inp.tset + r.length + 20 then dropRec true r s
      else { s with inp.tset := insertRec r s.inp.tset }
    else
      if s.inp.fFull || setCap false < setSize s.inp.fset + r.length + 20 then dropRec false r s
      else { s with inp.fset := insertRec r s.inp.fset }
  else if tick then { s with inp.tnext := insertRec r s.inp.tnext }
  else { s with inp.fnext := insertRec r s.inp.fnext }

/-! ### Characters and numbers of sentences -/

/-- A character's byte. -/
def chr (c : Char) : Byte := BitVec.ofNat 8 c.toNat

/-- Bytes of a string. -/
def ascii (t : String) : List Byte := t.toList.map chr

/-- A list split at each byte that is `d`. -/
def splitAt (d : Byte) : List Byte → List (List Byte)
  | [] => [[]]
  | b :: t => match splitAt d t with
    | [] => [[b]]
    | x :: r => if b = d then [] :: x :: r else (b :: x) :: r

/-- The digits of a decimal number, most significant first. -/
def digitsNat (l : List Byte) : Option Nat :=
  if l.isEmpty then none
  else l.foldl (fun a b => match a with
    | none => none
    | some n => if 48 ≤ b.toNat && b.toNat ≤ 57 then some (10 * n + (b.toNat - 48)) else none) (some 0)

/-- A decimal field: sign, digits, and digits after a point. -/
def decimal (l : List Byte) : Option Qty :=
  let neg := l.head? == some (chr '-')
  let l := if neg || l.head? == some (chr '+') then l.drop 1 else l
  let v : Option Qty := match splitAt (chr '.') l with
    | [a] => (digitsNat a).map (fun n => (n : Qty))
    | [a, b] => match digitsNat (if a.isEmpty then [chr '0'] else a), (if b.isEmpty then some 0 else digitsNat b) with
      | some x, some y => some ((x : Qty) + (y : Qty) / ((10 ^ b.length : Nat) : Qty))
      | _, _ => none
    | _ => none
  if neg then v.map (fun x => -x) else v

/-- The value of a hexadecimal digit. -/
def hexDigit (b : Byte) : Option Nat :=
  let n := b.toNat
  if 48 ≤ n && n ≤ 57 then some (n - 48) else if 65 ≤ n && n ≤ 70 then some (n - 55)
  else if 97 ≤ n && n ≤ 102 then some (n - 87) else none

/-- The exclusive-OR of bytes: the NMEA checksum. -/
def xorAll (l : List Byte) : Nat := l.foldl (fun x b => x ^^^ b.toNat) 0

/-- A sentence taken apart: body between the start character and the checksum or line end, and the checksum field. -/
def sentenceParts (bs : List Byte) : List Byte × Option (Option Nat) :=
  let b := (bs.drop 1).filter (fun x => x ≠ 13 && x ≠ 10)
  match splitAt (chr '*') b with
  | [body] => (body, none)
  | [body, [h, l]] => (body, some (match hexDigit h, hexDigit l with
    | some x, some y => some (16 * x + y)
    | _, _ => none))
  | body :: _ => (body, some none)
  | [] => ([], none)

/-- The fields of a sentence; field 0 is the address field. -/
def sentenceFields (bs : List Byte) : List (List Byte) := splitAt (chr ',') (sentenceParts bs).1

/-- Formatter: the last three characters of the address field, of a proprietary sentence too (PRESUMED from the family: the spec
does not say how the address field splits; assumption 109). -/
def formatterOf (bs : List Byte) : List Byte :=
  let a := (sentenceFields bs).headD []
  a.drop (a.length - 3)

/-- Talker: what stands before the formatter (assumption 109). -/
def talkerOf (bs : List Byte) : List Byte :=
  let a := (sentenceFields bs).headD []
  a.take (a.length - 3)

/-- A sentence begins with a dollar sign or an exclamation mark (R126). -/
def isStart (b : Byte) : Bool := b = chr '$' || b = chr '!'

/-- Bytes up to and with the first CR LF, and whether there is one (R126). -/
def untilEnd : List Byte → List Byte × Bool
  | [] => ([], false)
  | b :: t => if b = 13 && t.head? == some 10 then ([13, 10], true)
    else ((b :: (untilEnd t).1), (untilEnd t).2)

/-- Sentences of a datagram or port (R126, R131): each begins with its start character and ends with CR LF; with each, whether
its CR LF has come. -/
def sentencesIn (bs : List Byte) : List (List Byte × Bool) :=
  ((bs.foldr (fun b (acc : List (List Byte)) =>
    if isStart b then [] :: ((b :: acc.headD []) :: acc.tail)
    else (b :: acc.headD []) :: acc.tail) [[]]).filter (fun x => (x.head?.map isStart).getD false)).map untilEnd

/-! ### Discards (R132) -/

/-- Discard causes, numbered in the order of R132 (assumption 27): 0 OVERLENGTH 1 IGNORED 2 INVALID 3 PARSE 4 STALE
5 FUTURE. The internal receiver's link is no port: it has no counts and no record. -/
def discard (link cause : Nat) (s : State) : State :=
  if 45 < link then s else
  let found := s.inp.discards.any (fun d => d.1 == link && d.2.1 == cause)
  let ds := if found then s.inp.discards.map (fun d => if d.1 == link && d.2.1 == cause then (link, cause, sat 32 (d.2.2 + 1)) else d)
            else (link, cause, 1) :: s.inp.discards
  let s := { s with inp.discards := ds }
  if s.inp.discardAt.any (fun d => d.1 == link && d.2.1 == cause && decide (s.mono < d.2.2 + 60000)) then s
  else
    let (cls, port) := if link ≤ 11 then (2, link) else if link ≤ 37 then (0, link - 14) else (1, link - 38)
    let s := logL 5 3 (leBytes 1 cls ++ leBytes 1 port ++ leBytes 1 cause ++ leBytes 4 1) s
    { s with inp.discardAt := (link, cause, s.mono) ::
        s.inp.discardAt.filter (fun d => !(d.1 == link && d.2.1 == cause)) }

/-- A discard counted for a reference or sensor as well (R132). -/
def discardUnit (sensor : Bool) (i : Nat) (s : State) : State :=
  let f : RefUnit → RefUnit := fun u => { u with discards := sat 32 (u.discards + 1) }
  if sensor then { s with ref.sens := s.ref.sens.modify i f } else { s with ref.refs := s.ref.refs.modify i f }

/-- Settings of a reference or sensor: its bindings, in one form. -/
def bindingsOf (s : State) (sensor : Bool) (i : Nat) : List Binding :=
  if sensor then (match s.image.ref.sensors.getD i none with | some c => c.bindings | none => [])
  else (match s.image.ref.refs.getD i none with | some c => c.bindings | none => [])

/-- Type of a reference or sensor (Tables 5-1, 5-2). -/
def kindOf (s : State) (sensor : Bool) (i : Nat) : Nat :=
  if sensor then ((s.image.ref.sensors.getD i none).map (·.kind)).getD 0 else ((s.image.ref.refs.getD i none).map (·.kind)).getD 0

/-- Every reference, then every sensor. -/
def allUnits : List (Bool × Nat) := (List.range 16).map (fun i => (false, i)) ++ (List.range 24).map (fun i => (true, i))

/-- A discard of a port that belongs to no single object: counted for every reference and sensor with a binding that could have
taken the record (R132). -/
def discardBound (link cause : Nat) (takes : Binding → Bool) (s : State) : State :=
  allUnits.foldl (fun s x => if (bindingsOf s x.1 x.2).any (fun b => b.link == link && takes b) then discardUnit x.1 x.2 s else s)
    (discard link cause s)

/-! ### Time tags (R134) -/

/-- Module time in ns of a UTC second count since 1970, by TAI−UTC at that UTC (R69). -/
def tagOfUtc (s : State) (utc : Qty) : Int := roundEven ((utc + (taiUtcAt s utc.floor : Qty)) * 1000000000)

/-- Module time in ns of a UTC time of day, on the date within 12 h of the arrival stamp. -/
def tagOfDay (s : State) (a : Int) (tod : Qty) : Int :=
  let au := (a : Qty) / 1000000000 - (taiUtc s (a / 1000000000).toNat : Qty)
  tagOfUtc s (tod + 86400 * (roundHalf ((au - tod) / 86400) : Qty))

/-- Module time in ns of GPS seconds of the week, in the week within 302,400 s of the arrival stamp: TAI = GPST + 19 s;
the GPS weeks begin at TAI second 315,964,819. -/
def tagOfWeek (a : Int) (sow : Qty) : Int :=
  let base : Qty := 315964819
  let w : Qty := (roundHalf (((a : Qty) / 1000000000 - base - sow) / 604800) : Qty)
  roundEven ((base + 604800 * w + sow) * 1000000000)

/-- Seconds of the day of an hhmmss.ss field. -/
def hms (l : List Byte) : Option Qty :=
  match digitsNat (l.take 2), digitsNat ((l.drop 2).take 2), decimal (l.drop 4) with
  | some h, some m, some x => some ((3600 * h + 60 * m : Nat) + x)
  | _, _, _ => none

/-- A sentence's checksum is right, or absent where the port may do without (R127). -/
def checksumOk (port : PortCfg) (bs : List Byte) : Bool :=
  match (sentenceParts bs).2 with
  | none => port.checksumOptional
  | some none => false
  | some (some c) => c == xorAll (sentenceParts bs).1

/-- The settings of a serial or UDP port. -/
def portOf (s : State) (link : Nat) : PortCfg := (s.image.ref.ports.find? (fun p => p.link == link)).getD { link }

/-- The UTC second that a ZDA sentence gives, in seconds since 1970: time of day, day, month and year (R73, Table 5-3). -/
def zdaUtc (port : PortCfg) (bs : List Byte) : Option Int :=
  let g := fun i => (sentenceFields bs).getD i []
  if formatterOf bs == ascii "ZDA" && checksumOk port bs then
    match hms (g 1), digitsNat (g 2), digitsNat (g 3), digitsNat (g 4) with
    | some t, some d, some m, some y => some (86400 * daysOf y m d + t.floor)
    | _, _, _, _ => none
  else none

/-- A latitude or longitude field ddmm.mm with its hemisphere, degrees. -/
def degMin (l hemi : List Byte) : Option Qty :=
  match decimal l with
  | none => none
  | some v =>
    let d : Qty := ((v / 100).floor : Qty)
    let x := d + (v - 100 * d) / 60
    if hemi == ascii "N" || hemi == ascii "E" then some x
    else if hemi == ascii "S" || hemi == ascii "W" then some (-x)
    else none

/-! ### Decoding (R128 to R130) -/

/-- What decoding gives: values and a tag, or the discard cause. -/
abbrev Decoded := Except Nat (List (Quantity × Qty) × Option Int)

/-- North, east, down of a fix. -/
def fixVals (s : State) (lat lon alt : Qty) (q : Qty) : List (Quantity × Qty) :=
  let p := Config.llToNed s.image.site { x := lat, y := lon, z := alt }
  [(.north, p.x), (.east, p.y), (.down, p.z), (.quality, q)]

/-- The fix quality of a mode indicator of GNS or GLL, in the codes of GGA's quality indicator: that of the best system that has a
fix; 1 where the sentence has none (PRESUMED from the family; assumption 109). -/
def modeQuality (l : List Byte) : Qty :=
  match ([('R', 4), ('F', 5), ('P', 3), ('D', 2), ('A', 1), ('E', 6), ('M', 7), ('S', 8)] : List (Char × Nat)).find?
    (fun x => l.contains (chr x.1)) with
  | some x => (x.2 : Nat)
  | none => 1

/-- Metres per second of one unit of an MWV speed; none where the field names no unit. -/
def speedUnit (l : List Byte) : Option Qty :=
  if l == ascii "K" then some (1000 / 3600) else if l == ascii "N" then some (1852 / 3600)
  else if l == ascii "S" then some (1609344 / 3600000) else if l == ascii "M" then some 1 else none

/-- A sentence of Table 5-3 (field layouts of NMEA 0183; assumption 25). -/
def decodeSentence (s : State) (a : Int) (bs : List Byte) : Decoded :=
  let f := sentenceFields bs
  let g := fun i => f.getD i []
  let fm := formatterOf bs
  if fm == ascii "GGA" then
    match hms (g 1), degMin (g 2) (g 3), degMin (g 4) (g 5), decimal (g 6) with
    | some t, some la, some lo, some q =>
      if q = 0 then .error 2 else .ok (fixVals s la lo ((decimal (g 9)).getD 0) q, some (tagOfDay s a t))
    | _, _, _, _ => .error 2
  else if fm == ascii "GNS" then
    match hms (g 1), degMin (g 2) (g 3), degMin (g 4) (g 5) with
    | some t, some la, some lo =>
      if (g 6).isEmpty || (g 6).all (fun c => c = chr 'N') then .error 2
      else .ok (fixVals s la lo ((decimal (g 9)).getD 0) (modeQuality (g 6)), some (tagOfDay s a t))
    | _, _, _ => .error 2
  else if fm == ascii "GLL" then
    match hms (g 5), degMin (g 1) (g 2), degMin (g 3) (g 4) with
    | some t, some la, some lo =>
      if (g 6).isEmpty || g 6 == ascii "V" || g 7 == ascii "N" then .error 2 else .ok (fixVals s la lo 0 (modeQuality (g 7)), some (tagOfDay s a t))
    | _, _, _ => .error 2
  else if fm == ascii "HDT" then
    match decimal (g 1) with
    | some h => .ok ([(.heading, wrap360 h)], none)
    | none => .error 2
  else if fm == ascii "THS" then
    match decimal (g 1) with
    | some h => if (g 2).isEmpty || g 2 == ascii "V" then .error 2 else .ok ([(.heading, wrap360 h)], none)
    | none => .error 2
  else if fm == ascii "ROT" then
    match decimal (g 1) with
    | some r => if (g 2).isEmpty || g 2 == ascii "V" then .error 2 else .ok ([(.rateOfTurn, r / 60)], none)
    | none => .error 2
  else if fm == ascii "MWV" then
    match decimal (g 1), decimal (g 3), speedUnit (g 4) with
    | some d, some v, some k =>
      if g 2 != ascii "R" || (g 5).isEmpty || g 5 == ascii "V" then .error 2
      else .ok ([(.windSpeed, v * k), (.windDir, wrap360 d)], none)
    | _, _, _ => .error 2
  else .error 1

/-- A sentence of Table 5-3 serves an object of its type (Tables 5-1, 5-2, 5-3). -/
def sentenceFits (sensor : Bool) (kind : Nat) (fm : List Byte) : Bool :=
  if sensor then
    (kind == 0 && (fm == ascii "HDT" || fm == ascii "THS" || fm == ascii "ROT")) || (kind == 2 && fm == ascii "MWV")
  else kind == 1 && (fm == ascii "GGA" || fm == ascii "GNS" || fm == ascii "GLL")

/-- A PGN of Table 5-4 serves an object of its type (Tables 5-1, 5-2, 5-4). -/
def pgnFits (sensor : Bool) (kind pgn : Nat) : Bool :=
  if sensor then (kind == 0 && (pgn == 127250 || pgn == 127251)) || (kind == 1 && pgn == 127257) || (kind == 2 && pgn == 130306)
  else kind == 1 && (pgn == 129025 || pgn == 129029)

/-- A mapped value as its quantity holds it: a heading, and a direction from the bow, in 0° to less than 360° (R10). -/
def mappedVal (q : Quantity) (y : Qty) : Qty :=
  match q with
  | .heading | .windDir => wrap360 y
  | _ => y

/-- A sentence decoded by a field map (R129): a missing field is PARSE, a status outside the valid characters INVALID. -/
def decodeMapped (s : State) (a : Int) (map : List FieldMap) (bs : List Byte) : Decoded :=
  let f := sentenceFields bs
  map.foldl (fun (acc : Decoded) m => match acc with
    | .error c => .error c
    | .ok (vals, tag) =>
      let x := f.getD m.index []
      if x.isEmpty then .error 3
      else match m.quantity with
        | .status => if x.all (fun c => m.validChars.contains c) then .ok (vals, tag) else .error 2
        | .utcTime => match hms x with
          | some t => .ok (vals, some (tagOfDay s a t))
          | none => .error 3
        | q => match decimal x with
          | none => .error 3
          | some v =>
            let y := v * m.scale + m.offset
            match q with
            | .secOfDay => .ok (vals, some (tagOfDay s a y))
            | .gpsWeekSec => .ok (vals, some (tagOfWeek a y))
            | _ => .ok (vals ++ [(q, mappedVal q y)], tag)) (.ok ([], none))

/-- A PGN of Table 5-4 (field layouts of NMEA 2000; assumption 25). -/
def decodePgn (s : State) (pgn : Nat) (d : List Byte) : Decoded :=
  let k := Config.degPerRad
  if pgn = 127250 then
    let h := fieldNat d 1 2
    if h = 0xFFFF then .error 2
    else if fieldNat d 3 2 ≠ 0x7FFF || fieldNat d 5 2 ≠ 0x7FFF then .error 2
    else .ok ([(.heading, wrap360 ((h : Qty) / 10000 * k))], none)
  else if pgn = 127251 then
    if fieldNat d 1 4 = 0x7FFFFFFF then .error 2
    else .ok ([(.rateOfTurn, (fieldInt d 1 4 : Qty) / 32000000 * k)], none)
  else if pgn = 127257 then
    if fieldNat d 3 2 = 0x7FFF || fieldNat d 5 2 = 0x7FFF then .error 2
    else .ok ([(.pitch, (fieldInt d 3 2 : Qty) / 10000 * k), (.roll, (fieldInt d 5 2 : Qty) / 10000 * k)], none)
  else if pgn = 129025 then
    if fieldNat d 0 4 = 0x7FFFFFFF || fieldNat d 4 4 = 0x7FFFFFFF then .error 2
    else .ok (fixVals s ((fieldInt d 0 4 : Qty) / 10000000) ((fieldInt d 4 4 : Qty) / 10000000) 0 1, none)
  else if pgn = 129029 then
    let day := fieldNat d 1 2
    let tod := fieldNat d 3 4
    if day = 0xFFFF || tod = 0xFFFFFFFF || fieldNat d 7 8 = 0x7FFFFFFFFFFFFFFF then .error 2
    else
      let utc : Qty := (day * 86400 : Nat) + (tod : Qty) / 10000
      let tag := tagOfUtc s utc
      let sc : Qty := 1 / 10000000000000000
      .ok (fixVals s ((fieldInt d 7 8 : Qty) * sc) ((fieldInt d 15 8 : Qty) * sc) ((fieldInt d 23 8 : Qty) / 1000000)
            ((fieldByte d 31 / 16 : Nat) : Qty), some tag)
  else if pgn = 130306 then
    if fieldNat d 1 2 = 0xFFFF || fieldNat d 3 2 = 0xFFFF || fieldByte d 5 % 8 ≠ 2 then .error 2
    else .ok ([(.windSpeed, (fieldNat d 1 2 : Qty) / 100), (.windDir, wrap360 ((fieldNat d 3 2 : Qty) / 10000 * k))], none)
  else .error 1

/-! ### Routing (R127, R130) -/

/-- A reference or sensor in its list. -/
def unitOf (s : State) (sensor : Bool) (i : Nat) : RefUnit :=
  if sensor then s.ref.sens.getD i {} else s.ref.refs.getD i {}

/-- A reference or sensor changed. -/
def onUnit (sensor : Bool) (i : Nat) (f : RefUnit → RefUnit) (s : State) : State :=
  if sensor then { s with ref.sens := s.ref.sens.modify i f } else { s with ref.refs := s.ref.refs.modify i f }

/-- A binding takes a sentence of a link. -/
def takesSentence (b : Binding) (link : Nat) (bs : List Byte) : Bool :=
  b.link == link && b.formatter == formatterOf bs &&
    (match b.talker with | none => true | some t => t == talkerOf bs) &&
    (match b.fieldCond with | none => true | some (i, v) => (sentenceFields bs).getD i [] == v)

/-- An object takes records: enabled, or disabled at this boundary with its last gathered set (R62, R158). -/
def takesRecords (s : State) (sensor : Bool) (i : Nat) : Bool := (unitOf s sensor i).enabled || (unitOf s sensor i).dropEnd

/-- A parsed record joined to this frame's list for one reference or sensor, through its binding `k`; a disabled one ignores it
(R158). -/
def deliverParsed (sensor : Bool) (i link k : Nat) (b : Binding) (a : Int) (d : Decoded) (s : State) : State :=
  if !takesRecords s sensor i then discardUnit sensor i (discard link 1 s)
  else match d with
    | .error c => discardUnit sensor i (discard link c s)
    | .ok (vals, tag) =>
      let p : Parsed := { sensor, index := i, bind := k, vals, arrival := a, tag := if b.tagged then tag else none,
                          latency := b.latencyNs, lambdaMin := b.lambdaMinNs, link }
      { s with inp.parsed := s.inp.parsed ++ [p] }

/-- Every binding that takes a record, with its object and its number. -/
def bindingsTaking (s : State) (takes : Bool → Nat → Binding → Bool) : List (Bool × Nat × Nat × Binding) :=
  (allUnits.map (fun (x : Bool × Nat) => (((bindingsOf s x.1 x.2).zipIdx).filter (fun b => takes x.1 x.2 b.1)).map
    (fun b => (x.1, x.2, b.2, b.1)))).flatten

/-- The port whose ZDA sentences label PPS-IN pulses (R73): such a sentence matches no binding and is a discard only
with an empty field (R128). -/
def isLabelPort (s : State) (link : Nat) : Bool :=
  s.time.ppsInCfg.labelPort ≠ 255 && link == 14 + s.time.ppsInCfg.labelPort

/-- A sentence of a port (R126 to R129): length, checksum, filters, routing. A sentence refused for its checksum or by a
filter is discarded without a count (assumption 27). An empty filter lets every talker or formatter pass: the "any" of R127 (DESIGN
CHOICE for the sentence filter, of which the spec does not say what an empty one does; assumption 104). -/
def parseSentence (link : Nat) (a : Int) (x : List Byte × Bool) (s : State) : State :=
  let port := portOf s link
  let bs := x.1
  if 256 < bs.length || (!x.2 && bs.length = 256) then discardBound link 0 (fun _ => true) s
  else if !x.2 then s
  else
    let pass := (port.talkers.isEmpty || port.talkers.contains (talkerOf bs)) &&
      (port.formatters.isEmpty || port.formatters.contains (formatterOf bs))
    if !checksumOk port bs || !pass then s
    else
      let hits := bindingsTaking s (fun _ _ b => takesSentence b link bs)
      if hits.isEmpty then
        (if formatterOf bs == ascii "ZDA" && isLabelPort s link then (if (zdaUtc port bs).isNone then discard link 2 s else s)
         else discard link 1 s)
      else hits.foldl (fun s h => deliverParsed h.1 h.2.1 link h.2.2.1 h.2.2.2 a
        (if !h.2.2.2.map.isEmpty then decodeMapped s a h.2.2.2.map bs
         else if sentenceFits h.1 (kindOf s h.1 h.2.1) (formatterOf bs) then decodeSentence s a bs else .error 1) s) s

/-- A whole NMEA 2000 message (R130). PGN 126992 is counted only: as IGNORED of its port (DESIGN CHOICE, assumption 104: the spec
names no count). A PGN that serves no object bound to its source is not taken. -/
def parsePgn (link src pgn : Nat) (a : Int) (d : List Byte) (s : State) : State :=
  let hits := bindingsTaking s (fun sn i b => b.link == link && b.canSources.contains src && pgnFits sn (kindOf s sn i) pgn)
  if pgn = 126992 then discard link 1 s
  else hits.foldl (fun s h => deliverParsed h.1 h.2.1 link h.2.2.1 h.2.2.2 a (decodePgn s pgn d) s) s

/-- A fast packet lost (R130): PARSE, counted for the port and for every object bound to its source (R132). -/
def dropFast (link src : Nat) (s : State) : State := discardBound link 3 (fun b => b.canSources.contains src) s

/-- A CAN FD frame: a single frame of at most 8 bytes, or one frame of a fast packet; the message's stamp is that of its
first frame; a missing or out-of-order frame discards it (R130). -/
def parseCan (link stamp pgn src frameIndex total : Nat) (data : List Byte) (s : State) : State :=
  if total ≤ 8 then parsePgn link src pgn stamp (data.take total) s
  else
    let same := fun (x : FastPkt) => x.link == link && x.src == src && x.pgn == pgn
    let old := s.inp.fast.find? same
    let rest := s.inp.fast.filter (fun x => !same x)
    if frameIndex = 0 then
      let s := if old.isSome then dropFast link src s else s
      { s with inp.fast := rest ++ [{ link, src, pgn, total, next := 1, data := data.take 6, stamp, since := s.mono }] }
    else match old with
      | none => dropFast link src s
      | some x =>
        if x.next ≠ frameIndex then dropFast link src { s with inp.fast := rest }
        else
          let d := x.data ++ data.take 7
          if x.total ≤ d.length then parsePgn link src pgn x.stamp (d.take x.total) { s with inp.fast := rest }
          else { s with inp.fast := rest ++ [{ x with next := frameIndex + 1, data := d }] }

/-- The quality of an epoch's position (Table 5-1, R111, R166). -/
def fixOf (e : EpochRes) : FixInfo :=
  { sigmaN := e.sigmaN, sigmaE := e.sigmaE, rhoNE := e.rhoNE, degraded := e.effect == 1, antB := e.antenna == 1 }

/-- An internal epoch given to one internal GNSS reference (R111, R158, Table 5-10): a disabled reference ignores it; an epoch
that is WITHHELD, or that a silent receiver gives, delivers no position, counts a missed update and puts the reference in WITHHELD. -/
def takeEpochAt (e : EpochRes) (withheld : Bool) (stamp : Int) (s : State) (i : Nat) : State :=
  if !takesRecords s false i then discardUnit false i s
  else if withheld then
    onUnit false i (fun u => { u with missed := sat 32 (u.missed + 1), lastMiss := s.mono,
                                      state := if u.enabled then .withheld else u.state }) s
  else if e.svUsed = 0 then s
  else
    let p : Parsed := { index := i, vals := [(Quantity.north, e.ned.x), (.east, e.ned.y), (.down, e.ned.z)], arrival := stamp,
                        tag := some stamp, internal := true, fix := some (fixOf e) }
    { s with inp.parsed := s.inp.parsed ++ [p] }

/-- The internal receiver gives no position (R119, R122): it is OFF, or its hot fix failed and it has no solution yet. -/
def gnssSilent (s : State) : Bool := s.gnss.sel == 0 || s.gnss.mode == 0 || s.gnss.hotfixFailed

/-- One record of a frame set parsed (R28, R124, R126 to R131). The internal receiver's epoch goes to every internal
GNSS reference (type 0). -/
def parseRecord (s : State) (r : InRecord) : State :=
  match r.data with
  | .sentence bs => (sentencesIn bs).foldl (fun s x => parseSentence r.link r.stampNs x s) s
  | .can pgn src fi total d => parseCan r.link r.stampNs pgn src fi total d s
  | .packet p => { s with inp.packets := s.inp.packets ++ [p] }
  | .rtcm b => if s.image.gnss.corrLink = some r.link then { s with gnss.corrQ := s.gnss.corrQ ++ [b] } else s
  | .epoch _ =>
    match s.gnss.blocks.find? (fun b => b.1 == r.stampNs) with
    | none => s
    | some (_, e) =>
      let s := { s with gnss.held := ({ e with tv := (r.stampNs : Int) } :: s.gnss.held).take 4,
                        gnss.blocks := s.gnss.blocks.filter (fun b => decide (r.stampNs < b.1)) }
      ((List.range 16).filter (fun i => match s.image.ref.refs.getD i none with
        | some c => c.kind == 0
        | none => false)).foldl (takeEpochAt e (e.effect == 2 || gnssSilent s) r.stampNs) s
  | _ => s

/-! ### Input agreement (R29 to R31) -/

/-- What a set's digests lead to. -/
inductive Agree where
  | use (redeliver : Option Lane) (target : Nat)
  | noMajority
deriving DecidableEq, Repr

/-- Table 1-5 and R333: `dig` gives a lane's digest, `jx` the junction digest. -/
def agreeSet (lanes : List Lane) (dig : Lane → Nat) (jx : Nat) : Agree :=
  match lanes with
  | [x, y, z] =>
    if dig x = dig y then (if dig z = dig x then .use none (dig x) else .use (some z) (dig x))
    else if dig x = dig z then .use (some y) (dig x)
    else if dig y = dig z then .use (some x) (dig y)
    else .noMajority
  | [x, y] =>
    if dig x = dig y then .use none (dig x)
    else if dig x = jx then .use (some y) jx
    else if dig y = jx then .use (some x) jx
    else .noMajority
  | [x] => if dig x = jx then .use none jx else .use (some x) jx
  | _ => .use none jx

/-- A lane's digest of a set: the junction digest, altered where the lane's copy is. -/
def laneDigest (jx : Nat) (err : Lane3 Nat) (l : Lane) : Nat := jx ^^^ err.get l

/-- Input agreement on a set (R29 to R31): the state with the request for a re-delivery or the no-majority event, and
whether the set is used. -/
def agreeOn (kind : SetKind) (jx : Nat) (err : Lane3 Nat) (s : State) : Bool × State :=
  match agreeSet (serving s) (laneDigest jx err) jx with
  | .use none _ =>
    (true, match kind with
      | .frame => { s with inp.fNoMaj := 0 }
      | .tick => { s with inp.tNoMaj := 0 })
  | .use (some l) target =>
    let s := { s with inp.redeliv := s.inp.redeliv.filter (fun (r : Redeliv) => !(r.lane == l && r.kind == kind)) ++
        [({ lane := l, kind, accept := target, first := laneDigest jx err l } : Redeliv)] }
    (true, match kind with
      | .frame => { s with inp.fNoMaj := 0 }
      | .tick => { s with inp.tNoMaj := 0 })
  | .noMajority =>
    let d := lanesAll.map (fun l => leBytes 8 (if inService s l then laneDigest jx err l else 0))
    let s := logL 2 4 (leBytes 1 (if kind == .frame then 0 else 1) ++ d.flatten) s
    (false, match kind with
      | .frame => { s with inp.fNoMaj := s.inp.fNoMaj + 1 }
      | .tick => { s with inp.tNoMaj := s.inp.tNoMaj + 1 })

/-! ### Commands -/

/-- A record that a serial, CAN FD or Ethernet link brings as it stands. The others are made inside the block by the
commands that stand for their arrival: GNSS_EPOCH, COMMAND_DATAGRAM, QUEUE_DOORBELL, RING_MESSAGE, UPSTREAM_SLOT,
SB_COMMAND_SET. -/
def arrivesWhole : RecData → Bool
  | .sentence _ | .can _ _ _ _ _ | .servoCan _ _ | .rtcm _ => true
  | _ => false

/-- The ingress latency of an Ethernet link's external PHY, which is added to its receive stamps (R88). -/
def ingress (s : State) (link : Nat) : Nat := if link ≤ 11 then (s.time.ptp.getD link {}).cfg.ingress else 0

/-- A record stamped on arrival (R88, R92): with the ingress latency, and the quality byte of this instant. -/
def stamped (s : State) (r : InRecord) : InRecord :=
  { r with stampNs := r.stampNs + ingress s r.link, quality := qualityByte s }

/-- What a port that discards lets through (R126): nothing up to the next start character. -/
def afterSkip (s : State) (r : InRecord) : Option InRecord :=
  match r.data with
  | .sentence bs =>
    if s.inp.portSkip.contains r.link then
      let rest := bs.dropWhile (fun b => !isStart b)
      if rest.isEmpty then none else some { r with data := .sentence rest, length := rest.length }
    else some r
  | _ => some r

/-- A record that comes in on a port (R25 to R27, R73, R126): the port's discarding ends at a start character; a ZDA sentence
labels a pulse; the record joins its set. -/
def takeRecord (r : InRecord) (s : State) : State :=
  match afterSkip s r with
  | none => s
  | some r =>
    let s := match r.data with
      | .sentence bs =>
        let s := { s with inp.portSkip := s.inp.portSkip.filter (fun l => l != r.link) }
        match zdaUtc (portOf s r.link) bs with
        | none => s
        | some utc => labelPps r.link utc r.doneNs s
      | _ => s
    addRecord r s

/-- RECORD_ARRIVAL (R25 to R27, R73, R92): a whole record joins the set whose window holds it. The junction die takes
records while its time base runs and the receiving block works (R335). -/
def execRecordArrival (r : InRecord) (s : State) : Host.Outcome State Fault Refusal :=
  .next (if !junctionUp s || !s.time.running || !arrivesWhole r.data || !linkWorks s r.link then s
  else takeRecord (stamped s r) s)

/-- REDELIVERY (R30): the lane's second copy is accepted or the lane leaves service. -/
def execRedelivery (kind : SetKind) (lane : Lane) (err : Nat) (complete : Bool) (s : State) : Host.Outcome State Fault Refusal :=
  .next (match s.inp.redeliv.find? (fun r => r.lane == lane && r.kind == kind) with
  | none => s
  | some r =>
    let jx := match kind with
      | .frame => s.inp.fdig
      | .tick => s.inp.tdig
    let copy := jx ^^^ err
    let s := { s with inp.redeliv := s.inp.redeliv.filter (fun x => !(x.lane == lane && x.kind == kind)) }
    let k := leBytes 1 (if kind == .frame then 0 else 1)
    if complete && copy == r.accept then
      logLMask 2 5 (2 ^ lane.num) (k ++ leBytes 8 r.accept ++ leBytes 8 r.first) s
    else
      laneFault lane 1 (logLMask 2 5 (2 ^ lane.num) (k ++ leBytes 8 0 ++ leBytes 8 (if complete then copy else r.first)) s))

/-- JUNCTION_INPUT_PATH_FAULT (R31, Table 11-3): three consecutive sets of a kind without a majority. -/
def execJunctionInputPathFault (kind : SetKind) (s : State) : Host.Outcome State Fault Refusal :=
  let n := match kind with
    | .frame => s.inp.fNoMaj
    | .tick => s.inp.tNoMaj
  .next (if 3 ≤ n then fallSilent s else s)

/-- INPUT_GATHER (R29 to R31, R126 to R132): activity 0. -/
def execInputGather (copyErr : Lane3 Nat) (s : State) : Host.Outcome State Fault Refusal :=
  .next (if mayRun 0 s then
    let (ok, s) := agreeOn .frame s.inp.fdig copyErr s
    let s := { s with inp.parsed := [], inp.noSet := !ok }
    completeAct 0 (if ok then s.inp.fcur.foldl parseRecord s else s)
  else s)

/-- FAST_PACKET_TIMEOUT (R130): incomplete for 750 ms. -/
def execFastPacketTimeout (link src pgn : Nat) (s : State) : Host.Outcome State Fault Refusal :=
  .next (if s.inp.fast.any (fun x => x.link == link && x.src == src && x.pgn == pgn && decide (x.since + 750 ≤ s.mono)) then
    dropFast link src { s with inp.fast := s.inp.fast.filter (fun x => !(x.link == link && x.src == src && x.pgn == pgn)) }
  else s)

/-- SENTENCE_OVERLENGTH (R126): the 256th byte came without CR LF; the port then discards until a start character. -/
def execSentenceOverlength (link : Nat) (s : State) : Host.Outcome State Fault Refusal :=
  .next (if !junctionUp s then s
  else discardBound link 0 (fun _ => true) { s with inp.portSkip := link :: s.inp.portSkip.filter (fun l => l != link) })

end Machine
end Sys2Proof
end

