-- ==== Sys2Proof/Machine/Channels.lean ====
section
/-! DEFINITION. Process channels (chapter 09): the islands' own behaviour at apply markers, samples and decimation
outputs, what the lanes make of the upstream slots, HART, the compliance check, and the opcodes of R299. -/

namespace Sys2Proof.Machine

/-- raw_lo and raw_hi of an input in mode 5 or 6 (R278 gives them for current channels only). Free value; assumption 40. -/
opaque Config.rawRange : Nat → Qty × Qty
/-- What a channel's factory calibration makes of a raw measurement: channel, mode, raw value (R279; the factory record's content
is not printed). Free value; assumption 4. -/
opaque Config.factoryCal : Nat → Nat → Int → Qty
/-- The data that configures an island, as it goes on the island link (R60: longer than 6 bytes goes on in later ticks; layout not
printed). Free value; assumption 101. -/
opaque Config.cfgWire : ChanCfg → List Byte
/-- The content of a HART frame to be sent: preambles and transaction (HART 7's layout is not printed). Free value;
assumption 106. -/
opaque Config.hartFrame : Nat → HartJob → List Byte
/-- The span of the offset trim in modes 6 and 7, in mHz or µV (R279 gives a share of a span that Table 9-1 does not give them). Free
value; assumption 4. -/
opaque Config.trimSpan : Nat → Qty
/-- The bytes of a HART frame as received (HART 7's layout is not printed). Free value; assumption 106. -/
opaque Config.hartWire : HartFrame → List Byte
/-- One step of a first-order filter: old value, input, step time and time constant in s (the discrete form is not
printed). Free value; assumption 43. -/
opaque Config.filterStep : Qty → Qty → Qty → Qty → Qty
/-- The quantity that a CAN FD frame template of the image reads from a servo frame's value. Free value; assumption 46. -/
opaque Config.canTemplate : Nat → Int → Qty

/-! ### Codes, currents, characteristics (R278 to R280) -/

/-- Current outputs (Table 9-1). -/
def isOut (c : ChanCfg) : Bool := c.mode == 1 || c.mode == 2

/-- Inputs (Table 9-1). -/
def isIn (c : ChanCfg) : Bool := decide (3 ≤ c.mode) && decide (c.mode ≤ 7)

/-- Setpoint code of NE 43 (R280). -/
def alarmCode (c : ChanCfg) : Nat := if c.alarmHigh then 43000 else 7200

/-- The current of a setpoint code, nA (0.5 µA a code). -/
def codeNa (code : Nat) : Int := 500 * (code : Int)

/-- The vote window in codes (R272). -/
def voteWindow : Nat := 16

/-- The readback window in nA: hundredths of a per cent of the 16 mA span (R274). -/
def rbWindowNa (c : ChanCfg) : Int := 1600 * (c.rbWindow : Int)

/-- A TABLE characteristic at x: 33 values at x = k/32, extended along the end segments (R278). -/
def tableAt (y : List Qty) (x : Qty) : Qty :=
  let k := clampI 0 31 (x * 32).floor
  let a := y.getD k.toNat 0
  let b := y.getD (k.toNat + 1) 0
  a + (b - a) * (x * 32 - k)

/-- f of R278. -/
def charF (c : CharCfg) (x : Qty) : Qty :=
  match c.kind with
  | 0 => x
  | 1 => if x < c.cutoff || x < 0 then 0 else Config.sqrt x
  | _ => tableAt c.table x

/-- The inverse of f for an output: a TABLE's segment that holds the value (R278). -/
def charInv (c : CharCfg) (v : Qty) : Qty :=
  if c.kind = 2 then
    let k := ((List.range 32).find? (fun k => decide (v ≤ c.table.getD (k + 1) 0))).getD 31
    let a := c.table.getD k 0
    let b := c.table.getD (k + 1) 0
    ((k : Qty) + divQ (v - a) (b - a)) / 32
  else v

/-- The normalised value of a raw one (R278); the two states of a digital input are the ends of its range (DESIGN CHOICE;
assumption 40). -/
def normRaw (c : ChanCfg) (raw : Int) : Qty :=
  if c.mode = 3 || c.mode = 4 || isOut c then
    divQ ((raw : Qty) - (codeNa c.iLo : Qty)) ((codeNa c.iHi - codeNa c.iLo : Int) : Qty)
  else if c.mode = 7 then (raw : Qty)
  else
    let (lo, hi) := Config.rawRange c.mode
    divQ ((raw : Qty) - lo) (hi - lo)

/-- The engineering value of an input's raw value (R278). -/
def engOf (c : ChanCfg) (raw : Int) : Qty :=
  Config.f32 (c.charac.engLo + (c.charac.engHi - c.charac.engLo) * charF c.charac (normRaw c raw))

/-- The setpoint code of a loop command (R278). -/
def codeOf (c : ChanCfg) (cmd : Qty) : Nat :=
  let v := divQ (cmd - c.charac.cLo) (c.charac.cHi - c.charac.cLo)
  (clampI 0 48000 (roundEven ((c.iLo : Qty) + charInv c.charac v * ((c.iHi : Qty) - c.iLo)))).toNat

/-- The loop command that a current amounts to (R278, the other way). -/
def cmdOf (c : ChanCfg) (na : Int) : Qty :=
  c.charac.cLo + charF c.charac (normRaw c na) * (c.charac.cHi - c.charac.cLo)

/-- The zero-thrust value of a channel (R278, R63). -/
def zeroCode (c : ChanCfg) : Nat := codeOf c 0

/-- I_b of a channel as a code (R285, Table 9-12). -/
def budgetCode (c : ChanCfg) : Nat := if c.iBudget = 0 then max c.iHi (alarmCode c) else c.iBudget

/-- Unsettled outputs by depth (Table 9-10). -/
def unsettledN (d : Nat) : Nat := if d = 0 then 4 else if d = 1 then 5 else 6

/-! ### What the lanes know of a channel -/

/-- A flag of the newest upstream slot. -/
def upFlag (i : Isl) (b : Nat) : Bool := i.up.flagsA.testBit b

/-- FLD_LOW of a channel (R262). -/
def chanFldLow (s : State) (i : Isl) : Bool := s.pow.fldLow && (i.cfg.mode == 2 || i.cfg.mode == 3)

/-- NE 43 class of a current in nA (Table 9-7). -/
def ne43 (na : Int) : Nat :=
  if na < 3600000 then 3 else if na < 3800000 then 1 else if na ≤ 20500000 then 0 else if na ≤ 21000000 then 2 else 4

/-- The class of a channel's newest value, 255 not classified (R282). -/
def classOf (c : ChanCfg) (value : Int) : Nat := if (c.mode = 3 || c.mode = 4) && c.ne43 then ne43 value else 255

/-- The channel is in OVERLOAD, FAULT, LINK_FAULT, or its newest output is unsettled (Table 9-11, any role). -/
def faultAny (i : Isl) : Bool :=
  i.linkFault || i.up.state == 8 || upFlag i 6 || decide (0 < i.up.unsettled)

/-- Faulted for its role as an input (Table 9-11). -/
def faultIn (s : State) (i : Isl) : Bool :=
  faultAny i || classOf i.cfg i.up.value == 3 || classOf i.cfg i.up.value == 4 || (i.cfg.mode == 3 && chanFldLow s i)

/-- Faulted for its role as a command output (Table 9-11). -/
def faultOut (s : State) (i : Isl) : Bool :=
  faultAny i || upFlag i 0 || upFlag i 4 || upFlag i 1 || upFlag i 2 || (i.cfg.mode == 2 && chanFldLow s i)

/-- Faulted (R298). -/
def chanFaulted (s : State) (i : Isl) : Bool :=
  if isOut i.cfg then faultOut s i else if isIn i.cfg then faultIn s i || i.md.any (·.missing) else faultAny i

/-- Engineering value of an input channel in the newest tick set. -/
def chanEng (s : State) (ch : Nat) : Qty := engOf (chanOf s ch).cfg (chanOf s ch).up.value

/-- The delivered command of an output channel in the newest tick set. -/
def chanDelivered (s : State) (ch : Nat) : Qty := cmdOf (chanOf s ch).cfg (chanOf s ch).up.readback

/-- The value of an input that the image assigns to a process channel (0 to 127) or to CAN FD template n − 128. -/
def inputEng (s : State) (n : Nat) : Qty :=
  if n < 128 then chanEng s n
  else Config.canTemplate (n - 128) (((s.inp.canIn.find? (fun c => c.1 == n - 128)).map (·.2.1)).getD 0)

/-- A digital input that the image assigns in the same way is true: a channel in mode 7 by its state, any other by its value. -/
def inputOn (s : State) (n : Nat) : Bool :=
  if n < 128 && (chanOf s n).cfg.mode == 7 then (chanOf s n).up.value != 0 else inputEng s n != 0

/-- Such an input is faulted, or older than `ms`. -/
def inputFaulted (s : State) (n ms : Nat) : Bool :=
  if n < 128 then chanFaulted s (chanOf s n) || decide (ms < (chanOf s n).upMiss)
  else match s.inp.canIn.find? (fun c => c.1 == n - 128) with
    | none => true
    | some (_, _, t) => decide (t + ms < s.mono)

/-- A channel serves something: bound in the image, or the pulse source of an axis (R299). -/
def chanBound (s : State) (ch : Nat) : Bool :=
  (chanOf s ch).cfg.role != .unbound || s.ctl.axes.any (fun a => a.pulse && a.pulseCh == ch)

/-- CHAN_STATUS flags (Table 9-13). -/
def chanFlags (s : State) (i : Isl) : Nat :=
  bitN (upFlag i 0) 0 + bitN (upFlag i 1) 1 + bitN (upFlag i 2) 2 + bitN (upFlag i 3) 3 + bitN (upFlag i 4) 4 +
    bitN (upFlag i 5) 5 + bitN (upFlag i 6) 6 + bitN (decide (0 < i.up.unsettled)) 7 + bitN i.linkFault 8 +
    bitN (chanFaulted s i) 9 + bitN (i.cfgNext.isSome && !i.resetDue) 10 + bitN i.split 11 + bitN i.single 12 + bitN i.noPulse 13 +
    bitN (chanFldLow s i) 14 + bitN i.capTimeout 15

/-- The lanes' judgement of one channel after a tick set: each change of fault state is logged and asserts vector 37, at
most once per frame per channel (R298); a HOLD record is logged when it is delivered (R267). -/
def judgeChan (ch : Nat) (s : State) : State :=
  let i := chanOf s ch
  let f := chanFaulted s i
  let s := if f = i.faulted then s
    else
      let s := logL 9 1 (leBytes 1 ch ++ leBytes 2 (chanFlags s i) ++ leBytes 1 (if f then 1 else 0))
        (onIsl ch (fun i => { i with faulted := f }) s)
      assertVecFrame 37 (100 + ch) s
  if i.holdPending && i.up.flagsB.testBit 6 && i.upMiss = 0 then
    logL 9 2 (leBytes 1 ch ++ leBytes 1 i.holdRec ++ leBytes 2 i.holdV) (onIsl ch (fun i => { i with holdPending := false }) s)
  else s

/-- Outputs since the last restart of the chain, as a slot lets the lanes count them (Table 9-4, Table 9-14): the unsettled field gives
the number of the newest output, and the count those after it. -/
def outputsSeen (c : ChanCfg) (u : UpSlot) (before : Nat) : Nat :=
  if u.unsettled = 0 then sat 32 (before + u.count)
  else if u.count = 0 then min before (unsettledN c.depth + 1 - u.unsettled)
  else unsettledN c.depth + 1 - u.unsettled

/-- The lanes read the upstream slots of a tick set (R271): a channel without a valid one has no data for the tick. -/
def readSlots (set : List InRecord) (s : State) : State :=
  let got := set.filterMap (fun r => match r.data with
    | .slot ch u => some (ch, u, r.quality)
    | _ => none)
  let s := { s with isl := s.isl.mapIdx (fun ch i =>
    match got.find? (fun g => g.1 == ch) with
    | some (_, u, q) =>
      { i with up := u, upQual := q, upMiss := 0, linkFault := false, cls := classOf i.cfg u.value,
               outSeen := outputsSeen i.cfg u i.outSeen }
    | none => { i with upMiss := i.upMiss + 1, linkErrors := sat 32 (i.linkErrors + 1) }) }
  (List.range 128).foldl (fun s ch => judgeChan ch s) s

/-- LINK_FAULT (R271): the third consecutive tick without data. -/
def execLinkFault (ch : Nat) (s : State) : Host.Outcome State Fault Refusal :=
  let i := chanOf s ch
  .next (if lanesRun s && decide (3 ≤ i.upMiss) && !i.linkFault then judgeChan ch (onIsl ch (fun i => { i with linkFault := true }) s) else s)

/-! ### The island -/

/-- The islands have power and their links run (Table 15-4). -/
def islandsUp (s : State) : Bool :=
  match s.pow.state with
  | .boot | .commissioning | .ready | .active | .safeStop => true
  | _ => false

/-- Headroom in mV: terminal voltage less the minimum of R264 (R283). -/
def headroom (i : Isl) : Int := i.vTerm - (if i.loopPowered then 7000 else 2500)

/-- States in which the output stage regulates (Table 9-2). -/
def regulating (i : Isl) : Bool :=
  match i.state with
  | .regulate | .capture | .hold | .alarm | .safe => true
  | _ => false

/-- The decimation chain restarts (R293). -/
def restartChain (i : Isl) : Isl := { i with outputs := 0, sum := 0, count := 0, newFlag := false }

/-- The unsettled field (Table 9-4): N − j + 1 at the j-th output after the restart, 0 from output N + 1 on. -/
def unsettledOf (i : Isl) : Nat :=
  if i.cfg.mode = 0 || i.cfg.mode = 6 || i.cfg.mode = 7 then 0
  else unsettledN i.cfg.depth + 1 - max 1 i.outputs

/-- The upstream slot that an island sends (Table 9-4). -/
def slotOfIsl (i : Isl) : UpSlot :=
  let mean : Int := if i.cfg.mode = 6 then (i.edgeCount : Int) else if i.cfg.mode = 7 then (i.transitions : Int)
    else if i.count = 0 then i.value else (roundEven ((i.sum : Qty) / (i.count : Qty)))
  { state := match i.state with
      | .off => 0
      | .through => 1
      | .regulate => 2
      | .capture => 3
      | .hold => 4
      | .alarm => 5
      | .safe => 6
      | .input => 7
      | .fault => 8
    flagsA := bitN i.compliance 0 + bitN i.alarm 1 + bitN i.undeliverable 2 + bitN i.rbFault 3 + bitN i.series 4 +
      bitN i.loopPowered 5 + bitN i.overload 6 + bitN i.newFlag 7
    flagsB := i.devMask % 8 + bitN i.rejected 3 + bitN i.dcFrozen 4 + bitN i.energyLow 5 + bitN i.holdPending 6
    count := sat 8 i.count
    value := i.value
    mean := mean
    readback := if isOut i.cfg then i.readback else 0
    vTerm := i.vTerm.toNat
    driven := i.driven
    unsettled := unsettledOf i
    hartN := min 4 i.hartRx.length + 64 * bitN (!i.hartRx.isEmpty) 0 + 128 * bitN (!i.hartRx.isEmpty && decide (i.hartRx.length ≤ 4)) 0
    hartRx := fitBytes 4 (i.hartRx.take 4)
    tick := i.tick
    eStore := i.energyMv }

/-- The island link master of a channel is out of service (R16, R335): it passes no slot either way. -/
def masterDown (s : State) (ch : Nat) : Bool := blockDown s 6 (ch / 32)

/-- An island works: it has power over the barrier or from its loop, or its store bridges it for 5 ms (R265). -/
def islAlive (s : State) (i : Isl) : Bool := i.powered || i.loopPowered || i.darkAt.any (fun t => decide (s.mono < t + 5))

/-- UPSTREAM_SLOT (R271): every island with power sends its slot, with up to 4 received HART bytes (R288); the channels in `bad`
fail their check or are missing. The slots join the tick set cut at the next strobe; those of a block whose junction pair has
differed do not leave it (R16). -/
def execUpstreamSlot (bad : List Nat) (s : State) : Host.Outcome State Fault Refusal :=
  .next (if !(islandsUp s) then s
  else
    let s' := (List.range 128).foldl (fun st ch =>
      if bad.contains ch || !(islAlive s (chanOf s ch)) || masterDown s ch then st
      else addRecord { link := 64 + ch, quality := qualityByte s, stampNs := nowNs s, doneNs := nowNs s, length := 32,
                       data := .slot ch (slotOfIsl (chanOf s ch)) } st) s
    { s' with isl := s'.isl.map (fun i => { i with sum := 0, count := 0, newFlag := false, hartRx := i.hartRx.drop 4 }) })

/-- A new driven value; a change beyond the readback window suspends the comparison for 20 ms (R274). -/
def drive (s : State) (code : Nat) (i : Isl) : Isl :=
  let far := decide (rbWindowNa i.cfg < (((codeNa code - codeNa i.driven).natAbs : Nat) : Int))
  { i with driven := code, rbQuiet := if far then s.mono + 20 else i.rbQuiet }

/-- ALARM entered: the alarm level is driven, and each entry counts (R274, R280). -/
def enterAlarm (s : State) (i : Isl) : Isl :=
  drive s (alarmCode i.cfg) { i with state := .alarm, alarm := true, alarms := sat 16 (i.alarms + 1), undelRun := 0 }

/-- An alarm cause (R280): it latches ALARM; in HOLD and SAFE the drive stays as it is. -/
def alarmCause (s : State) (i : Isl) : Isl :=
  match i.state with
  | .hold | .safe => { i with alarm := true }
  | .regulate | .capture | .alarm => enterAlarm s i
  | _ => i

/-- HOLD (R266). -/
def enterHold (s : State) (byPower : Bool) (i : Isl) : Isl :=
  { i with state := .hold, holdAt := some s.mono, holdByPower := byPower }

/-- The valid setpoints of a tick with their lanes (R270). -/
def validSp (i : Isl) : List (Lane × Nat) :=
  if !i.spOk then [] else lanesAll.filterMap (fun l => if i.sp.get l ≤ 48000 then some (l, i.sp.get l) else none)

/-- The middle of three codes. -/
def median3 (a b c : Nat) : Nat := max (min a b) (min (max a b) c)

/-- The median of the valid setpoints, none where Table 9-5 gives no new value. -/
def medianSp (v : List (Lane × Nat)) : Option Nat :=
  match v with
  | [(_, a), (_, b), (_, c)] => some (median3 a b c)
  | [(_, a), (_, b)] => if a ≤ b + voteWindow && b ≤ a + voteWindow then some (min a b) else none
  | [(_, a)] => some a
  | _ => none

/-- The deviating bits of a tick (R273): the lanes whose valid setpoint is further than the vote window from the driven value. -/
def deviatingOf (i : Isl) : Nat :=
  maskOf (((validSp i).filter (fun x => decide (i.driven + voteWindow < x.2) || decide (x.2 + voteWindow < i.driven))).map (·.1.num))

/-- Table 9-5 for an island that regulates: driven value and flags. -/
def votedDrive (s : State) (i : Isl) : Isl :=
  let v := validSp i
  match medianSp v with
    | some m => drive s m { i with split := false, splitRun := 0, noneRun := 0, single := v.length = 1 }
    | none => if v.isEmpty then { i with noneRun := i.noneRun + 1, split := false, splitRun := 0, single := false }
              else { i with split := true, splitRun := i.splitRun + 1, noneRun := 0, single := false }

/-- The channel serves an AZIMUTH loop. -/
def azimuthRole (c : ChanCfg) : Bool :=
  match c.role with
  | .command _ kind => kind == 2
  | _ => false

/-- The safe value of a channel in the signal box's limits block (Table 10-2): ZERO, HOLD or CODE; without an entry ZERO, and HOLD on
an AZIMUTH loop channel. -/
def safeCode (s : State) (ch : Nat) (held : Nat) (c : ChanCfg) : Nat :=
  match s.sb.limits.safe.find? (fun x => x.1 == ch) with
  | some (_, 1, _) => held
  | some (_, 2, code) => code
  | some _ => zeroCode c
  | none => if azimuthRole c then held else zeroCode c

/-- An island sees a Springbok line asserted (R321, R322). -/
def springAsserted (s : State) : Bool := s.sb.powered && (s.sb.springA || s.sb.springB)

/-- SAFE entered from a regulating state (R322): the driven value kept for HOLD. -/
def enterSafe (s : State) (ch : Nat) (i : Isl) : Isl :=
  match i.state with
  | .regulate | .capture | .hold | .alarm =>
    { i with state := .safe, driven := safeCode s ch i.driven i.cfg, capMoving := none, holdAt := none }
  | _ => i

/-- The measured loop current as a setpoint code. -/
def measuredCode (i : Isl) : Nat := (roundEven ((i.readback : Qty) / 500)).toNat

/-- REGULATE entered at an apply marker: the alarm level when an alarm is latched, else the vote (R266, R280, R322). -/
def toRegulate (s : State) (i : Isl) : Isl :=
  let i := { i with holdAt := none, capMoving := none, capTimeout := false }
  if i.alarm then enterAlarm s i else votedDrive s { i with state := .regulate }

/-- The state that a mode gives an island (Table 9-2). -/
def modeState (c : ChanCfg) : IslState := if c.mode = 0 then .off else if isOut c then .through else .input

/-- An island as its reset leaves it, with a configuration; a HOLD record not yet reported outlives it (R267, R293). -/
def freshIsl (c : ChanCfg) (i : Isl) : Isl :=
  { cfg := c, state := modeState c, cfgDown := Config.cfgWire c, md := c.mdAddr.map (fun a => { addr := a }),
    holdRec := if i.holdPending then i.holdRec else 0, holdPending := i.holdPending, holdV := i.holdV }

/-- The points go to THROUGH: a loop that is not regulated powers nothing; a reset that waited for it takes effect now, and the island
joins its module (R265, R266, R440). -/
def goThrough (s : State) (i : Isl) : Isl :=
  let j := { i with state := .through, driven := 0xFFFF, holdAt := none, capMoving := none, loopPowered := false,
                    darkAt := if i.loopPowered && !i.powered then some s.mono else i.darkAt }
  if j.resetDue then
    let k := freshIsl (j.cfgNext.getD {}) j
    { k with powered := islandsUp s, darkAt := j.darkAt, state := if s.pow.factoryBad && islandsUp s then .fault else k.state }
  else j

/-- One step of a CAPTURE (R277): it ends within 32 codes of the captured setpoint; after CAPTURE_TIMEOUT the moving
setpoint approaches the median at the handover rate and ends where it reaches or passes it. -/
def captureStep (s : State) (i : Isl) : Isl :=
  match medianSp (validSp i) with
  | none => { i with noneRun := if (validSp i).isEmpty then i.noneRun + 1 else 0 }
  | some m =>
    let i := { i with noneRun := 0 }
    match i.capMoving with
    | none => if m ≤ i.capCode + 32 && i.capCode ≤ m + 32 then toRegulate s i else i
    | some x =>
      let step : Qty := i.cfg.handoverRate * 320 / 1000
      let d : Qty := (m : Qty) - x
      if absQ d ≤ step then toRegulate s i
      else
        let x' := if d < 0 then x - step else x + step
        { i with capMoving := some x', driven := (roundEven x').toNat }

/-- The island at its apply marker (R266 to R272, R275 to R277, R322), its slot already taken. Only an island with assisted power
starts to regulate (R265). A link that commands THROUGH ends SAFE too, as in Ready (Table 15-4; DEDUCED, assumption 116). -/
def applyIsl (s : State) (ch : Nat) (i : Isl) : Isl :=
  let valid := !(validSp i).isEmpty
  if !(isOut i.cfg) then i
  else match i.state with
  | .through =>
    if !valid || i.linkCmd == .through || !i.powered then i
    else if springAsserted s then
      { i with state := .safe, driven := safeCode s ch (measuredCode i) i.cfg }
    else if i.linkCmd == .capture then
      { i with state := .capture, capAt := some s.mono, capCode := measuredCode i + 8, driven := measuredCode i + 8,
               capMoving := none, capTimeout := false, noneRun := 0 }
    else toRegulate s i
  | .safe =>
    if i.linkCmd == .through then goThrough s i
    else if springAsserted s then i
    else toRegulate s i
  | .hold =>
    if springAsserted s then enterSafe s ch i
    else if !i.holdByPower && i.linkCmd == .regulate && valid && !(heldFor s i.holdAt i.cfg.holdMs) then toRegulate s i else i
  | .regulate => if i.linkCmd == .through then goThrough s i else votedDrive s i
  | .capture => if i.linkCmd == .through then goThrough s i else captureStep s i
  | .alarm =>
    if i.linkCmd == .through then goThrough s i
    else
      let j := votedDrive s i
      { j with driven := alarmCode i.cfg, rbQuiet := i.rbQuiet }
  | _ => i

/-- The island after its apply marker, with the deviating bits against what it now drives (R273). A whole HART frame goes on the
loop of a module that drives it, unless ENERGY_LOW suspends it (R265, R288). -/
def applyMarked (s : State) (ch : Nat) (i : Isl) : Isl :=
  let j := applyIsl s ch i
  { j with
    devMask := if j.driven = 0xFFFF then 0 else deviatingOf j
    hartSent := j.hartSent || (j.hartFull && drives s && !j.energyLow) }

/-! ### sb_check (R310) -/

/-- One bit of the CRC-16: shift left, and the polynomial 0x8BB7 where the top bit leaves. -/
def crc16Bit (c : Nat) : Nat := if c.testBit 15 then (2 * c % 65536) ^^^ 0x8BB7 else 2 * c % 65536

/-- One byte of the CRC-16, most significant bit first. -/
def crc16Byte (c : Nat) (b : Byte) : Nat := (List.range 8).foldl (fun c _ => crc16Bit c) (c ^^^ (256 * b.toNat))

/-- The CRC-16 of R310: initial value 0xFFFF, no reflection, no final exclusive-OR. -/
def crc16 (l : List Byte) : Nat := l.foldl crc16Byte 0xFFFF

/-- The 9 bytes under sb_check: the three setpoint codes, the channel, the low 16 bits of the tick count, little-endian. -/
def sbCheckBytes (sp : Lane3 Nat) (ch tick : Nat) : List Byte :=
  leBytes 2 sp.a ++ leBytes 2 sp.b ++ leBytes 2 sp.c ++ leBytes 1 ch ++ leBytes 2 (tick % 65536)

/-- Bytes 6 and 7 of a downstream slot: sb_check where channel 2 signs the field, its inverse where it does not (R309). -/
def slotCheck (s : State) (ch : Nat) : Nat :=
  let c := crc16 (sbCheckBytes (s.sb.outs.getD ch ⟨0xFFFF, 0xFFFF, 0xFFFF⟩) ch s.sb.signTick)
  if s.sb.signed.getD ch false then c else 0xFFFF ^^^ c

/-- The code of a link command in a link-control field (layout not printed: DESIGN CHOICE, assumption 116). -/
def LinkCmd.code : LinkCmd → Nat
  | .through => 0
  | .regulate => 1
  | .capture => 2

/-- The link command of such a code. -/
def linkCmdOfCode (k : Nat) : LinkCmd := if k = 1 then .regulate else if k = 2 then .capture else .through

/-- The junction die's field as the island takes it (Table 9-3, R268, R288): a link command, or a fragment of a HART frame, which
joins the transmit buffer where its number is the next one. -/
def takeDown (i : Isl) : Isl :=
  let d := i.down
  if d.jType = 3 then { i with linkCmd := linkCmdOfCode ((d.payload.headD 0).toNat) }
  else if d.jType = 2 && !i.hartFull && d.frag == i.hartTx.length / 6 % 16 then
    { i with hartTx := (i.hartTx ++ d.payload).take 300, hartFull := d.last }
  else i

/-- The links of an island's master run: it broadcasts tick headers and sends slots (R16, R269, R337). -/
def masterSends (s : State) (ch : Nat) : Bool := islandsUp s && !(masterDown s ch)

/-- The tick header and the downstream slot as they reach the island: fields, sb_check against the island's channel and tick count,
losses (R266, R269, R270, R310). -/
def takeSlotFields (s : State) (missed bad : Bool) (ch : Nat) (i : Isl) : Isl :=
  let i := if masterSends s ch then { i with tick := s.tt.ticks % 65536 } else i
  if missed || !(masterSends s ch) then { i with slotLoss := i.slotLoss + 1, spOk := false, validMask := 0, rejected := false }
  else
    let sp := s.sb.outs.getD ch ⟨0xFFFF, 0xFFFF, 0xFFFF⟩
    let ok := slotCheck s ch == crc16 (sbCheckBytes sp ch i.tick) && !bad
    let i := takeDown { i with slotLoss := 0, sp, spOk := ok, rejected := !ok }
    { i with validMask := maskOf ((validSp i).map (·.1.num)) }

/-- APPLY_MARKER (R269 to R272): every island applies its new driven value. `missed` are the channels whose slot does not
arrive, `bad` those whose check code fails on the way. In Fault the islands have power and no slot reaches them (R337). -/
def execApplyMarker (missed bad : List Nat) (s : State) : Host.Outcome State Fault Refusal :=
  .next (if !(islandsUp s || s.pow.state == .fault) then s
  else { s with isl := s.isl.mapIdx (fun ch i =>
    if islAlive s i then applyMarked s ch (takeSlotFields s (missed.contains ch) (bad.contains ch) ch i) else i) })

/-- SPLIT_ALARM (R272, R280): the tenth consecutive tick of two setpoints not in agreement. -/
def execSplitAlarm (ch : Nat) (s : State) : Host.Outcome State Fault Refusal :=
  let i := chanOf s ch
  .next (if islandsUp s && i.split && decide (10 ≤ i.splitRun) && i.state == .regulate then onIsl ch (alarmCause s) s else s)

/-- SERIES_LIMITED may be set: within the hold time plus 200 ms of a CAPTURE (R276). -/
def seriesWindow (s : State) (i : Isl) : Bool := i.capAt.any (fun t => decide (s.mono < t + i.cfg.holdMs + 200))

/-- Compliance and SERIES_LIMITED at a sample (R276, R283): the runs of samples below 1.5 V and at 2.0 V or more. -/
def complianceSample (s : State) (x : IslSample) (i : Isl) : Isl :=
  if !(regulating i) then { i with compLow := 0, compHigh := 0, series := false, compliance := false }
  else
    let series := x.seriesLimit && seriesWindow s i
    let low := decide (headroom i < 1500) || (x.seriesLimit && !series)
    { i with
      series := series
      compLow := if low && !series then i.compLow + 1 else 0
      compHigh := if decide (2000 ≤ headroom i) && !low then i.compHigh + 1 else 0 }

/-- The readback comparisons of a sample (R274, R281). -/
def readbackSample (s : State) (i : Isl) : Isl :=
  let off := decide (rbWindowNa i.cfg < (((i.readback - codeNa i.driven).natAbs : Nat) : Int))
  let cmp := (i.state == .regulate || i.state == .alarm) && !i.compliance && !i.series && decide (i.rbQuiet ≤ s.mono)
  { i with
    rbRun := if cmp && off then i.rbRun + 1 else 0
    undelRun := if i.state == .alarm && off then i.undelRun + 1 else 0 }

/-- HOLD_YIELD and HOLD_LOST (R267). -/
def holdSample (s : State) (i : Isl) : Isl :=
  if i.state == .hold && i.loopPowered && decide (i.vTerm < 7000) then
    goThrough s { i with
      holdRec := if i.readback < codeNa i.driven - rbWindowNa i.cfg then 1 else 2
      holdPending := true
      holdV := i.vTerm.toNat }
  else i

/-- A comparator: the threshold with half the hysteresis on each side (Table 9-1, R296, R297). -/
def comparator (c : ChanCfg) (uv : Qty) (was : Bool) : Bool :=
  let mid : Qty := 1000 * (c.thr : Qty)
  let half : Qty := 500 * (c.hyst : Qty)
  if mid + half < uv then true else if uv < mid - half then false else was

/-- One instant of a frequency input's course (R296): comparator level, the edge whose pulse still has to last 8 µs, and the edges
accepted, timed to 10 ns. -/
def edgeStep (c : ChanCfg) (r : Bool × Option Nat × List Nat) (x : Nat × Int) : Bool × Option Nat × List Nat :=
  let lasts := r.2.1.filter (fun t => decide (t + 8000 ≤ x.1))
  let done := r.2.2 ++ lasts.toList
  let open' := if lasts.isSome then none else r.2.1
  let l := comparator c x.2 r.1
  if l = r.1 then (l, open', done)
  else if l != c.falling then (l, some (x.1 / 10 * 10), done)
  else (l, none, done)

/-- The edges that an island accepts in a sample (R296). -/
def sampleEdges (s : State) (x : IslSample) (i : Isl) : Bool × Option Nat × List Nat :=
  let r := x.wave.foldl (edgeStep i.cfg) (i.level, i.riseAt, [])
  match r.2.1 with
  | some t => if t + 8000 ≤ nowNs s then (r.1, none, r.2.2 ++ [t]) else r
  | none => r

/-- Two edges in a row lie closer than 20 µs: above 50 kHz (R296). -/
def tooFast : List Nat → Bool
  | a :: b :: t => decide (b < a + 20000) || tooFast (b :: t)
  | _ => false

/-- The overload runs of a sample (R464, R296), each condition on its own. -/
def overloadSample (s : State) (x : IslSample) (i : Isl) : Isl :=
  let beyond := match i.cfg.mode with
    | 3 | 4 => decide (24000000 < x.current)
    | 5 => decide (x.inputUv < -10500000) || decide (10500000 < x.inputUv)
    | 6 => tooFast (i.edges.drop (i.edges.length - 1) ++ (sampleEdges s x i).2.2)
    | _ => false
  let sup := i.cfg.mode == 3 && x.supplyLimit
  { i with
    ovRun := if beyond then i.ovRun + 1 else 0
    supRun := if sup then i.supRun + 1 else 0
    ovOkRun := if beyond || sup then 0 else i.ovOkRun + 1 }

/-- A calibrated value with the image trims (R279), in nA, µV or mHz. -/
def trimmed (c : ChanCfg) (v : Qty) : Qty :=
  let span : Qty := if c.mode = 5 then 20000000 else if c.mode = 6 || c.mode = 7 then Config.trimSpan c.mode else 16000000
  v * (1 + (c.trimGain : Qty) / 100000) + (c.trimOff : Qty) * span / 100000

/-- What an island makes of a raw measurement: its factory calibration, then the image trims (R279). -/
def islandValue (ch : Nat) (c : ChanCfg) (raw : Int) : Qty := trimmed c (Config.factoryCal ch c.mode raw)

/-- The frequency input at a sample (R296): value in mHz. -/
def freqSample (s : State) (ch : Nat) (x : IslSample) (i : Isl) : Isl :=
  if i.cfg.mode ≠ 6 then i
  else
    let r := sampleEdges s x i
    let new := r.2.2
    let all := i.edges ++ new
    let now := nowNs s
    let gate := all.filter (fun t => decide (now < t + i.cfg.filt * 1000000))
    let keep := if 2 ≤ gate.length then gate else all.drop (all.length - 2)
    let f : Qty := match gate, keep with
      | a :: b :: r, _ => ((gate.length - 1 : Nat) : Qty) * 1000000000000 / (((b :: r).getLastD b - a : Nat) : Qty)
      | _, [a, b] => 1000000000000 / ((b - a : Nat) : Qty)
      | _, _ => 0
    let v := roundEven (islandValue ch i.cfg (roundEven f))
    let i := { i with edges := keep, edgeCount := (i.edgeCount + new.length) % 2 ^ 32, level := r.1, riseAt := r.2.1 }
    if new.isEmpty then (if i.noPulse then i else { i with value := v })
    else { i with value := v, noPulse := false, lastEdge := s.mono, newFlag := true }

/-- The digital input at a sample (R297): the comparator on the calibrated voltage, then the debounce time. -/
def digitalSample (s : State) (ch : Nat) (x : IslSample) (i : Isl) : Isl :=
  if i.cfg.mode ≠ 7 then i
  else
    let raw : Int := if comparator i.cfg (islandValue ch i.cfg x.inputUv) (i.digRaw == 1) then 1 else 0
    let i := if raw = i.digRaw then i else { i with digRaw := raw, digAt := s.mono }
    if i.digRaw ≠ i.digital && i.digAt + i.cfg.filt ≤ s.mono then
      { i with digital := i.digRaw, value := i.digRaw, transitions := (i.transitions + 1) % 2 ^ 32, newFlag := true }
    else i

/-- ISLAND_SAMPLE (R264, R265, R267, R274, R283, R296, R297): one 1 ms sample of an island that has power. -/
def execIslandSample (ch : Nat) (x : IslSample) (s : State) : Host.Outcome State Fault Refusal :=
  .next (if (chanOf s ch).state == .off || !(islAlive s (chanOf s ch)) then s
  else onIsl ch (fun i =>
    let i := { i with vTerm := x.vTerm, readback := roundEven (islandValue ch i.cfg x.current), energyMv := x.energyMv }
    digitalSample s ch x (freqSample s ch x (overloadSample s x (holdSample s (readbackSample s (complianceSample s x i)))))) s)

/-- COMPLIANCE_SET (R283): three consecutive samples below 1.5 V. -/
def execComplianceSet (ch : Nat) (s : State) : Host.Outcome State Fault Refusal :=
  let i := chanOf s ch
  .next (if regulating i && decide (3 ≤ i.compLow) && !i.compliance then
    onIsl ch (fun i => { i with compliance := true, compAt := s.mono, compEvents := sat 32 (i.compEvents + 1), rbRun := 0 }) s
  else s)

/-- COMPLIANCE_CLEAR (R283): ten consecutive samples at 2.0 V or more. -/
def execComplianceClear (ch : Nat) (s : State) : Host.Outcome State Fault Refusal :=
  let i := chanOf s ch
  .next (if decide (10 ≤ i.compHigh) && i.compliance then onIsl ch (fun i => { i with compliance := false }) s else s)

/-- READBACK_FAULT (R274, R280): twenty consecutive samples beyond the window. -/
def execReadbackFault (ch : Nat) (s : State) : Host.Outcome State Fault Refusal :=
  let i := chanOf s ch
  .next (if decide (20 ≤ i.rbRun) && !i.rbFault then
    onIsl ch (fun i => alarmCause s { i with rbFault := true }) s
  else s)

/-- ALARM_ENTRY (R280): 200 ms of continuous COMPLIANCE; in SAFE it does not act (R283). -/
def execAlarmEntry (ch : Nat) (s : State) : Host.Outcome State Fault Refusal :=
  let i := chanOf s ch
  .next (if i.compliance && decide (i.compAt + 200 ≤ s.mono) && !i.alarm && i.state != .safe && regulating i then
    onIsl ch (alarmCause s) s
  else s)

/-- ALARM_UNDELIVERABLE (R281): the readback away from the alarm level for 20 ms. -/
def execAlarmUndeliverable (ch : Nat) (s : State) : Host.Outcome State Fault Refusal :=
  let i := chanOf s ch
  .next (if i.state == .alarm && decide (20 ≤ i.undelRun) && !i.undeliverable then
    onIsl ch (fun i => { i with undeliverable := true }) s
  else s)

/-- An island loses its assisted power (R265, R266): a regulating one holds, loop-powered, and one in SAFE stays there under an asserted
line (R322); the store of another bridges it for 5 ms. -/
def islPowerFail (s : State) (i : Isl) : Isl :=
  match i.state with
  | .regulate | .capture | .alarm => enterHold s true { i with powered := false, loopPowered := true }
  | .safe =>
    if springAsserted s then { i with powered := false, loopPowered := true }
    else enterHold s true { i with powered := false, loopPowered := true }
  | .hold => { i with powered := false, loopPowered := true, holdByPower := true }
  | _ => { i with powered := false, darkAt := if i.powered then some s.mono else i.darkAt }

/-- ASSISTED_POWER_FAIL (R265, R266). -/
def execAssistedPowerFail (ch : Nat) (s : State) : Host.Outcome State Fault Refusal :=
  .next (if (chanOf s ch).powered then onIsl ch (islPowerFail s) s else s)

/-- LINK_SLOT_LOSS_HOLD (R266): no valid downstream slot in 3 consecutive ticks, or no valid setpoint (Table 9-5). -/
def execLinkSlotLossHold (ch : Nat) (s : State) : Host.Outcome State Fault Refusal :=
  let i := chanOf s ch
  .next (if (decide (3 ≤ i.slotLoss) || decide (3 ≤ i.noneRun)) && (i.state == .regulate || i.state == .capture || i.state == .alarm) then
    onIsl ch (enterHold s false) s
  else s)

/-- HOLD_TIMEOUT (R266): the points go to THROUGH, and an island that waits for its reset joins its module (R440). While the
strobes do not run the hold time is the island's own. -/
def execHoldTimeout (ch : Nat) (s : State) : Host.Outcome State Fault Refusal :=
  let i := chanOf s ch
  .next (if i.state == .hold && (heldFor s i.holdAt i.cfg.holdMs || !s.time.running) then
    onIsl ch (goThrough s) s
  else s)

/-- The working level of an energy store, mV (R265: no value given). Free value; assumption 41. -/
opaque Config.energyWorkingMv : Nat

/-- ENERGY_LOW (R265): the store below its working level; HART transmission is suspended. -/
def execEnergyLow (ch : Nat) (s : State) : Host.Outcome State Fault Refusal :=
  .next (onIsl ch (fun i => { i with energyLow := decide (i.energyMv < Config.energyWorkingMv) }) s)

/-- CAPTURE_TIMEOUT (R277): the capture limit has passed; the setpoint starts to move. -/
def execCaptureTimeout (ch : Nat) (s : State) : Host.Outcome State Fault Refusal :=
  let i := chanOf s ch
  .next (if i.state == .capture && i.capMoving.isNone && heldFor s i.capAt i.cfg.captureMs then
    onIsl ch (fun i => { i with capTimeout := true, capMoving := some (i.capCode : Qty) }) s
  else s)

/-- SERIES_LIMITED_EXPIRY (R276): afterwards the condition is judged as COMPLIANCE. -/
def execSeriesLimitedExpiry (ch : Nat) (s : State) : Host.Outcome State Fault Refusal :=
  let i := chanOf s ch
  .next (if i.series && !(seriesWindow s i) then
    onIsl ch (fun i => if i.compliance then { i with series := false }
      else { i with series := false, compliance := true, compAt := s.mono, compEvents := sat 32 (i.compEvents + 1) }) s
  else s)

/-- Nanoseconds of one output period by depth (R292): 64 kHz divided by 2 at each stage. -/
def outPeriodNs (d : Nat) : Nat := 15625 * 2 ^ d

/-- Outputs that a chain completes in a tick (Table 9-10): 64 divided by 2 at each stage; depths 7 and 8 complete one in every second
and every fourth tick (R292). -/
def outputsDue (d ticks : Nat) : Nat :=
  if d = 7 then (if ticks % 2 = 0 then 1 else 0) else if d = 8 then (if ticks % 4 = 0 then 1 else 0) else 64 / 2 ^ d

/-- Outputs that an island has completed in this tick. -/
def outputsDone (s : State) (i : Isl) : Nat := if i.outTick = s.tt.ticks then i.outN else 0

/-- DECIMATION_OUTPUT (R279, R292 to R295): one output of the chain completes; in the current output modes it measures the loop
current. A tick has no more of them than the depth gives. -/
def execDecimationOutput (ch : Nat) (raw : Int) (s : State) : Host.Outcome State Fault Refusal :=
  let d := (chanOf s ch).cfg.depth
  .next (if (1 ≤ (chanOf s ch).cfg.mode ∧ (chanOf s ch).cfg.mode ≤ 5) ∧ outputsDone s (chanOf s ch) < outputsDue d s.tt.ticks ∧
      islAlive s (chanOf s ch) = true then
    onIsl ch (fun i =>
      let v := islandValue ch i.cfg raw
      let m := if i.cfg.dcOn && !i.dcFrozen then
          Config.filterStep i.dcMean v ((outPeriodNs d : Qty) / 1000000000) i.cfg.tauDc else i.dcMean
      let o := roundEven (if i.cfg.dcOn then v - m else v)
      { i with value := o, sum := i.sum + o, count := i.count + 1, newFlag := true, outputs := sat 32 (i.outputs + 1),
               outTick := s.tt.ticks, outN := outputsDone s i + 1, dcMean := m }) s
  else s)

/-- OVERLOAD_SET (R464, R296). -/
def execOverloadSet (ch : Nat) (s : State) : Host.Outcome State Fault Refusal :=
  let i := chanOf s ch
  .next (if decide (3 ≤ i.cfg.mode ∧ i.cfg.mode ≤ 6) && !i.overload && (decide ((if i.cfg.mode = 6 then 1 else 3) ≤ i.ovRun) || decide (3 ≤ i.supRun)) then
    onIsl ch (fun i => { i with overload := true }) s
  else s)

/-- OVERLOAD_CLEAR (R464, R293): ten samples in range; the chain restarts. -/
def execOverloadClear (ch : Nat) (s : State) : Host.Outcome State Fault Refusal :=
  let i := chanOf s ch
  .next (if i.overload && decide (10 ≤ i.ovOkRun) then onIsl ch (fun i => restartChain { i with overload := false }) s else s)

/-- NO_PULSE (R296): no edge within the timeout; 0 Hz. -/
def execNoPulse (ch : Nat) (s : State) : Host.Outcome State Fault Refusal :=
  let i := chanOf s ch
  .next (if i.cfg.mode = 6 && !i.noPulse && decide (i.lastEdge + i.cfg.timeout ≤ s.mono) then
    onIsl ch (fun i => { i with noPulse := true, value := 0 }) s
  else s)

/-! ### HART (R288 to R291) -/

/-- A channel may carry HART: modes 1 to 4 with HART enabled (R288). -/
def hartOk (c : ChanCfg) : Bool := decide (1 ≤ c.mode) && decide (c.mode ≤ 4) && c.hart

/-- Age of a burst capture's place: the oldest entry's index. -/
def oldestBurst (l : List (HartFrame × Nat)) : Option Nat :=
  (l.zipIdx.foldl (fun (b : Option (Nat × Nat)) x => match b with
    | none => some (x.2, x.1.2)
    | some y => if x.1.2 < y.2 then some (x.2, x.1.2) else b) none).map (·.1)

/-- A received HART frame at its island: its bytes go upstream, a frame of at most 300 (R288). -/
def rxHart (f : HartFrame) (i : Isl) : Isl := { i with hartRx := i.hartRx ++ (Config.hartWire f).take 300 }

/-- HART_FRAME_RECEIVED (R288, R290): its bytes pass upstream; with burst listen, the newest burst frame of each device and command
is kept, up to 8; a new pair replaces the oldest. -/
def execHartFrameReceived (ch : Nat) (f : HartFrame) (s : State) : Host.Outcome State Fault Refusal :=
  let i := chanOf s ch
  .next (if !(drives s && hartOk i.cfg && islAlive s i) then s
  else if i.cfg.burst && f.isBurst then
    onIsl ch (fun i =>
      let i := rxHart f i
      let e := (f, s.mono)
      match i.bursts.findIdx? (fun b => b.1.address == f.address && b.1.command == f.command) with
      | some k => { i with bursts := i.bursts.set k e }
      | none => if i.bursts.length < 8 then { i with bursts := i.bursts ++ [e] }
                else { i with bursts := i.bursts.set ((oldestBurst i.bursts).getD 0) e }) s
  else onIsl ch (rxHart f) s)

/-- HART_TRANSACT result (R299 text). -/
def hartBytes (outcome attempts resp dev command : Nat) (data : List Byte) : List Byte :=
  leBytes 1 outcome ++ leBytes 1 attempts ++ leBytes 1 resp ++ leBytes 1 dev ++ leBytes 2 command ++
    leBytes 2 data.length ++ data

/-- HART bytes of a transaction (R288, R289): preambles, delimiter, address, command, byte count, data, check; a command above 253
goes through command 31 with its number in two bytes of data. HART 7's own frame layout (PRESUMED; assumption 106). -/
def hartLength (c : ChanCfg) (j : HartJob) : Nat :=
  c.preambles + 4 + (if j.long then 5 else 1) + (if 253 < j.command then 2 else 0) + j.data.length

/-- The transaction at the head of a channel's queue ends; its slot completes (R289). -/
def endHart (ch : Nat) (r : HartResult) (s : State) : State :=
  match (chanOf s ch).hartQ with
  | [] => s
  | j :: rest =>
    let s := onIsl ch (fun i => { i with
      hartQ := rest
      hartDown := none, hartFrag := 0, hartTx := [], hartFull := false, hartSent := false
      hartErrors := if r.outcome = 1 then sat 16 (i.hartErrors + 1) else i.hartErrors }) s
    completeSlot j.task 0 (hartBytes r.outcome (min r.attempts (j.retries + 1)) r.respCode r.devStatus j.command r.data) s

/-- HART_TRANSACTION_END (R288, R289): a transaction whose frame has gone out on the loop ends as it ended on the wire, after at most
the retries asked for. -/
def execHartTransactionEnd (ch : Nat) (r : HartResult) (s : State) : Host.Outcome State Fault Refusal :=
  .next (if drives s && hartOk (chanOf s ch).cfg && (chanOf s ch).hartSent then endHart ch r s else s)

/-- The transaction at the head of a channel's queue at a tick strobe: one in flight ends within 3 s without a response (R289); the next
starts, its frame on its way to the island, unless a change of mode comes first (R300) or the channel is in no HART mode any more. -/
def stepHart (ch : Nat) (s : State) : State :=
  let i := chanOf s ch
  match i.hartQ with
  | [] => s
  | j :: rest =>
    if i.hartDown.isSome then
      (if j.since + 3000 ≤ s.mono then endHart ch { outcome := 1, attempts := j.retries + 1 } s else s)
    else if i.cfgNext.isSome then s
    else if !(hartOk i.cfg) then endHart ch { outcome := 3 } s
    else onIsl ch (fun i => { i with
      hartQ := { j with since := s.mono } :: rest
      hartDown := some (fitBytes (hartLength i.cfg j) (Config.hartFrame i.cfg.preambles j)) }) s

/-- The HART queues at a tick strobe. -/
def stepHarts (s : State) : State := (List.range 128).foldl (fun s ch => stepHart ch s) s

/-- One poll of a multidrop device: its reply, or a miss; MISSING at the third in a row (R291). -/
def pollDev (s : State) (r : Option PollReply) (d : MdDev) : MdDev :=
  match r with
  | some x => { d with misses := 0, missing := false, reply := x, at_ := some s.mono }
  | none =>
    let m := min 3 (d.misses + 1)
    { d with misses := m, missing := decide (3 ≤ m), missedAt := s.mono }

/-- The next device in turn that is not MISSING. -/
def nextDev (l : List MdDev) (from' : Nat) : Nat :=
  let n := l.length
  (((List.range n).map (fun k => (from' + k) % n)).find? (fun k => !(l.getD k {}).missing)).getD 0

/-- A channel runs multidrop: in mode 3 or 4 (R291). -/
def mdMode (c : ChanCfg) : Bool := c.multidrop && (c.mode == 3 || c.mode == 4)

/-- MULTIDROP_POLL (R289, R291): the next device in turn, while no host transaction waits. -/
def execMultidropPoll (ch : Nat) (r : Option PollReply) (s : State) : Host.Outcome State Fault Refusal :=
  let i := chanOf s ch
  .next (if drives s && hartOk i.cfg && mdMode i.cfg && i.hartQ.isEmpty && !i.energyLow && !i.md.isEmpty
      && !(i.md.getD (nextDev i.md i.mdNext) {}).missing then
    onIsl ch (fun i =>
      let k := nextDev i.md i.mdNext
      { i with md := i.md.modify k (pollDev s r), mdNext := (k + 1) % i.md.length }) s
  else s)

/-- MISSING_RETRY (R289, R291): a MISSING device is tried again every 10 s, while no host transaction waits. -/
def execMissingRetry (ch : Nat) (addr : Nat) (r : Option PollReply) (s : State) : Host.Outcome State Fault Refusal :=
  let i := chanOf s ch
  .next (if drives s && hartOk i.cfg && mdMode i.cfg && i.hartQ.isEmpty && !i.energyLow
      && i.md.any (fun d => d.addr == addr && d.missing && decide (d.missedAt + 10000 ≤ s.mono)) then
    onIsl ch (fun i => { i with md := i.md.map (fun d => if d.addr == addr then pollDev s r d else d) }) s
  else s)

/-! ### Configuration (R299, R300) -/

/-- A configuration taken by an island: a change of mode changes its state; mode, trim or depth restart the chain
(R261, R293). -/
def takeCfg (c : ChanCfg) (i : Isl) : Isl :=
  let restart := c.mode ≠ i.cfg.mode || c.trimOff ≠ i.cfg.trimOff || c.trimGain ≠ i.cfg.trimGain || c.depth ≠ i.cfg.depth
    || c.iLo ≠ i.cfg.iLo || c.iHi ≠ i.cfg.iHi
  let i' := if restart then restartChain i else i
  { i' with
    cfg := c
    cfgNext := none
    cfgDown := Config.cfgWire c
    cfgFrag := 0
    md := if c.mdAddr = i.cfg.mdAddr then i.md else c.mdAddr.map (fun a => { addr := a })
    state := if c.mode = i.cfg.mode then i.state else modeState c
    driven := if c.mode = i.cfg.mode then i.driven else 0xFFFF
    overload := if c.mode = i.cfg.mode then i.overload else false
    value := if c.mode = i.cfg.mode then i.value else 0 }

/-- A configuration for an island: a reset that waits for the end of HOLD takes it (R440), and a change of mode waits for the
transaction in flight (R300). -/
def configure (c : ChanCfg) (i : Isl) : Isl :=
  if i.resetDue || (c.mode ≠ i.cfg.mode && i.hartDown.isSome) then { i with cfgNext := some c } else takeCfg c i

/-- A CHAN_CONFIG write takes effect, or waits for the transaction in flight (R300). -/
def applyChanCfg (ch : Nat) (c : ChanCfg) (s : State) : State :=
  onIsl ch (fun i =>
    let b := i.cfgNext.getD i.cfg
    configure { c with charac := b.charac, depth := b.depth, dcOn := b.dcOn, tauDc := b.tauDc, captureMs := b.captureMs,
                       handoverRate := b.handoverRate, falling := b.falling, role := b.role } i) s

/-- CONFIG_PENDING_APPLY (R300): the first frame boundary after the transaction ends. -/
def execConfigPendingApply (ch : Nat) (s : State) : Host.Outcome State Fault Refusal :=
  let i := chanOf s ch
  .next (match i.cfgNext with
  | none => s
  | some c => if i.hartDown.isNone && !i.resetDue && s.tt.tick = 0 then onIsl ch (takeCfg c) s else s)

/-- A CHAN_CONFIG clear takes effect (R280, R274): the alarm latch and READBACK_FAULT end. -/
def applyChanClear (ch : Nat) (s : State) : State :=
  onIsl ch (fun i =>
    let i' := { i with alarm := false, rbFault := false, undeliverable := false, rbRun := 0, undelRun := 0, split := false, splitRun := 0,
                       compAt := s.mono }
    if i.state == .alarm then { i' with state := .regulate } else i') s

/-- A CHAN_CHARACTERISTIC write takes effect, in a configuration that is still pending too (R300). -/
def applyChanChar (ch : Nat) (c : CharCfg) (s : State) : State :=
  onIsl ch (fun i => { i with cfg.charac := c, cfgNext := i.cfgNext.map (fun n => { n with charac := c }) }) s

/-- The settings of a FILTER_CONFIG write in a configuration. -/
def filterCfg (depth dc : Nat) (tau : Qty) (c : ChanCfg) : ChanCfg :=
  { c with depth, tauDc := if tau = 0 then c.tauDc else tau, dcOn := if dc = 0 then false else if dc = 1 then true else c.dcOn }

/-- A FILTER_CONFIG write takes effect, in a configuration that is still pending too (R293, R295, R300): the DC blocker operations
restart nothing. -/
def applyFilter (ch depth dc : Nat) (tau : Qty) (s : State) : State :=
  onIsl ch (fun i =>
    let i := if depth = i.cfg.depth then i else restartChain i
    let i := { i with cfg := filterCfg depth dc tau i.cfg, cfgNext := i.cfgNext.map (filterCfg depth dc tau) }
    match dc with
    | 0 => { i with dcFrozen := false, dcMean := 0 }
    | 2 => { i with dcFrozen := i.cfg.dcOn }
    | 3 => { i with dcFrozen := false }
    | _ => i) s

/-- The configuration fields of a payload from its mode byte on (Table 9-12). -/
def cfgOfPayload (b : List Byte) (old : ChanCfg) : ChanCfg :=
  let f := fieldByte b 3
  { old with
    mode := fieldByte b 2
    hart := f.testBit 0
    ne43 := f.testBit 1
    alarmHigh := f.testBit 2
    burst := f.testBit 3
    multidrop := f.testBit 4
    holdMs := fieldNat b 4 2
    rbWindow := fieldNat b 6 2
    iLo := fieldNat b 8 2
    iHi := fieldNat b 10 2
    trimOff := fieldInt b 12 2
    trimGain := fieldInt b 14 2
    thr := fieldNat b 16 2
    hyst := fieldNat b 18 2
    filt := fieldNat b 20 2
    timeout := fieldNat b 22 2
    supAllow := fieldNat b 24 2
    iBudget := fieldNat b 26 2
    mdAddr := ((b.drop 29).take (min 15 (fieldByte b 28))).map (·.toNat)
    preambles := fieldByte b 44 }

/-- The configuration part of a CHAN_CONFIG payload or result. -/
def cfgBytes (c : ChanCfg) : List Byte :=
  leBytes 1 c.mode ++ leBytes 1 (bitN c.hart 0 + bitN c.ne43 1 + bitN c.alarmHigh 2 + bitN c.burst 3 + bitN c.multidrop 4) ++
    leBytes 2 c.holdMs ++ leBytes 2 c.rbWindow ++ leBytes 2 c.iLo ++ leBytes 2 c.iHi ++ leInt 2 c.trimOff ++
    leInt 2 c.trimGain ++ leBytes 2 c.thr ++ leBytes 2 c.hyst ++ leBytes 2 c.filt ++ leBytes 2 c.timeout ++
    leBytes 2 c.supAllow ++ leBytes 2 c.iBudget ++ leBytes 1 c.mdAddr.length ++ fitBytes 15 (c.mdAddr.map (BitVec.ofNat 8)) ++
    leBytes 1 c.preambles ++ zeros 3

/-- A value of a CHAN_CONFIG write lies outside its range (Table 9-12). The gate of a frequency input and the debounce of
a digital one share a field. -/
def cfgRangeBad (c : ChanCfg) (count : Nat) : Bool :=
  decide (7 < c.mode) || decide (c.holdMs < 500) || decide (5000 < c.holdMs) || decide (c.rbWindow < 10) || decide (200 < c.rbWindow) ||
    decide (48000 < c.iLo) || decide (48000 < c.iHi) || decide (c.trimOff < -1000) || decide (1000 < c.trimOff) ||
    decide (c.trimGain < -2000) || decide (2000 < c.trimGain) || decide (c.thr < 500) || decide (12000 < c.thr) ||
    decide (c.hyst < 200) || decide (2000 < c.hyst) ||
    (if c.mode = 6 then decide (c.filt < 1) || decide (1000 < c.filt) else c.mode == 7 && decide (100 < c.filt)) ||
    decide (c.timeout < 10) || decide (10000 < c.timeout) || decide (6000 < c.supAllow) || decide (48000 < c.iBudget) ||
    decide (c.preambles < 5) || decide (20 < c.preambles) || (decide (count ≤ 15) && c.mdAddr.any (fun a => decide (a < 1) || decide (63 < a)))

/-- A TABLE is strictly increasing. -/
def increasing : List Qty → Bool
  | a :: b :: t => decide (a < b) && increasing (b :: t)
  | _ => true

/-- A characteristic that an output may have: not SQRT, and a TABLE that rises strictly (R278). -/
def outChar (c : CharCfg) : Bool := c.kind != 1 && (c.kind != 2 || increasing c.table)

/-- The configuration of a channel that the waiting writes ask for (R61). -/
def chanAsked (s : State) (ch : Nat) : ChanCfg :=
  s.host.deferred.foldl (fun a d => match d with
    | .chanCfg k c => if k = ch then { c with charac := a.charac } else a
    | .chanChar k c => if k = ch then { a with charac := c } else a
    | _ => a) ((chanOf s ch).cfgNext.getD (chanOf s ch).cfg)

/-- CHAN_CONFIG (0x0701). -/
def chanConfigSpec : OpSpec :=
  { auth := fun p => match fieldByte p.payload 1 with
      | 0 => 0
      | 2 => 1
      | _ => 2
    role := fun s p => fieldByte p.payload 1 == 0 || drives s
    len := fun _ p => p.payload.length == 48
    run := fun _ p s =>
      let b := p.payload
      let ch := fieldByte b 0
      let op := fieldByte b 1
      let i := chanOf s ch
      let res := fun f => leBytes 1 ch ++ leBytes 1 op ++ cfgBytes i.cfg ++ leBytes 1 i.up.state ++
        leBytes 1 (bitN (i.cfgNext.isSome && !i.resetDue) 0) ++ zeros 2 ++ leBytes 4 f
      if 2 < op then fail 0x0013 s
      else if 127 < ch then fail 0x0014 s
      else if op = 0 then { status := 0, result := res 0, state := s }
      else if op = 2 then { status := 1, result := res (effectFrame s), state := defer (.chanClear ch) s }
      else
        let c := cfgOfPayload b i.cfg
        let n := fieldByte b 28
        if cfgRangeBad c n then fail 0x0014 s
        else if 15 < n || c.mdAddr.eraseDups.length ≠ c.mdAddr.length || (isOut c && !(outChar (chanAsked s ch).charac)) then
          fail 0x0013 s
        else if chanBound s ch && s.pow.state != .commissioning then fail 0x0021 s
        else { status := 1, result := res (effectFrame s), state := defer (.chanCfg ch c) s } }

/-- CHAN_CONFIG (R299). -/
def execChanConfig (p : Packet) (s : State) : Host.Outcome State Fault Refusal :=
  .next (processPacket (some chanConfigSpec) { p with opcode := 0x0701 } s)

/-- A CHAN_STATUS entry (Table 9-13). -/
def chanEntry (s : State) (ch : Nat) : List Byte :=
  let i := chanOf s ch
  let reg := decide (2 ≤ i.up.state ∧ i.up.state ≤ 6)
  let hr : Int := (i.up.vTerm : Int) - (if upFlag i 5 then 7000 else 2500)
  leBytes 1 ch ++ leBytes 1 i.cfg.mode ++ leBytes 1 i.up.state ++ leBytes 1 i.cls ++ leBytes 2 (chanFlags s i) ++
    leBytes 2 i.up.driven ++ leInt 4 i.up.readback ++ leBytes 2 i.up.vTerm ++ leInt 2 (if reg then hr else 0) ++
    leBytes 1 (i.validMask % 8 + 16 * (i.up.flagsB % 8)) ++
    leBytes 1 (i.md.length % 16 + bitN i.cfg.hart 4 + bitN (!i.bursts.isEmpty) 5 + bitN (i.md.any (·.missing)) 6 + bitN i.dcFrozen 7) ++
    leBytes 1 i.holdRec ++ zeros 1 ++ leBytes 4 i.compEvents ++ leBytes 4 i.linkErrors ++ leBytes 2 i.alarms ++ leBytes 2 i.hartErrors

/-- CHAN_STATUS (0x0702). -/
def chanStatusSpec : OpSpec :=
  { len := fun _ p => p.payload.length == 4
    run := fun _ p s =>
      let first := fieldByte p.payload 0
      let n := fieldByte p.payload 1
      if n = 0 || 127 < n || 128 < first + n then fail 0x0014 s
      else { status := 0, result := leBytes 1 n ++ zeros 3 ++ ((List.range n).map (fun k => chanEntry s (first + k))).flatten, state := s } }

/-- CHAN_STATUS (R299). -/
def execChanStatus (p : Packet) (s : State) : Host.Outcome State Fault Refusal :=
  .next (processPacket (some chanStatusSpec) { p with opcode := 0x0702 } s)

/-- Group delay by depth, ns (Table 9-10). -/
def groupDelay (d : Nat) : Nat :=
  [29300, 76200, 169900, 357400, 732400, 1482400, 2982400, 5982400, 11982400].getD d 2982400

/-- Ticks from the newest output to the slot of a tick, by depth (R292): depth 7 completes in even ticks, depth 8 in every fourth. -/
def outputLag (depth tick : Nat) : Nat := if depth = 7 then tick % 2 else if depth = 8 then tick % 4 else 0

/-- Time of validity of the value in the newest valid slot, in ns of module time (R294): the completion of its output, less D. For
modes 6 and 7, which have no decimation chain, it is the strobe of the slot's tick (DESIGN CHOICE; assumption 113). -/
def chanValidNs (s : State) (i : Isl) : Nat :=
  let back := i.upMiss + 1
  let strobe := nowNs s - 1000000 * back
  if i.cfg.mode = 6 || i.cfg.mode = 7 then strobe
  else
    let lag := outputLag i.cfg.depth (s.tt.ticks - back)
    strobe + (780000 / outPeriodNs i.cfg.depth) * outPeriodNs i.cfg.depth - 1000000 * lag - groupDelay i.cfg.depth

/-- CHAN_READ values result (Table 9-14). -/
def chanValues (s : State) (ch : Nat) : List Byte :=
  let i := chanOf s ch
  let t := chanValidNs s i
  leBytes 1 ch ++ leBytes 1 i.cfg.mode ++ leBytes 1 i.up.state ++ leBytes 1 i.cls ++ leBytes 8 (t / 1000000000) ++
    leBytes 4 (t % 1000000000) ++ leBytes 1 i.upQual ++ leBytes 1 i.up.unsettled ++ leBytes 2 (chanFlags s i) ++
    leInt 4 i.up.value ++ leInt 4 i.up.mean ++ f32Bytes (engOf i.cfg i.up.value) ++ leInt 4 i.up.readback ++ leBytes 2 i.up.vTerm ++
    leBytes 2 i.up.driven ++ leBytes 4 i.outSeen ++ leBytes 4 (frame32 s)

/-- A multidrop entry of CHAN_READ. -/
def mdEntry (s : State) (d : MdDev) : List Byte :=
  leBytes 1 d.addr ++ leBytes 1 (if d.missing then 1 else 0) ++ leBytes 1 d.reply.devStatus ++ leBytes 1 d.reply.unit ++
    f32Bytes d.reply.pv ++ f32Bytes d.reply.loopMa ++ leBytes 4 (match d.at_ with
      | some t => sat 32 (s.mono - t)
      | none => 0xFFFFFFFF)

/-- A burst entry of CHAN_READ. -/
def burstEntry (s : State) (b : HartFrame × Nat) : List Byte :=
  leBytes 1 b.1.address ++ zeros 1 ++ leBytes 2 b.1.command ++ leBytes 1 b.1.data.length ++ leBytes 1 b.1.respCode ++
    leBytes 1 b.1.devStatus ++ zeros 1 ++ leBytes 4 (sat 32 (s.mono - b.2)) ++ fitBytes 36 b.1.data

/-- CHAN_READ (0x0703). -/
def chanReadSpec : OpSpec :=
  { len := fun _ p => p.payload.length == 4
    run := fun _ p s =>
      let ch := fieldByte p.payload 0
      let i := chanOf s ch
      if 2 < fieldByte p.payload 1 then fail 0x0013 s
      else if 127 < ch then fail 0x0014 s
      else match fieldByte p.payload 1 with
        | 0 => { status := 0, result := chanValues s ch, state := s }
        | 1 => { status := 0, result := leBytes 1 i.md.length ++ zeros 3 ++ (i.md.map (mdEntry s)).flatten, state := s }
        | _ => { status := 0, result := leBytes 1 i.bursts.length ++ zeros 3 ++ (i.bursts.map (burstEntry s)).flatten, state := s } }

/-- CHAN_READ (R299). -/
def execChanRead (p : Packet) (s : State) : Host.Outcome State Fault Refusal :=
  .next (processPacket (some chanReadSpec) { p with opcode := 0x0703 } s)

/-- HART_TRANSACT (0x0704). -/
def hartTransactSpec : OpSpec :=
  { auth := fun _ => 1
    role := fun s _ => drives s
    len := fun _ p => decide (14 ≤ p.payload.length) && p.payload.length == 14 + fieldNat p.payload 12 2
    run := fun k p s =>
      let b := p.payload
      let ch := fieldByte b 0
      let i := chanOf s ch
      let cmd := fieldNat b 10 2
      if 1 < fieldByte b 1 then fail 0x0013 s
      else if 127 < ch || 63 < fieldByte b 2 || 5 < fieldByte b 3 || 255 < fieldNat b 12 2 then fail 0x0014 s
      else if !(hartOk i.cfg) then { status := 0, result := hartBytes 3 0 0 0 cmd [], state := s }
      else if fieldByte b 1 = 0 && i.md.any (fun d => d.addr == fieldByte b 2 && d.missing) then
        { status := 0, result := hartBytes 4 0 0 0 cmd [], state := s }
      else if 4 ≤ i.hartQ.length then fail 0x0022 s
      else
        let j : HartJob := { long := fieldByte b 1 = 1, polling := fieldByte b 2, retries := fieldByte b 3,
                             longAddr := fieldNat b 4 5, command := cmd, data := b.drop 14, task := taskOf k p, since := s.mono }
        { status := 2, state := onIsl ch (fun i => { i with hartQ := i.hartQ ++ [j] }) s } }

/-- HART_TRANSACT (R289). -/
def execHartTransact (p : Packet) (s : State) : Host.Outcome State Fault Refusal :=
  .next (processPacket (some hartTransactSpec) { p with opcode := 0x0704 } s)

/-- The characteristic of a payload; none where a field is no number (Table 9-15). -/
def charOfPayload (b : List Byte) : Option CharCfg :=
  let tab := (List.range 33).map (fun k => fieldF32 b (24 + 4 * k))
  match fieldF32 b 4, fieldF32 b 8, fieldF32 b 12, fieldF32 b 16, fieldF32 b 20 with
  | some a, some c, some d, some e, some f =>
    if tab.any (fun x => x.isNone) then none
    else some { kind := fieldByte b 2, engLo := a, engHi := c, cutoff := d, cLo := e, cHi := f, table := tab.filterMap id }
  | _, _, _, _, _ => none

/-- The active characteristic as bytes from its kind byte on. -/
def charBytes (c : CharCfg) : List Byte :=
  leBytes 1 c.kind ++ zeros 1 ++ f32Bytes c.engLo ++ f32Bytes c.engHi ++ f32Bytes c.cutoff ++ f32Bytes c.cLo ++
    f32Bytes c.cHi ++ ((List.range 33).map (fun k => f32Bytes (c.table.getD k 0))).flatten

/-- CHAN_CHARACTERISTIC (0x0705). -/
def chanCharSpec : OpSpec :=
  { auth := fun p => if fieldByte p.payload 1 = 0 then 0 else 2
    role := fun s p => fieldByte p.payload 1 == 0 || drives s
    len := fun _ p => p.payload.length == 156
    run := fun _ p s =>
      let b := p.payload
      let ch := fieldByte b 0
      let op := fieldByte b 1
      let i := chanOf s ch
      let res := leBytes 1 ch ++ leBytes 1 op ++ charBytes i.cfg.charac
      if 1 < op || (op = 1 && 2 < fieldByte b 2) then fail 0x0013 s
      else if 127 < ch then fail 0x0014 s
      else if op = 0 then { status := 0, result := res, state := s }
      else match charOfPayload b with
        | none => fail 0x0014 s
        | some c =>
          if c.cutoff < 0 || rnd32 (1 / 10) < c.cutoff then fail 0x0014 s
          else if (isOut i.cfg || isOut (chanAsked s ch)) && !(outChar c) then fail 0x0013 s
          else if chanBound s ch && s.pow.state != .commissioning then fail 0x0021 s
          else { status := 1, result := res, state := defer (.chanChar ch c) s } }

/-- CHAN_CHARACTERISTIC (R278, R299). -/
def execChanCharacteristic (p : Packet) (s : State) : Host.Outcome State Fault Refusal :=
  .next (processPacket (some chanCharSpec) { p with opcode := 0x0705 } s)

/-- A FILTER_CONFIG write that only operates the DC blocker: FREEZE or UNFREEZE with the depth and time constant unchanged
(R295, R299). -/
def dcOnly (s : State) (p : Packet) : Bool :=
  let i := chanOf s (fieldByte p.payload 0)
  (fieldByte p.payload 3 == 2 || fieldByte p.payload 3 == 3) && fieldByte p.payload 2 == i.cfg.depth && fieldNat p.payload 4 4 == 0

/-- FILTER_CONFIG (0x0706). The authority of a write is OPERATE where it is a DC blocker operation and nothing more. -/
def filterConfigSpec : OpSpec :=
  { authNow := fun s p => if fieldByte p.payload 1 = 0 then 0 else if dcOnly s p then 1 else 2
    role := fun s p => fieldByte p.payload 1 == 0 || drives s
    len := fun _ p => p.payload.length == 8
    run := fun _ p s =>
      let b := p.payload
      let ch := fieldByte b 0
      let op := fieldByte b 1
      let d := fieldByte b 2
      let dc := fieldByte b 3
      let i := chanOf s ch
      let res := leBytes 1 ch ++ leBytes 1 op ++ leBytes 1 i.cfg.depth ++
        leBytes 1 (if i.dcFrozen then 2 else if i.cfg.dcOn then 1 else 0) ++ f32Bytes i.cfg.tauDc ++ f32Bytes i.dcMean ++
        leBytes 1 i.up.unsettled ++ zeros 3
      if 1 < op || (op = 1 && 3 < dc && dc ≠ 255) then fail 0x0013 s
      else if 127 < ch then fail 0x0014 s
      else if op = 0 then { status := 0, result := res, state := s }
      else match fieldF32 b 4 with
        | none => fail 0x0014 s
        | some t =>
          if 8 < d || (t ≠ 0 && (t < 1 / 10 || 1000 < t)) then fail 0x0014 s
          else if chanBound s ch && s.pow.state != .commissioning && !(dcOnly s p) then fail 0x0021 s
          else { status := 1, result := res, state := defer (.filter ch d dc t) s } }

/-- FILTER_CONFIG (R295). -/
def execFilterConfig (p : Packet) (s : State) : Host.Outcome State Fault Refusal :=
  .next (processPacket (some filterConfigSpec) { p with opcode := 0x0706 } s)

/-! ### Compliance check (R286, R287) -/

/-- The check's precondition (R287): Commissioning, or Active with the channel's thruster DISABLED or none. -/
def checkAllowed (s : State) (ch : Nat) : Bool :=
  match s.pow.state with
  | .commissioning => true
  | .active => match (chanOf s ch).cfg.role with
    | .command t _ | .feedback t => (s.alloc.thr.getD t {}).state == .disabled && !(s.alloc.thr.getD t {}).ramping
    | _ => true
  | _ => false

/-- COMPLIANCE_CHECK result (Table 9-16). -/
def checkResult (s : State) (c : CheckSt) (outcome : Nat) (vMin heldMs : Int) : List Byte × Qty :=
  let iT : Qty := (c.iTest : Qty) / 2000
  let rext : Qty := ((c.vLo - c.vHi : Int) : Qty) / 1000
  let rext := divQ rext ((iT - 4) / 1000)
  let v0 : Qty := (c.vLo : Qty) / 1000 + rext * 4 / 1000
  let vav : Qty := (c.vHi : Qty) / 1000 - ((chanOf s c.ch).cfg.supAllow : Qty) / 1000
  let margin := vav - 17 / 2
  (leBytes 1 c.ch ++ leBytes 1 outcome ++ leBytes 1 (if c.trial then 1 else 0) ++ zeros 1 ++ leBytes 2 c.iTest ++
    leInt 2 c.vLo ++ leInt 2 c.vHi ++ zeros 2 ++ f32Bytes (Config.f32 rext) ++ f32Bytes (Config.f32 v0) ++
    f32Bytes (Config.f32 vav) ++ f32Bytes (17 / 2) ++ f32Bytes (Config.f32 margin) ++ leInt 2 vMin ++ leInt 2 heldMs ++
    leBytes 4 (frame32 s), margin)

/-- Ticks for which a channel returns to its zero-thrust value after a check, before it follows the median (R286 gives no time: DESIGN
CHOICE, assumption 116). -/
def checkBackTicks : Nat := 3

/-- The check ends: its result completes the slot, it is logged, and the channel returns to its zero-thrust value
(R286, step 6). -/
def endCheck (outcome : Nat) (vMin heldMs : Int) (s : State) : State :=
  match s.check with
  | none => s
  | some c =>
    let (b, m) := checkResult s c outcome vMin heldMs
    let s := onIsl c.ch (fun i => { i with checkDrive := some (zeroCode i.cfg), checkBack := checkBackTicks,
                                           loopPowered := if i.powered then false else i.loopPowered }) { s with check := none }
    completeSlot c.task 0 b (logL 9 3 (leBytes 1 c.ch ++ leBytes 1 outcome ++ f32Bytes (Config.f32 m)) s)

/-- A tick of the return to the zero-thrust value: after the last one the channel follows the median (R286, step 6). -/
def stepCheckBack (s : State) : State :=
  { s with isl := s.isl.map (fun i =>
      if i.checkBack = 0 then i
      else { i with checkBack := i.checkBack - 1, checkDrive := if i.checkBack = 1 then none else i.checkDrive }) }

/-- A check ends with ABORTED at Safe-Stop, at a takeover or when its precondition fails (R287). -/
def abortCheck (s : State) : State := endCheck 4 0 0 s

/-- COMPLIANCE_CHECK_PHASE (R286, R287): the end of the phase in hand, with what it measured. -/
def execComplianceCheckPhase (x : CheckMeas) (s : State) : Host.Outcome State Fault Refusal :=
  .next (match s.check with
  | none => s
  | some c =>
    if !(checkAllowed s c.ch) then abortCheck s
    else if x.limited || s.sb.limited.contains c.ch then endCheck 3 0 0 s
    else match c.phase with
    | 0 =>
      if s.mono < c.since + 200 then s
      else onIsl c.ch (fun i => { i with checkDrive := some c.iTest })
        { s with check := some { c with vLo := x.vMean, phase := 1, since := s.mono } }
    | 1 =>
      if s.mono < c.since + 200 then s
      else
        let s := { s with check := some { c with vHi := x.vMean } }
        let pass := decide (8500 ≤ x.vMean - ((chanOf s c.ch).cfg.supAllow : Int))
        if !pass then endCheck 1 0 0 s
        else if c.trial then
          onIsl c.ch (fun i => { i with loopPowered := true })
            { s with check := some { c with vHi := x.vMean, phase := 2, since := s.mono } }
        else endCheck 0 0 0 s
    | _ =>
      if x.vMin < 7200 then endCheck 2 x.vMin x.heldMs s
      else if s.mono < c.since + c.trialMs then s
      else endCheck 0 x.vMin x.heldMs s)

/-- COMPLIANCE_CHECK (0x0707). -/
def complianceCheckSpec : OpSpec :=
  { auth := fun _ => 2
    role := fun s _ => drives s
    len := fun _ p => p.payload.length == 8
    run := fun k p s =>
      let b := p.payload
      let ch := fieldByte b 0
      let kind := fieldByte b 1
      let i := chanOf s ch
      let it := if fieldNat b 2 2 = 0 then budgetCode i.cfg else fieldNat b 2 2
      let tm := fieldNat b 4 2
      if 1 < kind then fail 0x0013 s
      else if 127 < ch || 48000 < it || (kind = 1 && (tm < 500 || 5000 < tm)) then fail 0x0014 s
      else if i.cfg.mode ≠ 1 then fail 0x0013 s
      else if !(checkAllowed s ch) then fail 0x0021 s
      else if s.check.isSome then fail 0x0022 s
      else
        { status := 2
          state := onIsl ch (fun i => { i with checkDrive := some 8000, checkBack := 0 })
            { s with check := some { ch := ch, trial := kind = 1, iTest := it, trialMs := tm, since := s.mono, task := taskOf k p } } } }

/-- COMPLIANCE_CHECK (R286, R287). -/
def execComplianceCheck (p : Packet) (s : State) : Host.Outcome State Fault Refusal :=
  .next (processPacket (some complianceCheckSpec) { p with opcode := 0x0707 } s)

/-- ISLAND_THERMAL_LIMIT (R459): the island enters FAULT, its points THROUGH. -/
def execIslandThermalLimit (ch : Nat) (s : State) : Host.Outcome State Fault Refusal :=
  .next (if islAlive s (chanOf s ch) then onIsl ch (fun i => { i with state := .fault, driven := 0xFFFF, holdAt := none }) s else s)

end Sys2Proof.Machine
end

