-- ==== Sys2Proof/Machine/Refs.lean ====
section
/-! DEFINITION. Position references and tracking (chapter 05): time alignment, voting, lever arms, target association,
enabling, and the opcodes of R160. -/

namespace Sys2Proof

/-- Voted quantities in the order of `RefSt.votes`. -/
def VoteQ.num : VoteQ → Nat
  | .heading => 0
  | .roll => 1
  | .pitch => 2
  | .heave => 3
  | .windSpeed => 4
  | .windDir => 5

/-- All voted quantities. -/
def voteQs : List VoteQ := [.heading, .roll, .pitch, .heave, .windSpeed, .windDir]

/-- The quantity of a vote in a record. -/
def VoteQ.quantity : VoteQ → Quantity
  | .heading => .heading
  | .roll => .roll
  | .pitch => .pitch
  | .heave => .heave
  | .windSpeed => .windSpeed
  | .windDir => .windDir

/-- The quantity that a sensor supplies as its rate. -/
def VoteQ.rateOf : VoteQ → Option Quantity
  | .heading => some .rateOfTurn
  | .roll => some .rollRate
  | .pitch => some .pitchRate
  | .heave => some .heaveRate
  | _ => none

/-- A sensor of a type supplies a quantity (Table 5-2). -/
def VoteQ.suppliedBy (q : VoteQ) (kind : Nat) : Bool :=
  match q with
  | .heading => kind == 0
  | .roll | .pitch | .heave => kind == 1
  | .windSpeed | .windDir => kind == 2

/-- Quantities voted on the circle (R139). -/
def VoteQ.angle : VoteQ → Bool
  | .heading | .windDir | .roll | .pitch => true
  | _ => false

/-- Process noise of a track, m² per second and axis (R148: only process noise; its value is not printed).
Assumption 29. -/
opaque Config.trackNoise : Qty

namespace Machine

/-! ### Settings and states -/

/-- The settings of a reference. -/
def refCfg (s : State) (i : Nat) : Option RefCfg := s.image.ref.refs.getD i none

/-- The settings of a sensor. -/
def senCfg (s : State) (i : Nat) : Option SenCfg := s.image.ref.sensors.getD i none

/-- The image defines a reference or sensor. -/
def unitDefined (s : State) (sensor : Bool) (i : Nat) : Bool :=
  if sensor then (senCfg s i).isSome else (refCfg s i).isSome

/-- Nominal period P, ns. -/
def periodNs (s : State) (sensor : Bool) (i : Nat) : Int :=
  if sensor then ((senCfg s i).map (·.periodNs)).getD 1000000000 else ((refCfg s i).map (·.periodNs)).getD 1000000000

/-- Maximum age, ns (R138). -/
def maxAgeNs (s : State) (sensor : Bool) (i : Nat) : Int :=
  if sensor then ((senCfg s i).map (·.maxAgeNs)).getD 2000000000 else ((refCfg s i).map (·.maxAgeNs)).getD 2000000000

/-- A reference tracks targets (Table 5-1: hydroacoustic, laser range). -/
def isTracking (s : State) (i : Nat) : Bool :=
  match refCfg s i with
  | some c => c.kind == 2 || c.kind == 3
  | none => false

/-- Table 5-10 codes. -/
def RefState.code : RefState → Nat
  | .unconfigured => 0
  | .disabled => 1
  | .noData => 2
  | .acquiring => 3
  | .active => 4
  | .unaligned => 5
  | .withheld => 6

/-- A value of a quantity list. -/
def valOf (l : List (Quantity × Qty)) (q : Quantity) : Option Qty := (l.find? (fun x => x.1 == q)).map (·.2)

/-- The frame boundary in ns of module time. -/
def boundNs (s : State) : Int := ((s.tt.bSec * 1000000000 + s.tt.bNs : Nat) : Int)

/-! ### The observer's prediction (R162, R184) -/

/-- The observer's states and covariance propagated to an instant with the vessel model of the image (R162, R178, R184: the
model's equations are not printed). Free value; assumption 105. -/
opaque Config.observerPredict : ImageFusion → ObsSt → Int → ObsSt
/-- The value of a voted quantity other than the heading that the observer predicts for an instant, from the attitude history
(R140: named, not given). Quantities are numbered as in `RefSt.votes`. Free value; assumption 104. -/
opaque Config.votePredicted : Nat → ObsSt → List (Int × Qty × Qty × Qty) → Int → Qty

/-- The observer's estimate at an instant: that of its newest run, or what the model predicts from it. -/
def obsAt (s : State) (t : Int) : ObsSt :=
  if t = s.obs.at_ then s.obs else Config.observerPredict s.image.fusion s.obs t

/-- North of the VRP in an estimate, wave component included (R185). -/
def ObsSt.vrpN (o : ObsSt) : Qty := o.n + o.waveN
/-- East of the VRP in an estimate, wave component included (R185). -/
def ObsSt.vrpE (o : ObsSt) : Qty := o.e + o.waveE

/-- Two stored points and an instant between them: the point on the straight line. -/
def between (a b : Int × Qty × Qty) (t : Int) : Qty × Qty :=
  let k : Qty := ((t - b.1 : Int) : Qty) / ((a.1 - b.1 : Int) : Qty)
  (b.2.1 + (a.2.1 - b.2.1) * k, b.2.2 + (a.2.2 - b.2.2) * k)

/-- The estimated VRP position at an instant (R144, R164): from the stored trajectory, and past its newest entry predicted. -/
def vrpAt (s : State) (t : Int) : Qty × Qty :=
  match s.obs.traj with
  | [] => let o := obsAt s t; (o.vrpN, o.vrpE)
  | p :: rest =>
    if p.1 ≤ t then let o := obsAt s t; (o.vrpN, o.vrpE)
    else match ((p :: rest).zip rest).find? (fun x => decide (x.2.1 ≤ t ∧ t < x.1.1)) with
      | some (a, b) => between a b t
      | none => let q := rest.getLast?.getD p; (q.2.1, q.2.2)

/-! ### Time of validity (R133 to R138) -/

/-- An anchored CONFIRMED track of a reference exists (R155, R159). -/
def hasAnchored (s : State) (i : Nat) : Bool :=
  s.ref.tracks.any (fun t => t.ref == i && t.state == .confirmed && t.anchor.isSome)

/-- The state of an object when a record of it is delivered (R159). -/
def deliveredState (s : State) (sensor : Bool) (i : Nat) : RefState :=
  if !sensor && isTracking s i && !(hasAnchored s i) && (unitOf s sensor i).state != .active
    && (unitOf s sensor i).state != .noData then .acquiring else .active

/-- Records delivered so far in this frame: the place of the next in arrival order (R149). -/
def arrivals (s : State) : Nat := (s.ref.refs.map (fun u => u.meas.length)).foldl (· + ·) 0

/-- The samples of an object that votes still need (R139), newest first: those of the last 200 ms before the boundary, twice the
longest delay, and of every kind of record the 16 newest. -/
def keepHist (bound : Int) (l : List Sample) : List Sample :=
  l.foldl (fun (acc : List Sample) h =>
    let same := acc.filter (fun x => x.vals.map (·.1) == h.vals.map (·.1))
    if bound ≤ h.tv + 200000000 || same.length < 16 then acc ++ [h] else acc) []

/-- A record delivered with its time of validity. -/
def deliver (p : Parsed) (tv : Int) (s : State) : State :=
  let a := p.arrival
  if a + 1000000 < tv then discardUnit p.sensor p.index (discard p.link 5 s)
  else if boundNs s - tv > maxAgeNs s p.sensor p.index then discardUnit p.sensor p.index (discard p.link 4 s)
  else if !p.sensor && !s.ref.attHist.isEmpty && s.ref.attHist.all (fun h => decide (tv < h.1)) then
    discardUnit p.sensor p.index (discard p.link 4 s)
  else
    let st := if (unitOf s p.sensor p.index).enabled then deliveredState s p.sensor p.index
              else (unitOf s p.sensor p.index).state
    let fresh := fun (u : RefUnit) => st == .active && (u.state == .acquiring || u.state == .noData)
    onUnit p.sensor p.index (fun u => { u with
      state := st
      proven := u.proven && !(fresh u)
      probation := if fresh u then 0 else u.probation
      updates := sat 32 (u.updates + 1)
      lastRx := some s.mono
      lastTv := some tv
      meas := u.meas ++ [{ tv, vals := p.vals, seq := arrivals s, fix := p.fix }]
      hist := keepHist (boundNs s) ({ tv, bind := p.bind, vals := p.vals } :: u.hist) }) s

/-- One update of a tagged binding (R135 to R137): the binding's alignment after it, and the time of validity where the record
is delivered. `o` is the raw offset, `P` the period; ns. The resolution of the offset is the model's: whole nanoseconds, d/64
and the rate times Δt rounded half to even at each update (DESIGN CHOICE, assumption 104). With Δt = 0 the rate stays. -/
def alignUpdate (u : Align) (o tau dt P lambdaMin : Int) : Align × Option Int :=
  if !u.seeded then
    ({ u with seeded := true, offset := o, rate := 0, aligned := true, k := 0 }, some (tau + o - lambdaMin))
  else if u.aligned then
    let pred := u.offset + roundEven (u.rate * dt)
    let d := o - pred
    if P < (d.natAbs : Int) then ({ u with aligned := false, offset := o, rate := 0, k := 0 }, none)
    else
      let off := if d < 0 then pred + d else pred + roundEven ((d : Qty) / 64)
      let rate := if dt = 0 then u.rate else clampQ (-200 / 1000000) (200 / 1000000) (u.rate + (d : Qty) / dt / 256)
      ({ u with offset := off, rate := rate }, some (tau + off - lambdaMin))
  else
    let d := o - u.offset
    if 5 * (d.natAbs : Int) ≤ P then
      let off := if d < 0 then u.offset + d else u.offset + roundEven ((d : Qty) / 64)
      if u.k + 1 = 3 then ({ u with aligned := true, offset := off, rate := 0, k := 3 }, some (tau + off - lambdaMin))
      else ({ u with offset := off, k := u.k + 1 }, none)
    else ({ u with offset := o, k := 0 }, none)

/-- The alignment of a binding of an object. -/
def RefUnit.alignOf (u : RefUnit) (b : Nat) : Align := u.align.getD b {}

/-- An object is TIME_UNALIGNED: each of its tagged bindings that has had an update is unaligned, there is one, and no binding
without a tag can deliver (R136). DESIGN CHOICE for an object of several bindings (assumption 104). -/
def unalignedNow (s : State) (sensor : Bool) (i : Nat) : Bool :=
  let u := unitOf s sensor i
  (bindingsOf s sensor i).all (fun b => b.tagged) && u.align.any (fun a => a.seeded) &&
    u.align.all (fun a => !a.seeded || !a.aligned)

/-- A tagged binding becomes TIME_UNALIGNED (R136): logged, vector 38; its samples from before the jump are let go, so that
nothing is interpolated across it. `d` is the jump in ns. -/
def enterUnaligned (sensor : Bool) (i b : Nat) (d : Int) (s : State) : State :=
  let s := onUnit sensor i (fun u => { u with
    unaligned := sat 16 (u.unaligned + 1), hist := u.hist.filter (fun h => h.bind != b) }) s
  let s := if unalignedNow s sensor i then
    onUnit sensor i (fun u => { u with state := if u.enabled then .unaligned else u.state }) s else s
  assertVec 38 (logL 5 1 (leBytes 1 (if sensor then 1 else 0) ++ leBytes 1 i ++ leInt 8 d) s)

/-- One parsed record aligned (R133 to R138). -/
def alignRecord (s : State) (p : Parsed) : State :=
  if p.internal then deliver p (p.tag.getD p.arrival) s
  else match p.tag with
    | none => deliver p (p.arrival - p.latency) s
    | some tau =>
      let a := (unitOf s p.sensor p.index).alignOf p.bind
      let o := p.arrival - tau
      let dt := p.arrival - a.lastA
      let (a', tv) := alignUpdate a o tau dt (periodNs s p.sensor p.index) p.lambdaMin
      let s := onUnit p.sensor p.index (fun u => { u with align := u.align.set p.bind { a' with lastA := p.arrival } }) s
      if a.aligned && a.seeded && !a'.aligned then
        enterUnaligned p.sensor p.index p.bind (o - (a.offset + roundEven (a.rate * dt))) s
      else
        let s := if !a.aligned && a'.aligned then
          logL 5 2 (leBytes 1 (if p.sensor then 1 else 0) ++ leBytes 1 p.index) s else s
        match tv with
        | none => s
        | some t => deliver p t s

/-- A missed update counted for one object. -/
def missUpdate (sensor : Bool) (i : Nat) (s : State) : State :=
  onUnit sensor i (fun u => { u with missed := sat 32 (u.missed + 1), lastMiss := s.mono }) s

/-- Every enabled object counts a missed update (R31, Table 2-2). -/
def missAll (s : State) : State :=
  allUnits.foldl (fun s x => if (unitOf s x.1 x.2).enabled then missUpdate x.1 x.2 s else s) s

/-- An object whose period has passed without a delivered record counts a missed update (assumption 28). -/
def missDue (s : State) : State :=
  allUnits.foldl (fun s x =>
    let u := unitOf s x.1 x.2
    let last := max (u.lastRx.getD 0) u.lastMiss
    if u.enabled && u.meas.isEmpty && periodNs s x.1 x.2 < (((s.mono - last) * 1000000 : Nat) : Int) then
      missUpdate x.1 x.2 s else s) s

/-! ### Attitude and lever arms (R141, R143) -/

/-- Heading, roll and pitch at a time: interpolated in the history, extrapolated with the voted rates past its newest
vote (R141). -/
def attitudeAt (s : State) (t : Int) : Qty × Qty × Qty :=
  match s.ref.attHist with
  | [] => ((obsAt s t).psi, 0, 0)
  | (t0, h0, r0, p0) :: rest =>
    if t0 ≤ t then
      let dt : Qty := ((t - t0 : Int) : Qty) / 1000000000
      let rate := fun n => (s.ref.votes.getD n {}).rate
      (wrap360 (h0 + rate 0 * dt), r0 + rate 1 * dt, p0 + rate 2 * dt)
    else
      match (s.ref.attHist.zip rest).find? (fun x => decide (x.2.1 ≤ t ∧ t < x.1.1)) with
      | none => (h0, r0, p0)
      | some ((ta, ha, ra, pa), (tb, hb, rb, pb)) =>
        let k : Qty := ((t - tb : Int) : Qty) / ((ta - tb : Int) : Qty)
        (wrap360 (hb + wrap180 (ha - hb) * k), rb + (ra - rb) * k, pb + (pa - pb) * k)

/-- A body vector turned into the earth frame by heading, roll and pitch: M of R143. -/
def toEarth (h roll pitch : Qty) (v : V3) : V3 :=
  let cr := Config.cosDeg roll
  let sr := Config.sinDeg roll
  let cp := Config.cosDeg pitch
  let sp := Config.sinDeg pitch
  let ch := Config.cosDeg h
  let sh := Config.sinDeg h
  let y1 := v.y * cr - v.z * sr
  let z1 := v.y * sr + v.z * cr
  let x2 := v.x * cp + z1 * sp
  let z2 := z1 * cp - v.x * sp
  { x := x2 * ch - y1 * sh, y := x2 * sh + y1 * ch, z := z2 }

/-- The lever arm with its applied refinement in the earth frame at a time (R143). -/
def leverEarth (s : State) (i : Nat) (t : Int) : V3 :=
  match refCfg s i with
  | none => {}
  | some c =>
    let u := s.ref.refs.getD i {}
    let (h, r, p) := attitudeAt s t
    toEarth h r p { x := c.lever.x + u.lever.appX, y := c.lever.y + u.lever.appY, z := c.lever.z }

/-! ### Voting (R139 to R142) -/

/-- The difference of two values of a voted quantity, on the circle for angles. -/
def voteDiff (q : VoteQ) (a b : Qty) : Qty := if q.angle then wrap180 (a - b) else a - b

/-- A value of a voted quantity in its range. -/
def voteNorm (q : VoteQ) (a : Qty) : Qty :=
  match q with
  | .heading | .windDir => wrap360 a
  | .roll | .pitch => wrap180 a
  | _ => a

/-- A sensor's samples of one quantity of its records, newest first: time, value, and the newest rate it supplies. -/
def samplesOf (s : State) (q : VoteQ) (cand : Nat) : List (Int × Qty × Option Qty) :=
  if ((senCfg s cand).map (fun c => q.suppliedBy c.kind)).getD false then
    let h := (unitOf s true cand).hist
    let rate := q.rateOf.bind (fun r => h.findSome? (fun x => valOf x.vals r))
    h.filterMap (fun x => (valOf x.vals q.quantity).map (fun v => (x.tv, v, rate)))
  else []

/-- A sensor's samples of the rate of a quantity, newest first; past the newest the rate is taken to stay. -/
def rateSamples (s : State) (q : VoteQ) (cand : Nat) : List (Int × Qty × Option Qty) :=
  match q.rateOf with
  | some r =>
    if ((senCfg s cand).map (fun c => q.suppliedBy c.kind)).getD false then
      (unitOf s true cand).hist.filterMap (fun x => (valOf x.vals r).map (fun v => (x.tv, v, some 0)))
    else []
  | none => []

/-- The baseline heading that an epoch gives with roll and pitch (R142). -/
def baselineHeading (s : State) (azim : Qty) (roll pitch : Qty) : Qty :=
  let g := s.image.gnss
  let bx := g.antB.x - g.antA.x
  let by' := g.antB.y - g.antA.y
  let bz := g.antB.z - g.antA.z
  let cr := Config.cosDeg roll
  let sr := Config.sinDeg roll
  let cp := Config.cosDeg pitch
  let sp := Config.sinDeg pitch
  let y1 := by' * cr - bz * sr
  let z1 := by' * sr + bz * cr
  let x2 := bx * cp + z1 * sp
  wrap360 (Config.f32 (azim - Config.atan2Deg y1 x2))

/-- The internal GNSS reference takes part: enabled, or disabled at this boundary (R139, R158). -/
def internalOn (s : State) : Bool :=
  (List.range 16).any (fun i => (refCfg s i).isSome && kindOf s false i == 0 &&
    ((unitOf s false i).enabled || (unitOf s false i).dropEnd))

/-- Samples of the baseline heading, candidate 24 of the heading vote (R142): the candidate belongs to the internal GNSS reference,
and exists only while the newest epoch delivers it; each epoch is turned by the voted roll and pitch at its own instant. -/
def baselineSamples (s : State) : List (Int × Qty × Option Qty) :=
  if !internalOn s || !s.gnss.heading || !(((s.gnss.held.head?).map (·.blOk)).getD false) then []
  else (s.gnss.held.filter (fun e => e.blOk)).map (fun e =>
    let (_, roll, pitch) := attitudeAt s e.tv
    (e.tv, baselineHeading s e.blAzim roll pitch, none))

/-- A candidate brought to the voting instant: interpolated between bracketing samples, or extrapolated from the newest
one for at most 2 P (R139). The spec does not say which rate serves where the sensor supplies none: here the difference of the
two newest samples, and no candidate with a single sample (DESIGN CHOICE, assumption 104). -/
def bringTo (q : VoteQ) (ts P : Int) (l : List (Int × Qty × Option Qty)) : Option Qty :=
  match l with
  | [] => none
  | (t0, v0, r0) :: rest =>
    if t0 = ts then some v0
    else if t0 < ts then
      if 2 * P < ts - t0 then none
      else
        let rate : Option Qty := match r0 with
          | some r => some (r / 1000000000)
          | none => match rest with
            | (t1, v1, _) :: _ => if t1 < t0 then some (voteDiff q v0 v1 / ((t0 - t1 : Int) : Qty)) else none
            | [] => none
        rate.map (fun r => voteNorm q (v0 + r * ((ts - t0 : Int) : Qty)))
    else
      match (l.zip rest).find? (fun x => decide (x.2.1 ≤ ts ∧ ts < x.1.1)) with
      | none => none
      | some ((ta, va, _), (tb, vb, _)) =>
        some (voteNorm q (vb + voteDiff q va vb * (((ts - tb : Int) : Qty) / ((ta - tb : Int) : Qty))))

/-- The voting instant of this frame (R139). -/
def voteInstant (s : State) : Int := boundNs s - s.image.ref.voteDelayNs

/-- A sensor may be a candidate: enabled, or disabled at this boundary, and not TIME_UNALIGNED (R139, R158). -/
def mayVote (s : State) (i : Nat) : Bool :=
  let u := s.ref.sens.getD i {}
  (u.enabled || u.dropEnd) && !(unalignedNow s true i)

/-- The values of every candidate for a quantity in this frame, DEVIATING ones included (R139). -/
def candidates (s : State) (q : VoteQ) : List (Nat × Qty) :=
  let ts := voteInstant s
  let sens := (List.range 24).filterMap (fun i =>
    if mayVote s i then (bringTo q ts (periodNs s true i) (samplesOf s q i)).map (fun v => (i, v)) else none)
  let base := match q with
    | .heading => match bringTo q ts (1000000000 / (max 1 s.gnss.rate : Nat)) (baselineSamples s) with
      | some v => [(24, v)]
      | none => []
    | _ => []
  sens ++ base

/-- The rates that the candidates supply for a quantity in this frame, per second (R125, R139). -/
def rateCandidates (s : State) (q : VoteQ) : List (Nat × Qty) :=
  let ts := voteInstant s
  (List.range 24).filterMap (fun i =>
    if mayVote s i then (bringTo .heave ts (periodNs s true i) (rateSamples s q i)).map (fun v => (i, v)) else none)

/-- A list put in rising order. -/
def sortQ : List Qty → List Qty
  | [] => []
  | x :: t =>
    let rec ins (x : Qty) : List Qty → List Qty
      | [] => [x]
      | y :: r => if x ≤ y then x :: y :: r else y :: ins x r
    ins x (sortQ t)

/-- The median of at least one value; of an even number the mean of the middle two. -/
def medianQ (l : List Qty) : Qty :=
  let m := sortQ l
  let n := m.length
  if n % 2 = 1 then m.getD (n / 2) 0 else (m.getD (n / 2 - 1) 0 + m.getD (n / 2) 0) / 2

/-- Threshold of a quantity (R140). -/
def voteThr (s : State) : VoteQ → Qty
  | .heading => s.image.ref.thrHeading
  | .roll | .pitch => s.image.ref.thrRollPitch
  | .heave => s.image.ref.thrHeave
  | .windSpeed => s.image.ref.thrWindSpeed
  | .windDir => s.image.ref.thrWindDir

/-- The value that the observer predicts for a quantity at the voting instant (R140). -/
def predicted (s : State) (q : VoteQ) : Qty :=
  match q with
  | .heading => (obsAt s (voteInstant s)).psi
  | q => Config.votePredicted q.num s.obs s.ref.attHist (voteInstant s)

/-- Result of a vote: value, status (0 none, 1 SENSOR_CONFLICT, 2 SENSOR_SINGLE, 3 SENSOR_NONE), and the candidates in conflict
or the single one (Table 5-6). Of two conflicting candidates equally close to the prediction the first stands (DESIGN CHOICE;
assumption 115). -/
def voteResult (s : State) (q : VoteQ) (c : List (Nat × Qty)) : Option Qty × Nat × List Nat :=
  match c with
  | [] => (none, 3, [])
  | [(i, v)] => (some v, 2, [i])
  | [(i, a), (j, b)] =>
    let d := voteDiff q b a
    if absQ d ≤ voteThr s q then (some (voteNorm q (a + d / 2)), 0, [])
    else
      let p := predicted s q
      (some (if absQ (voteDiff q b p) < absQ (voteDiff q a p) then b else a), 1, [i, j])
  | (_, v0) :: _ => (some (voteNorm q (v0 + medianQ (c.map (fun x => voteDiff q x.2 v0)))), 0, [])

/-- A candidate's onsets against the voted value (R140): beyond the threshold, and within half of it. -/
def candOnsets (s : State) (q : VoteQ) (value : Option Qty) (all : List (Nat × Qty)) (n : Nat) (i : Nat) (c : Cand) : Cand :=
  match value, all.find? (fun x => x.1 == i) with
  | some v, some (_, x) =>
    let d := absQ (voteDiff q x v)
    { c with outSince := onset s c.outSince (decide (3 ≤ n) && decide (voteThr s q < d)),
             inSince := onset s c.inSince (decide (2 * d ≤ voteThr s q)) }
  | _, _ => { c with outSince := none, inSince := none }

/-- The voted rate of a quantity (R125, R141): the median of three or more supplied rates, the mean of two, the single one; where
none is supplied, the difference of this vote and the one before over the time between them. DESIGN CHOICE (assumption 104): the
spec gives no threshold for rates. -/
def votedRate (s : State) (q : VoteQ) (live : List (Nat × Qty)) (value : Option Qty) : Qty :=
  match live with
  | [] =>
    let v := s.ref.votes.getD q.num {}
    match v.value, value with
    | some a, some b => if v.at_ < voteInstant s then voteDiff q b a * 1000000000 / ((voteInstant s - v.at_ : Int) : Qty) else v.rate
    | _, _ => 0
  | l => medianQ (l.map (·.2))

/-- One quantity voted in this frame (R139 to R141). -/
def voteOne (s : State) (q : VoteQ) : State :=
  let v := s.ref.votes.getD q.num {}
  let all := candidates s q
  let agrees := fun (x : Nat × Qty) => !(v.cands.getD x.1 {}).deviating
  let live := all.filter agrees
  let (value, status, conf) := voteResult s q live
  let rate := votedRate s q ((rateCandidates s q).filter agrees) value
  let cands := v.cands.mapIdx (fun i c => candOnsets s q value all live.length i c)
  let v' : Vote := { value, rate, at_ := voteInstant s, status, conflict := conf, cands }
  let s' := { s with ref.votes := s.ref.votes.set q.num v' }
  if status = 1 && v.status ≠ 1 then
    assertVec 38 (logL 5 4 (leBytes 1 q.num ++ leBytes 1 1 ++ leBytes 4 (maskOf conf)) s')
  else if status = 3 && v.status ≠ 3 then
    assertVec 38 (logL 5 4 (leBytes 1 q.num ++ leBytes 1 2 ++ leBytes 4 0) s')
  else s'

/-- The newest voted heading, roll and pitch kept with the time of the vote; without a candidate the observer predicts them
(R140, R141). -/
def keepAttitude (s : State) : State :=
  let get := fun q => ((s.ref.votes.getD (VoteQ.num q) {}).value).getD (predicted s q)
  { s with ref.attHist := ((voteInstant s, get .heading, get .roll, get .pitch) :: s.ref.attHist).take 200 }

/-- While the internal receiver gives no position its references are WITHHELD (R119, R122, Table 5-10). -/
def withholdInternal (s : State) : State :=
  if gnssSilent s then
    { s with ref.refs := s.ref.refs.mapIdx (fun i u =>
        if u.enabled && (refCfg s i).isSome && kindOf s false i == 0 then { u with state := .withheld } else u) }
  else s

/-- TIME_ALIGNMENT (R133 to R141): activity 1. -/
def execTimeAlignment (s : State) : Host.Outcome State Fault Refusal :=
  .next (if mayRun 1 s then
    if works s then
      let s := { s with
        ref.refs := s.ref.refs.map (fun u => { u with meas := [] })
        ref.sens := s.ref.sens.map (fun u => { u with meas := [] }) }
      let s := if s.inp.noSet then missAll s else missDue (s.inp.parsed.foldl alignRecord s)
      let s := keepAttitude (voteQs.foldl voteOne (withholdInternal s))
      completeAct 1 { s with ref.sens := s.ref.sens.map (fun u => { u with dropEnd := false }) }
    else completeAct 1 s
  else s)

/-- SENSOR_DEVIATING (R140): more than the threshold from the median for 5 s. -/
def execSensorDeviating (q : VoteQ) (cand : Nat) (s : State) : Host.Outcome State Fault Refusal :=
  let c := (s.ref.votes.getD q.num {}).cands.getD cand {}
  .next (if !c.deviating && heldFor s c.outSince 5000 then
    logL 5 4 (leBytes 1 q.num ++ leBytes 1 0 ++ leBytes 4 (2 ^ cand))
      { s with ref.votes := s.ref.votes.modify q.num (fun v =>
          { v with cands := v.cands.modify cand (fun c => { c with deviating := true, outSince := none, inSince := none }) }) }
  else s)

/-- SENSOR_READMIT (R140): within half the threshold for 30 s. -/
def execSensorReadmit (q : VoteQ) (cand : Nat) (s : State) : Host.Outcome State Fault Refusal :=
  let c := (s.ref.votes.getD q.num {}).cands.getD cand {}
  .next (if c.deviating && heldFor s c.inSince 30000 then
    { s with ref.votes := s.ref.votes.modify q.num (fun v =>
        { v with cands := v.cands.modify cand (fun c => { c with deviating := false, outSince := none, inSince := none }) }) }
  else s)

/-- REF_NO_DATA (R159): ACTIVE with no delivered record for 3 P. -/
def execRefNoData (sensor : Bool) (index : Nat) (s : State) : Host.Outcome State Fault Refusal :=
  let u := unitOf s sensor index
  let late := match u.lastRx with
    | none => true
    | some t => decide (3 * periodNs s sensor index ≤ (((s.mono - t) * 1000000 : Nat) : Int))
  .next (if u.state == .active && late then onUnit sensor index (fun u => { u with state := .noData }) s else s)

/-! ### Target association (R149 to R157) -/

/-- What a measurement of a target gives: its place in the body frame, only its slant range, or only its bearing about the bow
(Table 6-2). -/
inductive Sight where
  | place (rel : V3)
  | range (r : Qty)
  | bearing (b : Qty)
deriving DecidableEq, Repr

/-- One row: reference, time of validity, place in the arrival order, what is seen, elevation where it is given, the earth
position of the measuring point and the heading at that time, code, and quality. -/
structure Row where
  ref : Nat := 0
  tv : Int := 0
  seq : Nat := 0
  sight : Sight := .range 0
  elevation : Option Qty := none
  point : V3 := {}
  relEarth : V3 := {}
  hdg : Qty := 0
  code : Option Nat := none
  quality : Qty := 0
deriving DecidableEq, Repr

/-- What a record sees of its target: relative x, y and depth; range and bearing with an elevation; or one of the two. -/
def sightOf (vals : List (Quantity × Qty)) : Option Sight :=
  match valOf vals .relX, valOf vals .relY with
  | some x, some y => some (.place { x, y, z := (valOf vals .relDepth).getD 0 })
  | _, _ => match valOf vals .range, valOf vals .bearing with
    | some r, some b =>
      let e := (valOf vals .elevation).getD 0
      let h := r * Config.cosDeg e
      some (.place { x := h * Config.cosDeg b, y := h * Config.sinDeg b, z := -(r * Config.sinDeg e) })
    | some r, none => some (.range r)
    | none, some b => some (.bearing b)
    | none, none => none

/-- The length of a body vector. -/
def rangeOf (v : V3) : Qty := Config.sqrt (v.x * v.x + v.y * v.y + v.z * v.z)

/-- A slant range inside the gates of a reference. -/
def rangeOk (c : RefCfg) (r : Qty) : Bool := decide (c.rangeMin ≤ r) && decide (r ≤ c.rangeMax)
/-- A bearing about the bow inside the sector of a reference. -/
def sectorOk (c : RefCfg) (b : Qty) : Bool := decide (absQ (wrap180 (b - c.sectorCentre)) ≤ c.sectorHalf)

/-- Inside the acceptance gates of a reference (R149), as far as the measurement can be held against them. -/
def inGates (c : RefCfg) : Sight → Bool
  | .place v => rangeOk c (rangeOf v) && sectorOk c (Config.atan2Deg v.y v.x)
  | .range r => rangeOk c r
  | .bearing b => sectorOk c b

/-- The estimated earth position of a reference's measuring point at a time. -/
def pointAt (s : State) (i : Nat) (t : Int) : V3 :=
  let l := leverEarth s i t
  let p := vrpAt s t
  { x := p.1 + l.x, y := p.2 + l.y, z := l.z }

/-- The row of a delivered measurement of a tracking reference, when it lies inside the gates (R149). -/
def rowOf (s : State) (i : Nat) (c : RefCfg) (m : Meas) : Option Row :=
  match sightOf m.vals with
  | none => none
  | some x =>
    let q := (valOf m.vals .quality).getD 0
    if inGates c x && decide (c.qualityMin ≤ q) then
      let (h, r, p) := attitudeAt s m.tv
      some { ref := i, tv := m.tv, seq := m.seq, sight := x, elevation := valOf m.vals .elevation, point := pointAt s i m.tv, hdg := h
             relEarth := match x with
               | .place v => toEarth h r p v
               | _ => {}
             code := (valOf m.vals .targetCode).map (fun v => (roundEven v).toNat), quality := q }
    else none

/-- A row put in arrival order. -/
def insertRow (r : Row) : List Row → List Row
  | [] => [r]
  | x :: t => if r.seq < x.seq then r :: x :: t else x :: insertRow r t

/-- The rows of a frame before the limit of 128, in arrival order (R149). -/
def rowsOf (s : State) : List Row :=
  ((List.range 16).map (fun i => match refCfg s i with
    | none => []
    | some c => if isTracking s i then (s.ref.refs.getD i {}).meas.filterMap (rowOf s i c) else [])).flatten.foldl
    (fun l r => insertRow r l) []

/-- The target position that a row of a placed target gives. -/
def Row.pos (r : Row) : V3 :=
  { x := r.point.x + r.relEarth.x, y := r.point.y + r.relEarth.y, z := r.point.z + r.relEarth.z }

/-- A live track (Table 5-9). -/
def Track.live (t : Track) : Bool := t.state != .free

/-- Inverse of a symmetric matrix given by its three entries. -/
def inv2 (m : Qty × Qty × Qty) : Qty × Qty × Qty :=
  let d := m.1 * m.2.2 - m.2.1 * m.2.1
  (m.2.2 / d, -m.2.1 / d, m.1 / d)

/-- The quadratic form of a symmetric matrix. -/
def quad2 (m : Qty × Qty × Qty) (x y : Qty) : Qty := m.1 * x * x + 2 * m.2.1 * x * y + m.2.2 * y * y

/-- The sum of two symmetric matrices. -/
def add2 (a b : Qty × Qty × Qty) : Qty × Qty × Qty := (a.1 + b.1, a.2.1 + b.2.1, a.2.2 + b.2.2)

/-- Radians of an angle in degrees, as the lanes compute it. Free value; assumption 3. -/
opaque Config.radOfDeg : Qty → Qty

/-- Horizontal covariance of a sight along a line in the earth frame: σ_ρ along it and ρσ_β across it (Table 6-2). -/
def sightCov (c : RefCfg) (n e : Qty) : Qty × Qty × Qty :=
  let rho := Config.sqrt (n * n + e * e)
  let al := c.sigmaRange * c.sigmaRange
  let ac := rho * Config.radOfDeg c.sigmaBearing * (rho * Config.radOfDeg c.sigmaBearing)
  if rho = 0 then (al, 0, al)
  else
    let un := n / rho
    let ue := e / rho
    (al * un * un + ac * ue * ue, (al - ac) * un * ue, al * ue * ue + ac * un * un)

/-- Variance in the vertical of a sight: that across the line of sight (assumption 104). -/
def sightVarD (c : RefCfg) (v : V3) : Qty :=
  let rho := rangeOf v
  let a := rho * Config.radOfDeg c.sigmaBearing
  max (c.sigmaRange * c.sigmaRange) (a * a)

/-- A track predicted to a time: no motion, only process noise (R148, R150). -/
def predictTrack (tv : Int) (t : Track) : Track :=
  let q := Config.trackNoise * (((max 0 (tv - t.tv) : Int) : Qty) / 1000000000)
  { t with varN := t.varN + q, varE := t.varE + q, varD := t.varD + q, tv := max t.tv tv }

/-- Horizontal covariance of a track. -/
def Track.cov (t : Track) : Qty × Qty × Qty := (t.varN, t.covNE, t.varE)

/-- What a row of only a range or only a bearing measures of a track (R150): the difference from the prediction, its direction
in the horizontal plane and downwards, and the variance of the measurement, all in m. -/
def lineInnov (c : RefCfg) (r : Row) (t : Track) : Qty × V3 × Qty :=
  let n := t.pos.x - r.point.x
  let e := t.pos.y - r.point.y
  let d := t.pos.z - r.point.z
  match r.sight with
  | .bearing b =>
    let rho := Config.sqrt (n * n + e * e)
    let a := wrap180 (r.hdg + b - Config.atan2Deg e n)
    let sg := rho * Config.radOfDeg c.sigmaBearing
    (rho * Config.radOfDeg a, { x := -(e / rho), y := n / rho, z := 0 }, sg * sg)
  | .range x =>
    let rho := Config.sqrt (n * n + e * e + d * d)
    (x - rho, { x := n / rho, y := e / rho, z := d / rho }, c.sigmaRange * c.sigmaRange)
  | .place _ => (0, {}, 1)

/-- Variance of a track along a direction. -/
def Track.varAlong (t : Track) (u : V3) : Qty := quad2 t.cov u.x u.y + t.varD * u.z * u.z

/-- Squared Mahalanobis distance of a row and a track predicted to the row's time, with the sum of the track covariance and the
measurement covariance (R150). -/
def mahal2 (s : State) (r : Row) (t : Track) : Qty :=
  let c := (refCfg s r.ref).getD {}
  let t := predictTrack r.tv t
  match r.sight with
  | .place _ =>
    let p := r.pos
    let dz := p.z - t.pos.z
    Config.f32 (quad2 (inv2 (add2 t.cov (sightCov c r.relEarth.x r.relEarth.y))) (p.x - t.pos.x) (p.y - t.pos.y) +
      dz * dz / (t.varD + sightVarD c r.relEarth))
  | _ =>
    let (d, u, v) := lineInnov c r t
    Config.f32 (d * d / (t.varAlong u + v))

/-- The gate of a reference. -/
def gateOf (s : State) (i : Nat) : Qty := match refCfg s i with | some c => c.assocGate | none => 0

/-- Cost of a row and a track, none when forbidden (R150). -/
def costOf (s : State) (r : Row) (t : Track) : Option Int :=
  if !t.live || t.ref ≠ r.ref || t.code ≠ r.code then none
  else
    let d2 := mahal2 s r t
    if gateOf s r.ref < d2 then none else some (roundHalf (32 * d2))

/-- The state of the auction: prices, owners of the track columns, and each row's column (some none: its own). -/
structure Auction where
  price : List Int
  owner : List (Option Nat)
  col : List (Option (Option Nat))
deriving DecidableEq, Repr

/-- Best column and the second-best value of a row: the lowest track number first among equals, its own column last
(assumption 29). -/
def bestCol (cost : List (Option Int)) (own : Int) (price : List Int) : Option Nat × Int × Int :=
  let opts := (cost.zipIdx.filterMap (fun x => x.1.map (fun c => (some x.2, -c - price.getD x.2 0)))) ++ [(none, -own)]
  let best := opts.foldl (fun (b : Option (Option Nat × Int)) o => match b with
    | none => some o
    | some x => if x.2 < o.2 then some o else some x) none
  match best with
  | none => (none, 0, 0)
  | some (j, v) =>
    let others := (opts.filter (fun o => o.1 ≠ j)).map (·.2)
    (j, v, others.foldl (fun m x => max m x) (others.headD v))

/-- One Jacobi round of the auction (R151). -/
def auctionRound (costs : List (List (Option Int))) (owns : List Int) (a : Auction) : Auction :=
  let bids := (List.range a.col.length).filterMap (fun i =>
    if (a.col.getD i none).isSome then none
    else let (j, v1, v2) := bestCol (costs.getD i []) (owns.getD i 0) a.price
         some (i, j, v1 - v2 + 1))
  let a := bids.foldl (fun (a : Auction) b => if b.2.1.isNone then { a with col := a.col.set b.1 (some none) } else a) a
  (List.range a.price.length).foldl (fun (a : Auction) j =>
    let mine := bids.filter (fun b => b.2.1 == some j)
    match mine.foldl (fun (w : Option (Nat × Int)) b => match w with
      | none => some (b.1, b.2.2)
      | some x => if x.2 < b.2.2 then some (b.1, b.2.2) else some x) none with
    | none => a
    | some (i, amt) =>
      let col := match a.owner.getD j none with
        | some o => a.col.set o none
        | none => a.col
      { price := a.price.modify j (· + amt), owner := a.owner.set j (some i), col := col.set i (some (some j)) }) a

/-- Exactly 64 rounds (R151); whether a row was left over. -/
def auction (costs : List (List (Option Int))) (owns : List Int) (cols : Nat) : List (Option Nat) × Bool :=
  let a0 : Auction := { price := List.replicate cols 0, owner := List.replicate cols none, col := List.replicate costs.length none }
  let a := (List.range 64).foldl (fun a _ => auctionRound costs owns a) a0
  (a.col.map (fun c => c.join), a.col.any (fun c => c.isNone))

/-- The estimate of a track after a row (R153): a linear update with the measurement covariance. -/
def updateTrack (s : State) (r : Row) (t : Track) : Track :=
  let c := (refCfg s r.ref).getD {}
  let t := predictTrack r.tv t
  let f := Config.f32
  match r.sight with
  | .place _ =>
    let p := r.pos
    let (a, b, d) := t.cov
    let i := inv2 (add2 t.cov (sightCov c r.relEarth.x r.relEarth.y))
    let k11 := a * i.1 + b * i.2.1
    let k12 := a * i.2.1 + b * i.2.2
    let k21 := b * i.1 + d * i.2.1
    let k22 := b * i.2.1 + d * i.2.2
    let dn := p.x - t.pos.x
    let de := p.y - t.pos.y
    let kd := t.varD / (t.varD + sightVarD c r.relEarth)
    { t with
      pos := { x := f (t.pos.x + k11 * dn + k12 * de), y := f (t.pos.y + k21 * dn + k22 * de), z := f (t.pos.z + kd * (p.z - t.pos.z)) }
      varN := f (a - (k11 * a + k12 * b))
      covNE := f (b - (k11 * b + k12 * d))
      varE := f (d - (k21 * b + k22 * d))
      varD := f (t.varD - kd * t.varD) }
  | _ =>
    let (d, u, v) := lineInnov c r t
    let w := t.varAlong u + v
    let gn := t.varN * u.x + t.covNE * u.y
    let ge := t.covNE * u.x + t.varE * u.y
    let gd := t.varD * u.z
    { t with
      pos := { x := f (t.pos.x + gn * d / w), y := f (t.pos.y + ge * d / w), z := f (t.pos.z + gd * d / w) }
      varN := f (t.varN - gn * gn / w)
      covNE := f (t.covNE - gn * ge / w)
      varE := f (t.varE - ge * ge / w)
      varD := f (t.varD - gd * gd / w) }

/-- A hit on a track (R153, R154): the update of its estimate, its score and its state. -/
def hitTrack (s : State) (r : Row) (c : Int) (t : Track) : Track :=
  let n := t.refUpdates + 1
  { updateTrack s r t with
    score := min 32767 (t.score + roundHalf (32 * gateOf s r.ref) - c)
    hits := sat 8 (t.hits + 1)
    misses := 0
    refUpdates := n
    earlyHits := if n ≤ 5 then t.earlyHits + 1 else t.earlyHits
    lastHit := s.mono
    state := if t.state == .coasting then .confirmed else t.state }

/-- A reference update that gave a track no row: a miss when its prediction lies inside the gates (R153, R154). -/
def missTrack (penalty : Int) (inside : Bool) (t : Track) : Track :=
  let n := t.refUpdates + 1
  if !inside then { t with refUpdates := n }
  else
    { t with
      score := max (-32768) (t.score - penalty)
      misses := sat 8 (t.misses + 1)
      refUpdates := n
      earlyMisses := if n ≤ 5 then t.earlyMisses + 1 else t.earlyMisses
      state := if t.state == .confirmed then .coasting else t.state }

/-- Table 5-9 after the hit or miss. -/
def lifeCycle (deleteCount : Nat) (t : Track) : Track :=
  match t.state with
  | .tentative =>
    if 3 ≤ t.earlyMisses || t.score < 0 then {}
    else if 3 ≤ t.earlyHits && 1024 ≤ t.score then { t with state := .confirmed }
    else t
  | .coasting => if deleteCount ≤ t.misses then {} else t
  | _ => t

/-- The catalogue entry that a CONFIRMED track is anchored to (R155). -/
def anchorFor (s : State) (tracks : List Track) (t : Track) : Option Nat :=
  match refCfg s t.ref with
  | none => none
  | some c =>
    let held := tracks.filterMap (fun x => if x.live && x.ref == t.ref then x.anchor else none)
    match t.code with
    | some k => ((c.catalogue.zipIdx).find? (fun x => x.1.code == some k && !held.contains x.2)).map (·.2)
    | none =>
      let near := (c.catalogue.zipIdx).filterMap (fun x =>
        let dx := x.1.pos.x - t.pos.x
        let dy := x.1.pos.y - t.pos.y
        let dz := x.1.pos.z - t.pos.z
        let d := dx * dx + dy * dy + dz * dz
        if d ≤ c.anchorDist * c.anchorDist && !held.contains x.2 then some (x.2, d) else none)
      (near.foldl (fun (b : Option (Nat × Qty)) x => match b with
        | none => some x
        | some y => if x.2 < y.2 then some x else some y) none).map (·.1)

/-- Every CONFIRMED track without an anchor anchored in track order. -/
def anchorAll (s : State) (tracks : List Track) : List Track :=
  (List.range tracks.length).foldl (fun (l : List Track) j =>
    let t := l.getD j {}
    if t.state == .confirmed && t.anchor.isNone then l.set j { t with anchor := anchorFor s l t } else l) tracks

/-- Score of a candidate (R154): 256 and its quality scaled to 0 to 255. The quality a reference gives is taken to be on that scale
already (DESIGN CHOICE; assumption 115). -/
def candScore (r : Row) : Int := 256 + clampI 0 255 (roundHalf r.quality)

/-- No live track holds the code of a transponder row (R153). -/
def codeFree (tracks : List Track) (r : Row) : Bool := r.code.isNone || !tracks.any (fun t => t.live && t.code == r.code)

/-- A row that becomes a candidate (R153): a transponder's code is in the catalogue of its reference. A row of only a range or only
a bearing gives a track no position and becomes none (DESIGN CHOICE, assumption 104). -/
def isCandidate (s : State) (r : Row) : Bool :=
  (match r.sight with | .place _ => true | _ => false) &&
  match r.code with
  | none => true
  | some k => match refCfg s r.ref with
    | some c => c.catalogue.any (fun t => t.code == some k)
    | none => false

/-- A new track for a candidate, with the covariance of its measurement. -/
def newTrack (s : State) (r : Row) : Track :=
  let c := (refCfg s r.ref).getD {}
  let v := sightCov c r.relEarth.x r.relEarth.y
  { state := .tentative, ref := r.ref, score := candScore r, pos := r.pos, varN := v.1, covNE := v.2.1, varE := v.2.2,
    varD := sightVarD c r.relEarth, tv := r.tv, lastHit := s.mono, code := r.code }

/-- TRACK_OVERFLOW for a reference (R156): counted, logged at most once per minute. -/
def trackOverflow (i : Nat) (s : State) : State :=
  let u := s.ref.refs.getD i {}
  let s := { s with ref.overflow := sat 32 (s.ref.overflow + 1),
                    ref.refs := s.ref.refs.modify i (fun u => { u with overflowAt := some s.mono, overflowCount := sat 32 (u.overflowCount + 1) }) }
  let due := match u.overflowLog with | none => true | some t => decide (t + 60000 ≤ s.mono)
  if due then
    let s := logL 5 6 (leBytes 1 i ++ leBytes 4 (u.overflowCount + 1)) s
    { s with ref.refs := s.ref.refs.modify i (fun u => { u with overflowLog := some s.mono, overflowCount := 0 }) }
  else s

/-- One candidate placed (R156); `fresh` are the tracks created in this frame. A transponder whose code a live track holds by now is
discarded (R153). -/
def placeCandidate (x : State × List Nat) (r : Row) : State × List Nat :=
  let (s, fresh) := x
  if !codeFree s.ref.tracks r then x
  else match s.ref.tracks.findIdx? (fun t => t.state == .free) with
  | some j => ({ s with ref.tracks := s.ref.tracks.set j (newTrack s r) }, j :: fresh)
  | none =>
    let worst := (s.ref.tracks.zipIdx).foldl (fun (b : Option (Nat × Int)) t =>
      if t.1.state == .tentative && !fresh.contains t.2 then
        (match b with
          | none => some (t.2, t.1.score)
          | some y => if t.1.score ≤ y.2 then some (t.2, t.1.score) else some y)
      else b) none
    match worst with
    | some (j, sc) =>
      if sc < candScore r then ({ s with ref.tracks := s.ref.tracks.set j (newTrack s r) }, j :: fresh)
      else (trackOverflow r.ref s, fresh)
    | none => (trackOverflow r.ref s, fresh)

/-- Candidates in descending score, ties in ascending row index (R157). -/
def orderCandidates (l : List Row) : List Row :=
  l.foldl (fun acc r =>
    (acc.takeWhile (fun x => decide (candScore r ≤ candScore x))) ++ [r] ++
      (acc.dropWhile (fun x => decide (candScore r ≤ candScore x)))) []

/-- Tracks of a reference set FREE. -/
def freeTracks (i : Nat) (s : State) : State :=
  { s with ref.tracks := s.ref.tracks.map (fun t => if t.ref == i then {} else t) }

/-- A track's prediction inside the gates of its reference, seen from the vessel predicted to the frame boundary (R153). -/
def trackInGates (s : State) (t : Track) : Bool :=
  match refCfg s t.ref with
  | none => false
  | some c =>
    let o := pointAt s t.ref (boundNs s)
    let n := t.pos.x - o.x
    let e := t.pos.y - o.y
    let (h, _, _) := attitudeAt s (boundNs s)
    let ch := Config.cosDeg h
    let sh := Config.sinDeg h
    inGates c (.place { x := n * ch + e * sh, y := e * ch - n * sh, z := t.pos.z - o.z })

/-- What the anchored CONFIRMED tracks yield of the rows assigned to them (R155): positions of the measured point, and
measurements of only a range or only a bearing. -/
def anchoredRows (s : State) (tracks : List Track) (l : List (Row × Option Nat)) : List (Nat × Int × V3 × V3) × List LineFix :=
  let hits := l.filterMap (fun x => match x.2 with
    | none => none
    | some j =>
      let t := tracks.getD j {}
      match t.state, t.anchor, refCfg s x.1.ref with
      | .confirmed, some a, some c => some (x.1, (c.catalogue.getD a {}).pos)
      | _, _, _ => none)
  (hits.filterMap (fun x => match x.1.sight with
    | .place _ =>
      let p := x.2
      let d := x.1.relEarth
      some (x.1.ref, x.1.tv, { x := p.x - d.x, y := p.y - d.y, z := p.z - d.z }, d)
    | _ => none),
   hits.filterMap (fun x => match x.1.sight with
    | .place _ => none
    | .range r => some { ref := x.1.ref, tv := x.1.tv, target := x.2, range := some r, elevation := x.1.elevation }
    | .bearing b => some { ref := x.1.ref, tv := x.1.tv, target := x.2, bearing := some b, elevation := x.1.elevation }))

/-- Target association on this frame's measurements (R149 to R157). -/
def associate (s : State) : State :=
  let rows := rowsOf s
  let extra := rows.drop 128
  let rows := rows.take 128
  let s := { s with
    ref.rowDrops := sat 32 (s.ref.rowDrops + extra.length)
    ref.refs := s.ref.refs.mapIdx (fun i u => { u with rowDrop := extra.any (fun r => r.ref == i) })
    ref.fixes := []
    ref.lines := [] }
  let costs := rows.map (fun r => s.ref.tracks.map (costOf s r))
  let owns := rows.map (fun r => roundHalf (32 * gateOf s r.ref))
  let (cols, left) := auction costs owns s.ref.tracks.length
  let s0 := s
  let delivered := fun (i : Nat) => !(s0.ref.refs.getD i {}).meas.isEmpty
  let tracks := s0.ref.tracks.mapIdx (fun j t =>
    if !t.live then t
    else
      let del := match refCfg s0 t.ref with | some c => c.deleteCount | none => 10
      let pen := match refCfg s0 t.ref with | some c => c.missPenalty | none => 256
      match cols.findIdx? (fun c => c == some j) with
      | some i => lifeCycle del (hitTrack s0 (rows.getD i {}) (((costs.getD i []).getD j none).getD 0) t)
      | none => if delivered t.ref then lifeCycle del (missTrack pen (trackInGates s0 t) t) else t)
  let tracks := anchorAll s0 tracks
  let (fixes, lines) := anchoredRows s0 tracks (rows.zip cols)
  let cands := orderCandidates ((rows.zip cols).filterMap (fun x =>
    if x.2.isNone && isCandidate s0 x.1 then some x.1 else none))
  let s := { s with ref.tracks := tracks, ref.fixes := fixes, ref.lines := lines,
                    ref.unconverged := sat 32 (s.ref.unconverged + if left then 1 else 0) }
  let s := (cands.foldl placeCandidate (s, [])).1
  let s := (List.range 16).foldl (fun s i =>
    let u := s.ref.refs.getD i {}
    let s := if u.dropEnd then freeTracks i s else s
    if isTracking s i && u.enabled && u.state == .acquiring && u.lastRx.isSome && hasAnchored s i then
      onUnit false i (fun u => { u with state := .active, proven := false, probation := 0 }) s else s) s
  s

/-- The most that target association is charged, µs (R152), for the rows and live tracks of this frame. -/
def assocCharge (s : State) : Nat :=
  let m : Qty := (min 128 (rowsOf s).length : Nat)
  let n : Qty := ((s.ref.tracks.filter Track.live).length : Nat)
  (250 + 43 / 100 * m * (n + m)).floor.toNat

/-- TARGET_ASSOCIATION (R149 to R157): activity 2. -/
def execTargetAssociation (s : State) : Host.Outcome State Fault Refusal :=
  .next (if mayRun 2 s then completeIn 2 (assocCharge s) (if works s then associate s else s) else s)

/-! ### Opcodes (R160) -/

/-- A command that enables or disables a reference or sensor (R61, R64). -/
def refSetSpec (on : Bool) : OpSpec :=
  { auth := fun _ => 1
    len := fun _ p => p.payload.length == 4
    run := fun _ p s =>
      let kind := fieldByte p.payload 0
      let i := fieldByte p.payload 1
      let sensor := kind = 1
      if 1 < kind || (if sensor then 23 else 15) < i || !(unitDefined s sensor i) then fail 0x0013 s
      else
        let u := unitOf s sensor i
        let res := fun f => leBytes 1 kind ++ leBytes 1 i ++ leBytes 1 u.state.code ++ zeros 1 ++ leBytes 4 f
        if u.enabled = on && !waits (.refSet sensor i on) s then { status := 0, result := res 0, state := s }
        else { status := 1, result := res (effectFrame s), state := defer (.refSet sensor i on) s } }

/-- REF_ENABLE (0x0301). -/
def execRefEnable (p : Packet) (s : State) : Host.Outcome State Fault Refusal :=
  .next (processPacket (some (refSetSpec true)) { p with opcode := 0x0301 } s)

/-- REF_DISABLE (0x0302). -/
def execRefDisable (p : Packet) (s : State) : Host.Outcome State Fault Refusal :=
  .next (processPacket (some (refSetSpec false)) { p with opcode := 0x0302 } s)

/-- An enable or disable takes effect at the boundary (R61, R62, R135, R158, R159). -/
def applyRefSet (sensor : Bool) (i : Nat) (on : Bool) (s : State) : State :=
  onUnit sensor i (fun u =>
    if u.enabled = on then u
    else if on then { u with enabled := true, state := .acquiring, align := u.align.map (fun _ => {}), lastRx := none, lastTv := none,
                             hist := [], dropEnd := false }
    else { u with enabled := false, state := .disabled, dropEnd := true, fusion := 0, probation := 0 }) s

/-- A binding of the object carries a time tag. -/
def unitTagged (s : State) (sensor : Bool) (i : Nat) : Bool := (bindingsOf s sensor i).any (fun b => b.tagged)

/-- The alignment that REF_STATUS shows: that of the first tagged binding (DESIGN CHOICE for several, assumption 104). -/
def shownAlign (s : State) (sensor : Bool) (i : Nat) : Align :=
  match (bindingsOf s sensor i).findIdx? (fun b => b.tagged) with
  | some b => (unitOf s sensor i).alignOf b
  | none => {}

/-- Live tracks of a reference. -/
def liveTracks (s : State) (i : Nat) : Nat := (s.ref.tracks.filter (fun t => t.live && t.ref == i)).length

/-- Flags of a REF_STATUS entry (Table 5-11). -/
def refFlags (s : State) (sensor : Bool) (i : Nat) : Nat :=
  let u := unitOf s sensor i
  let ov := match u.overflowAt with | none => false | some t => decide (s.mono < t + 60000)
  bitN (unitTagged s sensor i) 0 + bitN (unalignedNow s sensor i) 1 +
    bitN (sensor && s.ref.votes.any (fun v => (v.cands.getD i {}).deviating)) 2 +
    bitN (sensor && s.ref.votes.any (fun v => v.status == 1 && v.conflict.contains i)) 3 +
    bitN (sensor && s.ref.votes.any (fun v => v.status == 2 && v.conflict.contains i)) 4 +
    bitN (!sensor && u.lever.state == 4) 5 + bitN ov 6 + bitN u.rowDrop 7

/-- A REF_STATUS entry (Table 5-11). -/
def refEntry (s : State) (sensor : Bool) (i : Nat) : List Byte :=
  let u := unitOf s sensor i
  let kind := if sensor then ((senCfg s i).map (·.kind)).getD 0 else ((refCfg s i).map (·.kind)).getD 0
  let al := shownAlign s sensor i
  let age := match u.lastTv with
    | none => 0xFFFFFFFF
    | some t => sat 32 ((boundNs s - t) / 1000000).toNat
  leBytes 1 (if sensor then 1 else 0) ++ leBytes 1 i ++ leBytes 1 kind ++ leBytes 1 u.state.code ++
    leBytes 2 (refFlags s sensor i) ++ leBytes 1 (if sensor then 255 else u.fusion) ++ leBytes 1 al.k ++
    leBytes 4 u.updates ++ leBytes 4 u.missed ++ leInt 8 al.offset ++
    f32Bytes al.rate ++ leBytes 4 age ++ leBytes 2 u.unaligned ++
    leBytes 2 (if sensor then 0 else liveTracks s i) ++ leBytes 4 u.discards

/-- REF_STATUS (0x0303). -/
def refStatusSpec : OpSpec :=
  { len := fun _ p => p.payload.length == 4
    run := fun _ p s =>
      let kind := fieldByte p.payload 0
      let i := fieldByte p.payload 1
      if kind = 255 then
        let l := allUnits.filter (fun x => unitDefined s x.1 x.2)
        { status := 0, result := leBytes 1 l.length ++ zeros 3 ++ (l.map (fun x => refEntry s x.1 x.2)).flatten, state := s }
      else if 1 < kind || !(unitDefined s (kind = 1) i) then fail 0x0013 s
      else { status := 0, result := leBytes 1 1 ++ zeros 3 ++ refEntry s (kind = 1) i, state := s } }

/-- REF_STATUS (R160). -/
def execRefStatus (p : Packet) (s : State) : Host.Outcome State Fault Refusal :=
  .next (processPacket (some refStatusSpec) { p with opcode := 0x0303 } s)

/-- A LEVER_ARM_GET entry (Table 5-12) of a reference whose refinement is `v`. -/
def leverBytes (s : State) (i : Nat) (v : Lever) : List Byte :=
  let l := ((refCfg s i).map (·.lever)).getD {}
  leBytes 1 i ++ leBytes 1 v.state ++ zeros 2 ++ f32Bytes l.x ++ f32Bytes l.y ++ f32Bytes l.z ++ f32Bytes v.estX ++
    f32Bytes v.estY ++ f32Bytes v.appX ++ f32Bytes v.appY ++ f32Bytes v.sigX ++ f32Bytes v.sigY ++
    f32Bytes (v.spanHi - v.spanLo) ++ leBytes 4 v.updates

/-- The entry of a reference as it stands. -/
def leverEntry (s : State) (i : Nat) : List Byte := leverBytes s i (s.ref.refs.getD i {}).lever

/-- LEVER_ARM_GET (0x0304). -/
def leverGetSpec : OpSpec :=
  { len := fun _ p => p.payload.length == 4
    run := fun _ p s =>
      let i := fieldByte p.payload 0
      if i = 255 then
        let l := (List.range 16).filter (fun i => unitDefined s false i)
        { status := 0, result := leBytes 1 l.length ++ zeros 3 ++ (l.map (leverEntry s)).flatten, state := s }
      else if !(unitDefined s false i) then fail 0x0013 s
      else { status := 0, result := leBytes 1 1 ++ zeros 3 ++ leverEntry s i, state := s } }

/-- LEVER_ARM_GET (R160). -/
def execLeverArmGet (p : Packet) (s : State) : Host.Outcome State Fault Refusal :=
  .next (processPacket (some leverGetSpec) { p with opcode := 0x0304 } s)

/-- A LEVER_ARM_FREEZE finds its reference already in the requested state (R64): frozen for a freeze, learning for an
unfreeze; a freeze in LIMIT and a reset are never found so. -/
def leverAlready (op : Nat) (v : Lever) : Bool := (op = 0 && v.state = 3) || (op = 1 && (v.state = 1 || v.state = 2))

/-- LEVER_ARM_FREEZE (0x0305). -/
def leverFreezeSpec : OpSpec :=
  { auth := fun p => if fieldByte p.payload 1 = 0 then 1 else 2
    len := fun _ p => p.payload.length == 4
    run := fun _ p s =>
      let i := fieldByte p.payload 0
      let op := fieldByte p.payload 1
      let v := (s.ref.refs.getD i {}).lever
      if !(unitDefined s false i) || 2 < op || v.state = 0 || v.state = 5 then fail 0x0013 s
      else
        let res := leverBytes s i (s.ref.leverSnap.getD i {})
        if leverAlready op v && !waits (.lever i op) s then { status := 0, result := res, state := s }
        else { status := 1, result := res, state := defer (.lever i op) s } }

/-- LEVER_ARM_FREEZE (R146, R160). -/
def execLeverArmFreeze (p : Packet) (s : State) : Host.Outcome State Fault Refusal :=
  .next (processPacket (some leverFreezeSpec) { p with opcode := 0x0305 } s)

/-- The initial 1σ of the refinement filter (not printed). Assumption 30. -/
def leverSigma0 : Qty := 1

/-- A LEVER_ARM_FREEZE takes effect (R160): freeze from LEARNING or CONVERGED; unfreeze from FROZEN or LIMIT with the
estimate kept and the initial covariance; reset with an estimate of 0. The bias of the filter and its count of updates stay (DESIGN
CHOICE; assumption 115). -/
def applyLever (i op : Nat) (s : State) : State :=
  onUnit false i (fun u =>
    let v := u.lever
    let learn := { v with state := 1, sigX := leverSigma0, sigY := leverSigma0, cov := List.replicate 10 0, hdg := none, spanLo := 0,
                          spanHi := 0, okSince := none }
    { u with lever :=
        if op = 0 then (if v.state = 1 || v.state = 2 then { v with state := 3 } else v)
        else if op = 1 then (if v.state = 3 || v.state = 4 then learn else v)
        else { learn with estX := 0, estY := 0 } }) s

/-- Table 5-9 codes. -/
def TrackState.code : TrackState → Nat
  | .free => 0
  | .tentative => 1
  | .confirmed => 2
  | .coasting => 3

/-- A track entry (Table 5-13). -/
def trackEntry (s : State) (j : Nat) : List Byte :=
  let t := s.ref.tracks.getD j {}
  leBytes 1 j ++ leBytes 1 (if t.live then t.ref else 255) ++ leBytes 1 t.state.code ++ leBytes 1 (t.anchor.getD 255) ++
    leInt 2 t.score ++ leBytes 1 t.hits ++ leBytes 1 t.misses ++ f32Bytes t.pos.x ++ f32Bytes t.pos.y ++ f32Bytes t.pos.z ++
    f32Bytes (Config.sqrt t.varN) ++ f32Bytes (Config.sqrt t.varE) ++ f32Bytes (Config.sqrt t.varD) ++
    leBytes 4 (sat 32 (s.mono - t.lastHit)) ++ leBytes 2 (t.code.getD 0xFFFF) ++ zeros 2

/-- TRACK_TABLE_READ (0x0306). -/
def trackReadSpec : OpSpec :=
  { len := fun _ p => p.payload.length == 4
    run := fun _ p s =>
      let first := fieldByte p.payload 0
      let n := fieldByte p.payload 1
      let free := (fieldByte p.payload 2).testBit 0
      if n = 0 || 96 < first + n then fail 0x0014 s
      else
        let l := ((List.range n).map (· + first)).filter (fun j => free || (s.ref.tracks.getD j {}).live)
        { status := 0
          result := leBytes 1 l.length ++ zeros 1 ++ leBytes 2 (s.ref.tracks.filter Track.live).length ++
            leBytes 4 s.ref.overflow ++ leBytes 4 s.ref.rowDrops ++ (l.map (trackEntry s)).flatten
          state := s } }

/-- TRACK_TABLE_READ (R160). -/
def execTrackTableRead (p : Packet) (s : State) : Host.Outcome State Fault Refusal :=
  .next (processPacket (some trackReadSpec) { p with opcode := 0x0306 } s)

end Machine
end Sys2Proof
end

