-- ==== Sys2Proof/Machine/Fusion.lean ====
section
/-! DEFINITION. Fusion grid and observer (chapter 06): kernels, peaks, the decision between references, the conflict,
the observer, the DP alarm level, and the opcodes of R195. The filter equations of the observer and of the lever-arm
refinement are not printed; they are free values (assumption 36) and the numbered rules are laid over them. -/

namespace Sys2Proof.Machine

/-- Where the weight of a taut wire lies (not in the manual). Free value; assumption 31. -/
opaque Config.weightAt : Nat → V3

/-- The wave-frequency amplitude of a component from its two states and the wave period (Table 6-11 names it, R184 prints no equation).
Free value; assumption 36. -/
opaque Config.waveAmp : Qty → Qty → Qty → Qty

/-- What the observer takes in one run (R184, R185): handed measurement and the fusion instant, voted heading and its voting
instant, delivered force and moment, apparent wind (zero without a candidate), the output instant to propagate to, and the
settings with the vessel model and the process noise. -/
structure ObsIn where
  meas : Option (Qty × Qty × Qty × Qty × Qty) := none
  measAt : Int := 0
  heading : Option Qty := none
  headAt : Int := 0
  force : Qty × Qty × Qty := (0, 0, 0)
  wind : Qty × Qty := (0, 0)
  outAt : Int := 0
  cfg : ImageFusion := {}
deriving DecidableEq, Repr, Inhabited

/-- The observer's equations with the vessel model of the image (R184: not printed). Free value; assumption 36. -/
opaque Config.observerStep : ObsIn → ObsSt → ObsSt
/-- The lever-arm filter's equations: residual north and east, heading, filter (R144: not printed). Assumption 36. -/
opaque Config.leverStep : Qty → Qty → Qty → Lever → Lever

/-! ### Two by two covariances -/

/-- Larger and smaller principal standard deviation of a covariance. -/
def principal (m : Qty × Qty × Qty) : Qty × Qty :=
  let h := (m.1 + m.2.2) / 2
  let d := Config.sqrt ((m.1 - m.2.2) / 2 * ((m.1 - m.2.2) / 2) + m.2.1 * m.2.1)
  (Config.sqrt (h + d), Config.sqrt (h - d))

/-- An estimate's position covariance. -/
def ObsSt.cov (o : ObsSt) : Qty × Qty × Qty := (o.pNN, o.pNE, o.pEE)

/-- The estimate predicted to the fusion instant: its position is p̂ and its covariance P (R162, R178). -/
def predNow (s : State) : ObsSt := obsAt s (boundNs s)

/-! ### Kernels (Table 6-1) -/

/-- Pitch of the grid, m (R161). -/
def gridPitch : Qty := 25 / 1000

/-- Cells on each axis (R161). -/
def gridSize : Nat := 512

/-- North of a row of a grid (R161). -/
def cellN (g : Grid) (r : Int) : Qty := g.n + ((r - 256 : Int) : Qty) * gridPitch
/-- East of a column of a grid (R161). -/
def cellE (g : Grid) (c : Int) : Qty := g.e + ((c - 256 : Int) : Qty) * gridPitch

/-- The cost of one term at a point, before rounding and clamping (Table 6-1). -/
def termCost (cap : Nat) (k : Kernel) (n e : Qty) : Qty :=
  match k with
  | .gauss mn me a b c => 32 * quad2 (inv2 (a, b, c)) (n - mn) (e - me)
  | .ring qn qe rho sg =>
    let d := (Config.sqrt ((n - qn) * (n - qn) + (e - qe) * (e - qe)) - rho) / sg
    32 * d * d
  | .bearing qn qe beta sg =>
    if (n - qn) * (n - qn) + (e - qe) * (e - qe) < 25 / 10000 then 0
    else
      let a := absQ (wrap180 (Config.atan2Deg (e - qe) (n - qn) - beta))
      if 90 ≤ a then cap else 32 * (a / sg) * (a / sg)
  | .table tn te hdg t scale pitch =>
    let ch := Config.cosDeg hdg
    let sh := Config.sinDeg hdg
    let x := (n - tn) * ch + (e - te) * sh
    let y := (e - te) * ch - (n - tn) * sh
    let w := (pitch : Qty) * gridPitch
    let i := (x / w).floor + 16
    let j := (y / w).floor + 16
    if 0 ≤ i && i < 32 && 0 ≤ j && j < 32 then ((scale * t.getD (i.toNat * 32 + j.toNat) 0 : Nat) : Qty) else cap

/-- A reference's kernel at a point: its terms rounded half to even, summed, then clamped to its cap (R168). -/
def kernelCost (k : RefKernel) (n e : Qty) : Nat :=
  min k.cap ((k.terms.map (fun t => (roundEven (termCost k.cap t n e)).toNat)).foldl (· + ·) 0)

/-- A reference's kernel clamped but not rounded (R174). -/
def kernelExact (k : RefKernel) (n e : Qty) : Qty :=
  min (k.cap : Qty) ((k.terms.map (fun t => termCost k.cap t n e)).foldl (· + ·) 0)

/-- The cost of a cell: the sum of the clamped kernels (R163). -/
def cellSum (g : Grid) (r c : Nat) : Nat :=
  (g.kernels.map (fun k => kernelCost k (cellN g r) (cellE g c))).foldl (· + ·) 0

/-- The best peak: the cell of lowest sum; ties to the lowest row, then the lowest column (R171). -/
def bestPeak (g : Grid) : Option (Nat × Nat × Nat) :=
  (List.range gridSize).foldl (fun b r => (List.range gridSize).foldl (fun (b : Option (Nat × Nat × Nat)) c =>
    let v := cellSum g r c
    match b with
    | none => some (r, c, v)
    | some x => if v < x.2.2 then some (r, c, v) else b) b) none

/-- No cell of the 3 by 3 neighbourhood is lower (R172). -/
def isMinimum (g : Grid) (r c : Nat) : Bool :=
  let v := cellSum g r c
  [r - 1, r, r + 1].all (fun r' => [c - 1, c, c + 1].all (fun c' =>
    !(decide (r' < gridSize) && decide (c' < gridSize)) || decide (v ≤ cellSum g r' c')))

/-- The distance of two row or column numbers. -/
def natDist (a b : Nat) : Nat := (a - b) + (b - a)

/-- The second peak (R172). -/
def secondPeak (g : Grid) (excl : Nat) (best : Nat × Nat × Nat) : Option (Nat × Nat × Nat) :=
  (List.range gridSize).foldl (fun b r => (List.range gridSize).foldl (fun (b : Option (Nat × Nat × Nat)) c =>
    if natDist r best.1 ≤ excl && natDist c best.2.1 ≤ excl then b
    else if !(isMinimum g r c) then b
    else
      let v := cellSum g r c
      match b with
      | none => some (r, c, v)
      | some x => if v < x.2.2 then some (r, c, v) else b) b) none

/-- The references that support a peak (R173). -/
def supporters (g : Grid) (thr : Nat) (p : Option (Nat × Nat × Nat)) : List Nat :=
  match p with
  | none => []
  | some (r, c, _) =>
    (g.kernels.filter (fun k => decide (kernelCost k (cellN g r) (cellE g c) ≤ thr))).map (·.ref)

/-- The fit of a peak from its supporters (R174): position and covariance, none when the Hessian is not positive
definite. -/
def peakFit (g : Grid) (sup : List Nat) (p : Nat × Nat × Nat) : Option (Qty × Qty × Qty × Qty × Qty) :=
  let ks := g.kernels.filter (fun k => sup.contains k.ref)
  let C := fun (i j : Int) =>
    Config.f32 ((ks.map (fun k => kernelExact k (cellN g (p.1 + i)) (cellE g (p.2.1 + j)))).foldl (· + ·) 0)
  let h := gridPitch
  let gN := (C 1 0 - C (-1) 0) / (2 * h)
  let gE := (C 0 1 - C 0 (-1)) / (2 * h)
  let hNN := (C 1 0 - 2 * C 0 0 + C (-1) 0) / (h * h)
  let hEE := (C 0 1 - 2 * C 0 0 + C 0 (-1)) / (h * h)
  let hNE := (C 1 1 - C 1 (-1) - C (-1) 1 + C (-1) (-1)) / (4 * h * h)
  if hNN ≤ 0 || hNN * hEE - hNE * hNE ≤ 0 then none
  else
    let i := inv2 (hNN, hNE, hEE)
    let oN := clampQ (-h) h (-(i.1 * gN + i.2.1 * gE))
    let oE := clampQ (-h) h (-(i.2.1 * gN + i.2.2 * gE))
    let sN := max (Config.sqrt (64 * i.1)) (1 / 100)
    let sE := max (Config.sqrt (64 * i.2.2)) (1 / 100)
    let rho := i.2.1 / (Config.sqrt i.1 * Config.sqrt i.2.2)
    some (Config.f32 (cellN g p.1 + oN), Config.f32 (cellE g p.2.1 + oE), sN * sN, rho * sN * sE, sE * sE)

/-- Within 2 cells of the grid edge (R175). -/
def nearEdge (p : Nat × Nat × Nat) : Bool := decide (p.1 < 2) || decide (510 ≤ p.1) || decide (p.2.1 < 2) || decide (510 ≤ p.2.1)

/-! ### Terms of a frame (R164 to R169) -/

/-- The estimated VRP displacement from `tv` to the fusion instant, from the stored trajectory (R164). -/
def displacement (s : State) (tv : Int) : Qty × Qty :=
  if boundNs s ≤ tv then (0, 0)
  else
    let a := vrpAt s (boundNs s)
    let b := vrpAt s tv
    (a.1 - b.1, a.2 - b.2)

/-- The increase of a covariance over the same time (R164): the horizontal velocity covariance times its square. -/
def driftCov (s : State) (tv : Int) : Qty × Qty × Qty :=
  let dt : Qty := ((boundNs s - tv : Int) : Qty) / 1000000000
  (dt * dt * s.obs.pVNN, dt * dt * s.obs.pVNE, dt * dt * s.obs.pVEE)

/-- A Gaussian term at the fusion instant from a VRP position at `tv` with its covariance. -/
def gaussAt (s : State) (tv : Int) (p : V3) (m : Qty × Qty × Qty) : Kernel :=
  let (dn, de) := displacement s tv
  let v := add2 m (driftCov s tv)
  .gauss (p.x + dn) (p.y + de) v.1 v.2.1 v.2.2

/-- The lever arm of a measurement: antenna B of the internal receiver under ANTENNA_FAULT (Table 5-1). -/
def leverOf (s : State) (i : Nat) (m : Meas) : V3 :=
  if ((m.fix.map (·.antB)).getD false) then
    let u := s.ref.refs.getD i {}
    let b := s.image.gnss.antB
    let (h, r, p) := attitudeAt s m.tv
    toEarth h r p { x := b.x + u.lever.appX, y := b.y + u.lever.appY, z := b.z }
  else leverEarth s i m.tv

/-- The covariance of a Gaussian measurement (R124, R166): that of the image, of an external fix by its quality; an internal
epoch's own covariance scales it up, each axis to the larger of the two 1σ, with the epoch's correlation; DEGRADED multiplies it
by 4 (R111). How far the source scales it up is the model's reading (DEDUCED, assumption 31). -/
def measCov (c : RefCfg) (m : Meas) : Qty × Qty × Qty :=
  let base := if c.kind = 1 then
      match (valOf m.vals .quality).bind (fun q => c.covByQuality.find? (fun x => x.1 == (roundEven q).toNat)) with
      | some x => x.2
      | none => c.cov
    else c.cov
  match m.fix with
  | none => base
  | some f =>
    let sn := max (Config.sqrt base.1) f.sigmaN
    let se := max (Config.sqrt base.2.2) f.sigmaE
    let k : Qty := if f.degraded then 4 else 1
    (k * sn * sn, k * f.rhoNE * sn * se, k * se * se)

/-- The reference may be used in this frame: ACTIVE, or disabled with its last gathered measurements (R62). -/
def usableRef (s : State) (i : Nat) : Bool :=
  (refCfg s i).isSome && ((s.ref.refs.getD i {}).state == .active || (s.ref.refs.getD i {}).dropEnd)

/-- The Gaussian measurements of a reference in this frame as terms (R166, Table 6-2). The sign of the taut-wire angles is the
model's: the gimbal lies at the weight plus depth times the tangent of the angle, fore-aft and athwart, turned by heading alone, the
wire angles being taken from the vertical (DESIGN CHOICE, assumption 104). -/
def gaussTerms (s : State) (i : Nat) : List Kernel :=
  match refCfg s i with
  | none => []
  | some c =>
    let meas := (s.ref.refs.getD i {}).meas
    let vrp := fun (m : Meas) (p : V3) =>
      let l := leverOf s i m
      ({ x := p.x - l.x, y := p.y - l.y, z := p.z - l.z } : V3)
    if c.kind = 0 || c.kind = 1 then
      meas.filterMap (fun m => match valOf m.vals .north, valOf m.vals .east with
        | some n, some e => some (gaussAt s m.tv (vrp m { x := n, y := e, z := (valOf m.vals .down).getD 0 }) (measCov c m))
        | _, _ => none)
    else if c.kind = 4 then
      meas.filterMap (fun m => match valOf m.vals .wireFore, valOf m.vals .wireAthwart with
        | some f, some a =>
          let (h, _, _) := attitudeAt s m.tv
          let x := c.weightDepth * (Config.sinDeg f / Config.cosDeg f)
          let y := c.weightDepth * (Config.sinDeg a / Config.cosDeg a)
          let w := Config.weightAt i
          let o := toEarth h 0 0 { x := x, y := y, z := 0 }
          some (gaussAt s m.tv (vrp m { x := w.x + o.x, y := w.y + o.y, z := 0 }) (measCov c m))
        | _, _ => none)
    else
      (s.ref.fixes.filter (fun f => f.1 == i)).map (fun f =>
        gaussAt s f.2.1 (vrp { tv := f.2.1 } f.2.2.1) (sightCov c f.2.2.2.x f.2.2.2.y))

/-- Mean and information of Gaussian terms. -/
def gaussMeanOf (l : List Kernel) : Option Kernel :=
  let parts := l.filterMap (fun k => match k with
    | .gauss n e a b c => some (n, e, inv2 (a, b, c))
    | _ => none)
  match parts with
  | [] => none
  | _ =>
    let i := parts.foldl (fun (x : Qty × Qty × Qty) p => (x.1 + p.2.2.1, x.2.1 + p.2.2.2.1, x.2.2 + p.2.2.2.2)) (0, 0, 0)
    let v := parts.foldl (fun (x : Qty × Qty) p =>
      (x.1 + p.2.2.1 * p.1 + p.2.2.2.1 * p.2.1, x.2 + p.2.2.2.1 * p.1 + p.2.2.2.2 * p.2.1)) (0, 0)
    let c := inv2 i
    some (.gauss (c.1 * v.1 + c.2.1 * v.2) (c.2.1 * v.1 + c.2.2 * v.2) c.1 c.2.1 c.2.2)

/-- Squared distance of a Gaussian term's mean from another term's mean in that term's own covariance. -/
def dist2 (k m : Kernel) : Qty :=
  match k, m with
  | .gauss n e a b c, .gauss n' e' _ _ _ => quad2 (inv2 (a, b, c)) (n - n') (e - e')
  | _, _ => 0

/-- The combined Gaussian term of a reference and its internal outliers (R167). -/
def combineGauss (g : Qty) (l : List Kernel) : Option Kernel × Nat :=
  match gaussMeanOf l with
  | none => (none, 0)
  | some m =>
    let keep := l.filter (fun k => decide (dist2 k m ≤ g))
    if keep.length = l.length then (some m, 0) else (gaussMeanOf keep, l.length - keep.length)

/-- A measurement of only a range or only a bearing as a term with its sorting width (Table 6-2, R155, R164, R169). Its σ grows
over the time to the fusion instant by the velocity covariance along or across the line of sight (assumption 105). -/
def lineTerm (s : State) (c : RefCfg) (f : LineFix) : Option (Kernel × Qty) :=
  let l := leverEarth s f.ref f.tv
  let (dn, de) := displacement s f.tv
  let qn := f.target.x - l.x + dn
  let qe := f.target.y - l.y + de
  let o := predNow s
  let n := o.vrpN - qn
  let e := o.vrpE - qe
  let d := Config.sqrt (n * n + e * e)
  let v := driftCov s f.tv
  match f.range, f.bearing with
  | some r, _ =>
    let dz := f.target.z - l.z
    let rho := match f.elevation with
      | some el => r * Config.cosDeg el
      | none => Config.sqrt (max 0 (r * r - dz * dz))
    some (.ring qn qe rho (Config.sqrt (c.sigmaRange * c.sigmaRange + quad2 v (n / d) (e / d))), c.sigmaRange)
  | none, some b =>
    let (h, _, _) := attitudeAt s f.tv
    let grow := quad2 v (-(e / d)) (n / d) / (d * d) * Config.degPerRad * Config.degPerRad
    some (.bearing qn qe (wrap360 (h + b + 180)) (Config.sqrt (c.sigmaBearing * c.sigmaBearing + grow)),
          d * Config.radOfDeg c.sigmaBearing)
  | none, none => none

/-- Ring and bearing terms of a reference. -/
def lineTerms (s : State) (i : Nat) : List (Kernel × Qty) :=
  match refCfg s i with
  | some c => (s.ref.lines.filter (fun f => f.ref == i)).filterMap (lineTerm s c)
  | none => []

/-- The table term of a reference from its newest measurement (R167). -/
def tableTerm (s : State) (i : Nat) : Option Kernel :=
  match refCfg s i with
  | none => none
  | some c => match c.tableKernel, (gaussTerms s i).getLast? with
    | some (t, scale, pitch), some (.gauss n e _ _ _) =>
      let (h, _, _) := attitudeAt s (boundNs s)
      some (.table n e h t scale pitch)
    | _, _ => none

/-- The main term of a reference (Gaussian or table) and its outliers. -/
def mainTerm (s : State) (i : Nat) : Option Kernel × Nat :=
  match (refCfg s i).bind (·.tableKernel) with
  | some _ => (tableTerm s i, 0)
  | none => combineGauss s.image.fusion.gObs (gaussTerms s i)

/-- Ring and bearing terms put in rising order of width. -/
def sortLines : List (Nat × Kernel × Qty) → List (Nat × Kernel × Qty)
  | [] => []
  | x :: t =>
    let rec ins (x : Nat × Kernel × Qty) : List (Nat × Kernel × Qty) → List (Nat × Kernel × Qty)
      | [] => [x]
      | y :: r => if x.2.2 ≤ y.2.2 then x :: y :: r else y :: ins x r
    ins x (sortLines t)

/-- The number of ring and bearing terms rendered (R169, R170): the image's B, or what the fusion budget leaves. -/
def lineLimit (s : State) (gauss : Nat) : Nat :=
  let left : Qty := (s.tt.budget.getD 3 0 : Qty) - 4789 / 10 - 6554 / 100 * gauss
  min s.image.fusion.ringTerms (left / (9830 / 100)).floor.toNat

/-- What a reference brings to this frame: its main term, and its rendered ring and bearing terms. -/
structure RefTerms where
  ref : Nat := 0
  main : Option Kernel := none
  lines : List Kernel := []
deriving DecidableEq, Repr

/-- Everything that the usable references measure in this frame, rendered or not, and the internal outliers. -/
def allTerms (s : State) : List RefTerms × Nat :=
  let refs := (List.range 16).filter (fun i => usableRef s i)
  let mains := refs.map (fun i => (i, mainTerm s i))
  (mains.map (fun m => { ref := m.1, main := m.2.1, lines := (lineTerms s m.1).map (·.1) }),
   (mains.map (fun m => m.2.2)).foldl (· + ·) 0)

/-- A reference may be rendered (Table 6-3): out of PROBATION and not EXCLUDED. -/
def mayRender (s : State) (i : Nat) : Bool := (s.ref.refs.getD i {}).proven && !(s.ref.refs.getD i {}).excluded

/-- What is rendered of them, and the number of ring and bearing terms dropped (R169): the narrowest of the references that may be
rendered. -/
def frameTerms (s : State) (all : List RefTerms) : List RefTerms × Nat :=
  let refs := all.filter (fun t => mayRender s t.ref)
  let lines := sortLines ((refs.map (fun t => (lineTerms s t.ref).map (fun l => (t.ref, l.1, l.2)))).flatten)
  let b := lineLimit s (refs.filter (fun t => t.main.isSome)).length
  let kept := lines.take b
  (refs.map (fun t => { t with lines := (kept.filter (fun l => l.1 == t.ref)).map (·.2.1) }), (lines.drop b).length)

/-- A reference has something to render. -/
def RefTerms.some' (t : RefTerms) : Bool := t.main.isSome || !t.lines.isEmpty

/-- The kernel of a reference. -/
def kernelOf (s : State) (t : RefTerms) : RefKernel :=
  { ref := t.ref, terms := t.main.toList ++ t.lines, cap := ((refCfg s t.ref).map (·.cap)).getD 1152 }

/-! ### The innovation gate (R178) -/

/-- Position and covariance of a term's mean: for a table, the configured one. -/
def meanOf (s : State) (i : Nat) (k : Kernel) : Option (Qty × Qty × Qty × Qty × Qty) :=
  match k with
  | .gauss n e a b c => some (n, e, a, b, c)
  | .table n e _ _ _ _ => some (n, e, ((refCfg s i).map (·.cov)).getD (1, 0, 1))
  | _ => none

/-- A measurement passes the gate against the predicted position p̂ and its covariance P (R178). -/
def gateMeas (s : State) (m : Qty × Qty × Qty × Qty × Qty) : Bool :=
  let o := predNow s
  decide (quad2 (inv2 (add2 m.2.2 o.cov)) (m.1 - o.vrpN) (m.2.1 - o.vrpE) ≤ s.image.fusion.gObs)

/-- A kernel with each σ enlarged by `x` metres (R178); a bearing's σ by the angle that `x` spans at the distance of p̂ (DEDUCED,
assumption 105). -/
def enlarge (o : ObsSt) (x : Qty) (k : Kernel) : Kernel :=
  match k with
  | .ring n e rho sg => .ring n e rho (Config.sqrt (sg * sg + x * x))
  | .bearing n e b sg =>
    let d := Config.sqrt ((o.vrpN - n) * (o.vrpN - n) + (o.vrpE - e) * (o.vrpE - e))
    let a := x / d * Config.degPerRad
    .bearing n e b (Config.sqrt (sg * sg + a * a))
  | k => k

/-- A reference passes the gate (R178). -/
def gateRef (s : State) (g : Grid) (t : RefTerms) : Bool :=
  match t.main with
  | some k => match meanOf s t.ref k with
    | some m => gateMeas s m
    | none => false
  | none =>
    let k := kernelOf s t
    let o := predNow s
    let r := roundHalf ((o.vrpN - g.n) / gridPitch) + 256
    let c := roundHalf ((o.vrpE - g.e) / gridPitch) + 256
    let k' := { k with terms := k.terms.map (enlarge o (principal o.cov).1) }
    !t.lines.isEmpty && decide ((kernelCost k' (cellN g r) (cellE g c) : Qty) ≤ 32 * s.image.fusion.gObs)

/-- A point lies on the grid. -/
def onGrid (g : Grid) (n e : Qty) : Bool :=
  decide (cellN g 0 - gridPitch / 2 ≤ n) && decide (n ≤ cellN g 511 + gridPitch / 2) &&
    decide (cellE g 0 - gridPitch / 2 ≤ e) && decide (e ≤ cellE g 511 + gridPitch / 2)

/-- The number of the first lowest entry of a table. -/
def lowestEntry (t : List Nat) : Nat :=
  (t.zipIdx.foldl (fun (b : Option (Nat × Nat)) x => match b with
    | none => some x
    | some y => if x.1 < y.1 then some x else b) none).map (·.2) |>.getD 0

/-- The distance of a number from an interval. -/
def gapQ (lo hi x : Qty) : Qty := max 0 (max (lo - x) (x - hi))

/-- The circle of a range ring meets the grid: its radius lies between the least and the greatest distance of the grid's points. -/
def ringOnGrid (g : Grid) (qn qe rho : Qty) : Bool :=
  let n0 := cellN g 0
  let n1 := cellN g 511
  let e0 := cellE g 0
  let e1 := cellE g 511
  let near := gapQ n0 n1 qn * gapQ n0 n1 qn + gapQ e0 e1 qe * gapQ e0 e1 qe
  let fn := max (absQ (qn - n0)) (absQ (qn - n1))
  let fe := max (absQ (qe - e0)) (absQ (qe - e1))
  decide (near ≤ rho * rho) && decide (rho * rho ≤ fn * fn + fe * fe)

/-- The part of a half-line in the direction `c` from `x` that lies between two bounds: the parameters from and to, the second none
where it has no end. -/
def slab (lo hi x c : Qty) : Qty × Option Qty :=
  if c = 0 then (if lo ≤ x && x ≤ hi then (0, none) else (1, some 0))
  else
    let a := (lo - x) / c
    let b := (hi - x) / c
    (max 0 (min a b), some (max a b))

/-- The half-line of a bearing meets the grid. -/
def bearingOnGrid (g : Grid) (qn qe beta : Qty) : Bool :=
  let a := slab (cellN g 0) (cellN g 511) qn (Config.cosDeg beta)
  let b := slab (cellE g 0) (cellE g 511) qe (Config.sinDeg beta)
  [a.2, b.2].all (fun t => match t with
    | none => true
    | some t => decide (max a.1 b.1 ≤ t))

/-- The cell of lowest kernel cost, ties as in R171, among those of the grid and of `m` cells beyond each edge. -/
def lowestCell (g : Grid) (k : RefKernel) (m : Nat) : Int × Int :=
  let span := (List.range (gridSize + 2 * m)).map (fun i => ((i : Nat) : Int) - (m : Int))
  let best := span.foldl (fun b r => span.foldl (fun (b : Option (Int × Int × Qty)) c =>
    let v := kernelExact { k with cap := 0xFFFFFFFF } (cellN g r) (cellE g c)
    match b with
    | none => some (r, c, v)
    | some x => if v < x.2.2 then some (r, c, v) else b) b) none
  (best.map (fun x => (x.1, x.2.1))).getD (0, 0)

/-- The margin in cells in which the minimum of a kernel of several terms is looked for: 100 m (DESIGN CHOICE; assumption 105). -/
def lowMargin : Nat := 4000

/-- Where a kernel is lowest: the mean of a lone Gaussian term, the centre of the lowest entry of a lone table; of several terms the
cell of the lowest sum. -/
def kernelMin (g : Grid) (k : RefKernel) : Qty × Qty :=
  match k.terms with
  | [.gauss n e _ _ _] => (n, e)
  | [.table n e hdg t _ pitch] =>
    let i := lowestEntry t
    let w := (pitch : Qty) * gridPitch
    let x := (((i / 32 : Nat) : Qty) - 16 + 1 / 2) * w
    let y := (((i % 32 : Nat) : Qty) - 16 + 1 / 2) * w
    let ch := Config.cosDeg hdg
    let sh := Config.sinDeg hdg
    (n + x * ch - y * sh, e + x * sh + y * ch)
  | _ =>
    let (r, c) := lowestCell g k lowMargin
    (cellN g r, cellE g c)

/-- OFF_GRID (R173): the kernel's minimum lies outside the grid. A lone ring or bearing is lowest along a line, and is on the grid
where that line meets it. -/
def offGridRef (s : State) (g : Grid) (t : RefTerms) : Bool :=
  let k := kernelOf s t
  match k.terms with
  | [.ring qn qe rho _] => !(ringOnGrid g qn qe rho)
  | [.bearing qn qe beta _] => !(bearingOnGrid g qn qe beta)
  | _ =>
    let m := kernelMin g k
    !(onGrid g m.1 m.2)

/-! ### The decision (R179) -/

/-- What the procedure of R179 does: the measurement handed, its supporters, references rejected by vote, by gate and
left unresolved, the condition (0 none, 1 SINGLE_FAIL, 2 TWO_SPLIT, 3 MULTI_SPLIT), the decision code of Table 6-11, and
whether an edge, a flat fit or a failed gate of a majority arose. -/
structure Verdict where
  hand : Option (Qty × Qty × Qty × Qty × Qty) := none
  chosen : List Nat := []
  vote : List Nat := []
  gate : List Nat := []
  marked : List Nat := []
  condition : Nat := 0
  decision : Nat := 0
  edge : Bool := false
  flat : Bool := false
  gateFail : Bool := false
deriving DecidableEq, Repr, Inhabited

/-- A peak handed (R174, R175). -/
def handPeak (g : Grid) (sup : List Nat) (p : Nat × Nat × Nat) (v : Verdict) : Verdict :=
  if nearEdge p then { v with edge := true, chosen := sup }
  else match peakFit g sup p with
    | none => { v with flat := true, chosen := sup }
    | some m => { v with hand := some m, chosen := sup }

/-- A peak passes the gate (R178). -/
def gatePeak (s : State) (g : Grid) (sup : List Nat) (p : Nat × Nat × Nat) : Bool :=
  match peakFit g sup p with
  | none => false
  | some m => gateMeas s m

/-- The peak or term that a single reference hands (R179, peak_of). -/
def handOf (s : State) (g : Grid) (best second : Option (Nat × Nat × Nat)) (s1 s2 : List Nat) (t : RefTerms) (v : Verdict) : Verdict :=
  match best, second with
  | some b, _ =>
    if s1.contains t.ref then handPeak g s1 b v
    else match second with
      | some c =>
        if s2.contains t.ref then handPeak g s2 c v
        else { v with hand := t.main.bind (meanOf s t.ref), chosen := [t.ref] }
      | none => { v with hand := t.main.bind (meanOf s t.ref), chosen := [t.ref] }
  | none, _ => { v with hand := t.main.bind (meanOf s t.ref), chosen := [t.ref] }

/-- A reference passes the gate and can be handed alone. -/
def passes (s : State) (g : Grid) (s1 s2 : List Nat) (t : RefTerms) : Bool :=
  gateRef s g t && (t.main.isSome || s1.contains t.ref || s2.contains t.ref)

/-- The procedure of R179 over the admitted references `A`. -/
def decideRefs (s : State) (g : Grid) (A : List RefTerms) (best second : Option (Nat × Nat × Nat)) (s1 s2 : List Nat) : Verdict :=
  let ids := A.map (·.ref)
  match A with
  | [] => {}
  | [t] =>
    match best with
    | some b =>
      if s1 = ids && gateRef s g t then handPeak g s1 b { decision := 1 }
      else { gate := ids, condition := 1, decision := 4, marked := ids }
    | none => { gate := ids, condition := 1, decision := 4, marked := ids }
  | t :: u :: rest =>
    match best with
    | none => {}
    | some b =>
      if s1 = ids then handPeak g s1 b { decision := 1 }
      else if rest.isEmpty then
        match passes s g s1 s2 t, passes s g s1 s2 u with
        | true, false => handOf s g best second s1 s2 t { decision := 3, gate := [u.ref] }
        | false, true => handOf s g best second s1 s2 u { decision := 3, gate := [t.ref] }
        | _, _ => { marked := ids, condition := 2, decision := 5 }
      else
        let maj := s1.length ≠ s2.length && 2 ≤ max s1.length s2.length
        if maj then
          let (sup, p) := if s2.length < s1.length then (s1, b) else (s2, second.getD b)
          handPeak g sup p { decision := 2, vote := ids.filter (fun i => !sup.contains i), gateFail := !(gatePeak s g sup p) }
        else
          let p1 := gatePeak s g s1 b && !s1.isEmpty
          let p2 := match second with
            | some c => gatePeak s g s2 c && !s2.isEmpty
            | none => false
          match p1, p2 with
          | true, false => handPeak g s1 b { decision := 3, gate := ids.filter (fun i => !s1.contains i) }
          | false, true => handPeak g s2 (second.getD b) { decision := 3, gate := ids.filter (fun i => !s2.contains i) }
          | _, _ => { marked := (s1 ++ s2).eraseDups, condition := 3, decision := 5 }

/-! ### GRID_FUSION -/

/-- A value rounded to the nearest multiple of the pitch, ties away from zero (R162). -/
def toPitch (q : Qty) : Qty := (roundHalf (q / gridPitch) : Qty) * gridPitch

/-- The grid's centre in this frame (R162, R183, R187). -/
def gridCentre (s : State) (A : List RefTerms) : Qty × Qty :=
  let o := predNow s
  match s.obs.init, s.fus.recentre with
  | true, _ => match gaussMeanOf (A.filterMap (·.main)) with
    | some (.gauss n e _ _ _) => (n, e)
    | _ => (toPitch o.vrpN, toPitch o.vrpE)
  | false, some c => c
  | false, none => (toPitch o.vrpN, toPitch o.vrpE)

/-- The buffer that this frame builds into (R165, R196). -/
def buildBuf (s : State) : Nat :=
  match s.fus.heldBuf with
  | some h => 1 - h
  | none => 1 - s.fus.cur

/-- The fusion state of one reference after the decision (Table 6-3): FUSED only where a peak is `handed`; a reference that supports
a chosen peak which is not handed is IDLE (DEDUCED, assumption 105). -/
def fusionState (s : State) (v : Verdict) (handed : Bool) (admitted : List Nat) (conflict : Bool) (parties : List Nat) (i : Nat) (u : RefUnit) : Nat :=
  if u.excluded then 7
  else if conflict && parties.contains i then 6
  else if u.state != .active && !u.dropEnd then 0
  else if !u.proven && !s.obs.init then 1
  else if !(admitted.contains i) then 0
  else if v.vote.contains i then 3
  else if v.gate.contains i then 4
  else if v.marked.contains i then 5
  else if handed && v.chosen.contains i then 2
  else 0

/-- A reference in PROBATION: its measurement is gated and its run of passes kept (R176). -/
def probationStep (s : State) (g : Grid) (terms : List RefTerms) (i : Nat) (u : RefUnit) : RefUnit :=
  if s.obs.init && u.state == .active then { u with proven := true, probation := 0 }
  else if u.proven || u.excluded || u.state != .active then u
  else match terms.find? (fun t => t.ref == i && t.some') with
    | none => u
    | some t => { u with probation := if gateRef s g t then min 3 (u.probation + 1) else 0 }

/-- The lever-arm filter of one reference (R144 to R146) with this frame's residual, if the conditions of R144 hold. -/
def leverUpdate (s : State) (residual : Option (Qty × Qty)) (i : Nat) (u : RefUnit) : RefUnit :=
  let c := (refCfg s i).getD {}
  let v := u.lever
  if v.state ≠ 1 && v.state ≠ 2 then u
  else
    let h := match v.hdg with
      | some x => x + wrap180 (s.obs.psi - x)
      | none => s.obs.psi
    let v := { v with hdg := some h
                      spanLo := if v.hdg.isSome then min v.spanLo h else h
                      spanHi := if v.hdg.isSome then max v.spanHi h else h }
    let v := match residual with
      | none => v
      | some (rn, re) =>
        let f := Config.leverStep rn re s.obs.psi v
        { v with estX := f.estX, estY := f.estY, biasN := f.biasN, biasE := f.biasE, sigX := f.sigX, sigY := f.sigY, cov := f.cov,
                 updates := sat 32 (v.updates + 1) }
    if c.refineLimit * c.refineLimit < v.estX * v.estX + v.estY * v.estY then { u with lever := { v with state := 4 } }
    else
      let mv := fun (a e : Qty) => a + clampQ (-(1 / 10000)) (1 / 10000) (e - a)
      let ok := onset s v.okSince (decide (v.sigX ≤ c.sigmaConv) && decide (v.sigY ≤ c.sigmaConv))
      let conv := heldFor s ok 60000 && decide (30 ≤ v.spanHi - v.spanLo)
      { u with lever := { v with
          appX := mv v.appX v.estX
          appY := mv v.appY v.estY
          okSince := ok
          state := if conv then (if c.autoFreeze then 3 else 2) else 1 } }

/-- Vessel speed of the estimate, squared (R144). -/
def speed2 (s : State) : Qty := s.obs.u * s.obs.u + s.obs.v * s.obs.v

/-- The horizontal residual of a reference's Gaussian or table term against the observer's estimate, both at the fusion instant, which
is that at t_v (R144, R164). -/
def residualOf (s : State) (terms : List RefTerms) (i : Nat) : Option (Qty × Qty) :=
  let o := predNow s
  match (terms.find? (fun t => t.ref == i)).bind (·.main) with
  | some (.gauss n e _ _ _) | some (.table n e _ _ _ _) => some (n - o.vrpN, e - o.vrpE)
  | _ => none

/-- Refinement of a reference goes on (R158): the reference is enabled, and so is the anchor. -/
def refines (s : State) (i : Nat) : Bool :=
  (s.ref.refs.getD i {}).enabled && ((s.image.ref.anchor.map (fun a => (s.ref.refs.getD a {}).enabled)).getD false)

/-- Every refined reference's filter (R144 to R146), after the fusion states are set. A suspended one keeps its state and δ; its
60 s of small sigmas begin anew (assumption 104). -/
def leverAll (terms : List RefTerms) (s : State) : State :=
  let fused := fun i => (s.ref.refs.getD i {}).fusion == 2
  let others := ((List.range 16).filter fused).length
  let anchorOk := match s.image.ref.anchor with
    | some a => fused a && decide (2 ≤ others)
    | none => false
  (List.range 16).foldl (fun s i =>
    let u := s.ref.refs.getD i {}
    let res := if anchorOk && u.fusion = 2 && decide (speed2 s < 1 / 4) then residualOf s terms i else none
    let u' := if refines s i then leverUpdate s res i u else { u with lever := { u.lever with okSince := none } }
    let s := onUnit false i (fun _ => u') s
    if u'.lever.state = 4 && u.lever.state ≠ 4 then
      assertVec 38 (logL 5 5 (leBytes 1 i ++ f32Bytes u'.lever.estX ++ f32Bytes u'.lever.estY) s)
    else s) s

/-- The newest terms of a reference during INIT. -/
def initTermsOf (s : State) (i : Nat) : List Kernel := (s.obs.initTerms.filter (fun x => x.1 == i)).map (·.2)

/-- The updates that the admitted references give during INIT (R187): the 3 newest Gaussian terms of each. A frame without an update of
a reference changes nothing for it. -/
def initStep (A : List RefTerms) (s : State) : State :=
  if !s.obs.init then s
  else A.foldl (fun s t => match t.main with
    | some (.gauss n e a b c) =>
      let mine := (.gauss n e a b c :: initTermsOf s t.ref).take 3
      { s with obs.initTerms := mine.map (fun k => (t.ref, k)) ++ s.obs.initTerms.filter (fun x => x.1 != t.ref) }
    | _ => s) s

/-- Grid fusion on this frame's measurements (R161 to R183). -/
def fuse (s : State) : State :=
  let (all, outl) := allTerms s
  let o := predNow s
  let s := { s with ref.refs := s.ref.refs.mapIdx (fun i u =>
    probationStep s { n := toPitch o.vrpN, e := toPitch o.vrpE } all i u) }
  let (terms, dropped) := frameTerms s all
  let live := all.filter (fun t => t.some')
  let A := terms.filter (fun t => t.some')
  let (cn, ce) := gridCentre s A
  let g : Grid := { frame := s.tt.frame, n := cn, e := ce, kernels := A.map (kernelOf s) }
  let buf := buildBuf s
  let ids := A.map (·.ref)
  let best := if A.isEmpty then none else bestPeak g
  let second := best.bind (fun b => secondPeak g s.image.fusion.exclCells b)
  let s1 := supporters g s.image.fusion.supportThr best
  let s2 := supporters g s.image.fusion.supportThr second
  let off := (A.filter (offGridRef s g)).map (·.ref)
  let v := if s.obs.init then {} else decideRefs s g A best second s1 s2
  let may := !s.fus.conflict || ((v.decision = 1 || v.decision = 2) && !v.gateFail)
  let hand := if may then v.hand else none
  let noPeak := !A.isEmpty && s1.isEmpty && s2.isEmpty && 2 ≤ off.length
  let s := { s with
    fus.grids := s.fus.grids.set buf g
    fus.cur := buf
    fus.tf := (boundNs s).toNat
    fus.tfQual := s.tt.bQual
    fus.handed := hand
    fus.best := best
    fus.second := second
    fus.supBest := s1
    fus.supSecond := s2
    fus.chosen := if may then v.chosen else []
    fus.admitted := ids
    fus.costBest := match best with
      | some b => A.map (fun t => (t.ref, kernelCost (kernelOf s t) (cellN g b.1) (cellE g b.2.1)))
      | none => []
    fus.terms := A.map (fun t => (t.ref, t.main.toList.length + t.lines.length))
    fus.offGrid := off
    fus.decision := v.decision
    fus.condition := v.condition
    fus.condRun := if A.isEmpty then s.fus.condRun else if v.condition = 0 then 0 else s.fus.condRun + 1
    fus.parties := if s.fus.conflict then s.fus.parties else v.marked
    fus.agreeSince := onset s s.fus.agreeSince (s.fus.conflict && hand.isSome)
    fus.noPeakRun := if noPeak then s.fus.noPeakRun + 1 else 0
    fus.recentre := none
    fus.recentred := s.fus.recentre.isSome && !s.obs.init
    fus.gridEdge := v.edge
    fus.flat := v.flat
    fus.gateFail := v.gateFail && hand.isSome
    fus.termDrop := sat 32 (s.fus.termDrop + dropped)
    fus.outliers := sat 32 (s.fus.outliers + outl)
    fus.gaussMean := live.filterMap (fun t => t.main.map (fun k => (t.ref, (boundNs s).toNat, k))) ++
      s.fus.gaussMean.filter (fun g => !(live.any (fun t => t.ref == g.1 && t.main.isSome)))
    ref.refs := s.ref.refs.mapIdx (fun i u =>
      { u with fusion := fusionState s v hand.isSome ids s.fus.conflict s.fus.parties i u }) }
  initStep A (leverAll A s)

/-- The most that grid fusion is charged, µs (R170), for what this frame's grid renders. -/
def fusionCharge (s : State) : Nat :=
  let k := (s.fus.grids.getD s.fus.cur {}).kernels
  let isMain := fun (x : Kernel) => match x with
    | .gauss _ _ _ _ _ | .table _ _ _ _ _ _ => true
    | _ => false
  let terms := (k.map (·.terms)).flatten
  let g : Qty := ((terms.filter isMain).length : Nat)
  let b : Qty := ((terms.filter (fun x => !isMain x)).length : Nat)
  (4789 / 10 + 6554 / 100 * g + 9830 / 100 * b).floor.toNat

/-- GRID_FUSION (R161 to R183, R144 to R146): activity 3. -/
def execGridFusion (s : State) : Host.Outcome State Fault Refusal :=
  .next (if mayRun 3 s then
    let s := if works s then fuse s else s
    completeIn 3 (fusionCharge s) s
  else s)

/-! ### The conflict (R180 to R183) -/

/-- REF_CONFLICT_RAISED (R180): the third consecutive frame of a split or single failure. -/
def execRefConflictRaised (s : State) : Host.Outcome State Fault Refusal :=
  .next (if lanesRun s && !s.fus.conflict && decide (3 ≤ s.fus.condRun) then
    let p := s.fus.parties
    let s := { s with
      fus.conflict := true
      fus.conflictAt := s.mono
      fus.conflictDegraded := false
      fus.agreeSince := none
      fus.handed := none
      ref.refs := s.ref.refs.mapIdx (fun i u => if p.contains i then { u with fusion := 6 } else u) }
    assertVec 38 (logL 6 1 (leBytes 1 1 ++ leBytes 2 (maskOf p) ++ leBytes 1 s.fus.condition) s)
  else s)

/-- REF_CONFLICT ends (R181): logged, vector 38. -/
def clearConflict (s : State) : State :=
  let p := s.fus.parties
  let s := { s with
    fus.conflict := false
    fus.conflictDegraded := false
    fus.agreeSince := none
    fus.condRun := 0
    fus.parties := []
    ref.refs := s.ref.refs.mapIdx (fun i u =>
      if p.contains i && u.fusion = 6 then { u with fusion := if s.fus.chosen.contains i then 2 else 3 } else u) }
  assertVec 38 (logL 6 1 (leBytes 1 0 ++ leBytes 2 (maskOf p) ++ leBytes 1 s.fus.condition) s)

/-- REF_CONFLICT_CLEARED (R181): 5 s of frames in a row with a measurement handed. -/
def execRefConflictCleared (s : State) : Host.Outcome State Fault Refusal :=
  .next (if lanesRun s && s.fus.conflict && heldFor s s.fus.agreeSince 5000 then clearConflict s else s)

/-! ### DP alarm level (R189) -/

/-- Conditions of ADVISORY (Table 6-9). -/
def advisory (s : State) : Bool :=
  let f := s.ref.refs.map (·.fusion)
  let h := (s.ref.votes.getD 0 {}).status
  decide ((f.filter (· == 2)).length < s.image.fusion.redundancy) || f.any (fun x => x == 3 || x == 4) || s.fus.conflict ||
    s.fus.gridEdge || h == 1 || h == 2 || s.ref.refs.any (fun u => u.lever.state == 4)

/-- The dead-reckoning time, ms (R186): from the last handed measurement, frames without a run of the observer included. -/
def drMs (s : State) : Nat := 10 * (s.obs.drFrames + s.obs.elapsed)

/-- Conditions of POSITION_DEGRADED (Table 6-9). -/
def degraded (s : State) : Bool :=
  (s.fus.conflict && s.fus.conflictDegraded) ||
    (!s.fus.conflict && decide (s.image.fusion.drLimitMs < drMs s)) || (s.ref.votes.getD 0 {}).status == 3

/-- Conditions of POSITION_LOST (Table 6-9). -/
def positionLost (s : State) : Bool :=
  s.obs.init || decide (s.image.fusion.lostLimit < (principal s.obs.cov).1)

/-- The highest level whose condition holds (R189). -/
def alarmLevel (s : State) : Nat :=
  if positionLost s then 3 else if degraded s then 2 else if advisory s then 1 else 0

/-- An injection ends, pending or running, with a reason of Table 7-12 (R226, R227): logged, vector 39; its own capture, armed or
triggered, goes on only after the end of its duration. -/
def endInjection (reason : Nat) (s : State) : State :=
  match s.ctl.inj.job with
  | none => s
  | some j =>
    let own := (s.ctl.inj.live && s.ctl.inj.capState = 1) || (s.ctl.inj.running && s.ctl.inj.capState = 2)
    let cut := reason ≠ 1 && j.capture && own
    let s := { s with
      ctl.inj.job := none
      ctl.inj.live := false
      ctl.inj.running := false
      ctl.inj.reason := reason
      ctl.inj.capState := if cut then 4 else s.ctl.inj.capState }
    assertVec 39 (logL 7 4 (leBytes 1 j.target ++ leBytes 1 j.index ++ leBytes 1 reason) s)

/-- An injection into a DP axis, pending or running. -/
def axisInjected (s : State) : Bool := (s.ctl.inj.job.map (·.target)).getD 0 == 2

/-- The level evaluated; a change is logged and asserts vector 38 (R189); POSITION_DEGRADED ends an injection into a DP
axis (R226). -/
def updateLevel (s : State) : State :=
  let l := alarmLevel s
  if l = s.obs.level then s
  else
    let s := assertVec 38 (logL 6 2 (leBytes 1 s.obs.level ++ leBytes 1 l) { s with obs.level := l })
    if 2 ≤ l && axisInjected s then endInjection 4 s else s

/-- CONFLICT_TIMEOUT (R182): the conflict timeout of the image has passed. -/
def execConflictTimeout (s : State) : Host.Outcome State Fault Refusal :=
  .next (if lanesRun s && s.fus.conflict && !s.fus.conflictDegraded && decide (s.fus.conflictAt + s.image.fusion.conflictMs ≤ s.mono) then
    updateLevel { s with fus.conflictDegraded := true }
  else s)

/-- The Gaussian terms of the references admitted in the newest fused frame, as that frame measured them (R183). -/
def admittedTerms (s : State) : List Kernel :=
  (s.fus.gaussMean.filter (fun g => s.fus.admitted.contains g.1 && g.2.1 == s.fus.tf)).map (·.2.2)

/-- RECENTRE_MEASURED (R183): no supported peak in 3 frames while at least 2 admitted references are OFF_GRID. -/
def execRecentreMeasured (s : State) : Host.Outcome State Fault Refusal :=
  .next (if lanesRun s && decide (3 ≤ s.fus.noPeakRun) then
    match gaussMeanOf (admittedTerms s) with
    | some (.gauss n e _ _ _) => { s with fus.recentre := some (n, e), fus.recentred := true, fus.noPeakRun := 0 }
    | _ => s
  else s)

/-- PROBATION_END (R176): the third consecutive update passed. -/
def execProbationEnd (ref : Nat) (s : State) : Host.Outcome State Fault Refusal :=
  let u := s.ref.refs.getD ref {}
  .next (if lanesRun s && u.fusion = 1 && !u.proven && u.probation = 3 then
    onUnit false ref (fun u => { u with proven := true, probation := 0, fusion := 0 }) s
  else s)

/-! ### The observer (R184 to R188) -/

/-- Force and moment of the thrust actually delivered, body frame (R184). -/
def deliveredForce (s : State) : Qty × Qty × Qty :=
  (s.image.alloc.thrusters.zip s.alloc.thr).foldl (fun (f : Qty × Qty × Qty) x => match x.1 with
    | none => f
    | some c =>
      let a := if c.azimuth then x.2.delAz else c.alpha
      let fx := x.2.delT * Config.cosDeg a
      let fy := x.2.delT * Config.sinDeg a
      (f.1 + fx, f.2.1 + fy, f.2.2 + c.x * fy - c.y * fx)) (0, 0, 0)

/-- A position reset (R188, R194): logged; the position and its covariance become those of the measurement, which holds at
`at'`; velocities and environmental force stay. The stored trajectory moves with it, so that the reset is no displacement.
The reference restarts at the new estimate, in Tip-Hold at that of the tip in the next run of the law. -/
def positionReset (at' : Int) (m : Qty × Qty × Qty × Qty × Qty) (s : State) : State :=
  let jn := m.1 - s.obs.vrpN
  let je := m.2.1 - s.obs.vrpE
  let tip := s.set.mode == .tipHold
  let s := { s with
    obs.n := m.1
    obs.e := m.2.1
    obs.pNN := m.2.2.1
    obs.pNE := m.2.2.2.1
    obs.pEE := m.2.2.2.2
    obs.waveN := 0
    obs.waveE := 0
    obs.waveN2 := 0
    obs.waveE2 := 0
    obs.at_ := at'
    obs.traj := s.obs.traj.map (fun p => (p.1, p.2.1 + jn, p.2.2 + je))
    obs.reset := true
    obs.drFrames := 0
    set.refN := if tip then s.set.refN else m.1
    set.refE := if tip then s.set.refE else m.2.1
    set.restart := tip
    set.refVn := 0
    set.refVe := 0 }
  logL 6 3 (f64Bytes m.1 ++ f64Bytes m.2.1) s

/-- The observer's next estimate (R184 to R186) from the equations' answer `o`, which holds at `at'`. The wave period changes by at most
0.1 s per 10 s: 0.1 ms in a frame. -/
def observed (s : State) (at' : Int) (o : ObsSt) : ObsSt :=
  let old := s.obs
  let dr := s.fus.handed.isNone
  let on := fun i => s.image.fusion.waveFilter.getD i true
  let tw := s.image.fusion.waveTw
  { old with
    n := o.n
    e := o.e
    psi := wrap360 o.psi
    u := o.u
    v := o.v
    r := o.r
    envN := if dr then old.envN else o.envN
    envE := if dr then old.envE else o.envE
    envM := if dr then old.envM else o.envM
    waveN := if on 0 then o.waveN else 0
    waveE := if on 1 then o.waveE else 0
    wavePsi := if on 2 then o.wavePsi else 0
    waveN2 := if on 0 then o.waveN2 else 0
    waveE2 := if on 1 then o.waveE2 else 0
    wavePsi2 := if on 2 then o.wavePsi2 else 0
    pNN := if dr then max old.pNN o.pNN else o.pNN
    pNE := o.pNE
    pEE := if dr then max old.pEE o.pEE else o.pEE
    pVNN := o.pVNN
    pVNE := o.pVNE
    pVEE := o.pVEE
    waveT := if s.image.fusion.waveAdapt then
      clampQ (tw * 7 / 10) (tw * 13 / 10) (old.waveT + clampQ (-(1 / 10000)) (1 / 10000) (o.waveT - old.waveT)) else tw
    tauWindX := o.tauWindX
    tauWindY := o.tauWindY
    tauWindN := o.tauWindN
    at_ := at'
    drFrames := if dr then old.drFrames + 1 + old.elapsed else 0
    elapsed := 0 }

/-- The output instant of this frame (R21, R185): the strobe of tick 4. -/
def outputNs (s : State) : Int := boundNs s + 4000000

/-- The observer's inputs in this frame (R184, R185). With time alignment held there is no aligned measurement (Table 2-2): no voted
heading, and the wind is taken as zero, as without a candidate (R140). -/
def obsInput (s : State) : ObsIn :=
  let voted := fun (i : Nat) => if s.inp.noVote then none else (s.ref.votes.getD i {}).value
  { meas := s.fus.handed, measAt := (s.fus.tf : Int), heading := voted 0, headAt := voteInstant s, force := deliveredForce s,
    wind := ((voted 4).getD 0, (voted 5).getD 0), outAt := outputNs s, cfg := s.image.fusion }

/-- One run of the observer (R185 to R189). A majority peak that fails the gate resets the position at the fusion instant; the run
then propagates from it without a further update (R179, R188). -/
def observe (s : State) : State :=
  let s := match s.fus.gateFail, s.fus.handed with
    | true, some m => positionReset (boundNs s) m { s with obs := obsAt s (boundNs s) }
    | _, _ => s
  let i := obsInput s
  let i := if s.fus.gateFail then { i with meas := none } else i
  let s := { s with obs := observed s i.outAt (Config.observerStep i s.obs) }
  updateLevel { s with obs.traj := ((i.outAt, s.obs.vrpN, s.obs.vrpE) :: s.obs.traj).take 200 }

/-- OBSERVER (R184 to R189): activity 4. -/
def execObserver (s : State) : Host.Outcome State Fault Refusal :=
  .next (if mayRun 4 s then completeAct 4 (if works s then observe s else s) else s)

/-- The peak that ends INIT (R187): one supported by at least 2 admitted references, or that of a single one whose 3
newest terms lie within the gate of one another. -/
def initPeak (s : State) : Option (List Nat × (Nat × Nat × Nat)) :=
  match s.fus.best with
  | none => none
  | some b =>
    if 2 ≤ s.fus.supBest.length then some (s.fus.supBest, b)
    else if s.fus.second.isSome && decide (2 ≤ s.fus.supSecond.length) then some (s.fus.supSecond, s.fus.second.getD b)
    else match s.fus.admitted with
      | [i] =>
        let l := initTermsOf s i
        if l.length = 3 && l.all (fun k => l.all (fun m => decide (dist2 k m ≤ s.image.fusion.gObs))) then some (s.fus.supBest, b) else none
      | _ => none

/-- OBSERVER_INIT_END (R187, R188): the position is set from the peak; velocities and forces start at zero. -/
def execObserverInitEnd (s : State) : Host.Outcome State Fault Refusal :=
  .next (if lanesRun s && s.obs.init then
    match initPeak s with
    | none => s
    | some (sup, p) => match peakFit (s.fus.grids.getD s.fus.cur {}) sup p with
      | none => s
      | some m =>
        let s := { s with
          obs.init := false
          obs.u := 0
          obs.v := 0
          obs.r := 0
          obs.envN := 0
          obs.envE := 0
          obs.envM := 0
          obs.initTerms := []
          ref.refs := s.ref.refs.mapIdx (fun i u => if sup.contains i then { u with fusion := 2 } else u) }
        updateLevel (positionReset (s.fus.tf : Int) m s)
  else s)

/-! ### Opcodes (R195 to R197, R192) -/

/-- t_output: the frame boundary before host service, and the quality byte of t_f. -/
def fusionFlags (s : State) : Nat :=
  bitN s.fus.handed.isSome 0 + bitN s.fus.conflict 1 + bitN s.fus.gridEdge 2 + bitN s.fus.flat 3 + bitN s.obs.reset 4 +
    bitN s.fus.recentred 5 + bitN s.obs.init 6 + bitN s.set.trackEnd 7

/-- References excluded. -/
def excludedRefs (s : State) : List Nat := (List.range 16).filter (fun i => (s.ref.refs.getD i {}).excluded)

/-- A peak's cell as four bytes. -/
def cellBytes (p : Option (Nat × Nat × Nat)) : List Byte :=
  match p with
  | none => leBytes 4 0xFFFFFFFF
  | some (r, c, _) => leBytes 2 r ++ leBytes 2 c

/-- The reference entry of FUSION_STATUS. -/
def fusionRef (s : State) (i : Nat) : List Byte :=
  leBytes 1 (s.ref.refs.getD i {}).fusion ++ leBytes 1 (((s.fus.terms.find? (fun x => x.1 == i)).map (·.2)).getD 0) ++
    leBytes 2 (((s.fus.costBest.find? (fun x => x.1 == i)).map (·.2)).getD 0xFFFF)

/-- FUSION_STATUS result (Table 6-11). -/
def fusionResult (s : State) : List Byte :=
  let g := s.fus.grids.getD s.fus.cur {}
  let m := s.fus.handed.getD (0, 0, 0, 0, 0)
  let sn := Config.sqrt m.2.2.1
  let se := Config.sqrt m.2.2.2.2
  let pr := principal s.obs.cov
  leBytes 8 (s.fus.tf / 1000000000) ++ leBytes 4 (s.fus.tf % 1000000000) ++ leBytes 1 s.fus.tfQual ++ leBytes 1 s.obs.level ++
    leBytes 1 (fusionFlags s) ++ leBytes 1 s.fus.decision ++ f64Bytes g.n ++ f64Bytes g.e ++ f64Bytes m.1 ++ f64Bytes m.2.1 ++
    f32Bytes sn ++ f32Bytes se ++ f32Bytes (m.2.2.2.1 / (sn * se)) ++
    leBytes 2 ((s.fus.best.map (·.2.2)).getD 0xFFFF) ++ leBytes 2 ((s.fus.second.map (·.2.2)).getD 0xFFFF) ++
    cellBytes s.fus.best ++ cellBytes s.fus.second ++ leBytes 2 (maskOf s.fus.supBest) ++ leBytes 2 (maskOf s.fus.supSecond) ++
    leBytes 2 (maskOf s.fus.admitted) ++ leBytes 2 (maskOf (excludedRefs s)) ++ ((List.range 16).map (fusionRef s)).flatten ++
    leBytes 4 (if s.fus.conflict then sat 32 (s.mono - s.fus.conflictAt) else 0) ++ leBytes 4 (sat 32 (drMs s)) ++
    f64Bytes s.obs.n ++ f64Bytes s.obs.e ++ leBytes 4 (bam32 s.obs.psi) ++ f32Bytes s.obs.u ++ f32Bytes s.obs.v ++ f32Bytes s.obs.r ++
    f32Bytes s.obs.envN ++ f32Bytes s.obs.envE ++ f32Bytes s.obs.envM ++ f32Bytes pr.1 ++ f32Bytes pr.2 ++ f32Bytes s.obs.waveT ++
    f32Bytes (Config.waveAmp s.obs.waveN s.obs.waveN2 s.obs.waveT) ++ f32Bytes (Config.waveAmp s.obs.waveE s.obs.waveE2 s.obs.waveT) ++
    f32Bytes (Config.waveAmp s.obs.wavePsi s.obs.wavePsi2 s.obs.waveT) ++ leBytes 8 s.tt.bSec ++ leBytes 4 s.tt.bNs ++
    leBytes 4 (frame32 s)

/-- FUSION_STATUS (0x0401). -/
def fusionStatusSpec : OpSpec := { run := fun _ _ s => { status := 0, result := fusionResult s, state := s } }

/-- FUSION_STATUS (R195). -/
def execFusionStatus (p : Packet) (s : State) : Host.Outcome State Fault Refusal :=
  .next (processPacket (some fusionStatusSpec) { p with opcode := 0x0401 } s)

/-- The lowest cell of a block of d by d cells. -/
def blockMin (g : Grid) (d r c : Nat) : Nat :=
  let l := ((List.range d).map (fun i => (List.range d).map (fun j => cellSum g (r + i) (c + j)))).flatten
  l.foldl min (l.headD 0)

/-- GRID_SNAPSHOT (0x0402). -/
def gridSnapshotSpec : OpSpec :=
  { auth := fun p => if fieldByte p.payload 7 % 4 = 0 then 0 else 1
    len := fun _ p => p.payload.length == 8
    run := fun _ p s =>
      let r0 := fieldNat p.payload 0 2
      let c0 := fieldNat p.payload 2 2
      let rows := fieldByte p.payload 4
      let cols := fieldByte p.payload 5
      let d := fieldByte p.payload 6
      let hold := (fieldByte p.payload 7).testBit 0
      let rel := (fieldByte p.payload 7).testBit 1
      if rows = 0 || 64 < rows || cols = 0 || 64 < cols || !([1, 2, 4, 8, 16].contains d) || gridSize < r0 + rows * d
          || gridSize < c0 + cols * d || 2020 < rows * cols then fail 0x0014 s
      else
        let s := if rel then { s with fus.heldBuf := none }
          else if hold then { s with fus.heldBuf := some (s.fus.heldBuf.getD s.fus.cur), fus.heldAt := s.mono }
          else s
        let g := s.fus.grids.getD (s.fus.heldBuf.getD s.fus.cur) {}
        { status := 0
          result := leBytes 8 g.frame ++ f64Bytes g.n ++ f64Bytes g.e ++ leBytes 2 r0 ++ leBytes 2 c0 ++ leBytes 1 rows ++
            leBytes 1 cols ++ leBytes 1 d ++ leBytes 1 (if s.fus.heldBuf.isSome then 1 else 0) ++
            ((List.range rows).map (fun i => ((List.range cols).map (fun j =>
              leBytes 2 (blockMin g d (r0 + i * d) (c0 + j * d)))).flatten)).flatten
          state := s } }

/-- GRID_SNAPSHOT (R195, R196). -/
def execGridSnapshot (p : Packet) (s : State) : Host.Outcome State Fault Refusal :=
  .next (processPacket (some gridSnapshotSpec) { p with opcode := 0x0402 } s)

/-- GRID_HOLD_EXPIRY (R196): 10 s after the last HOLD. -/
def execGridHoldExpiry (s : State) : Host.Outcome State Fault Refusal :=
  .next (if s.fus.heldBuf.isSome && decide (s.fus.heldAt + 10000 ≤ s.mono) then { s with fus.heldBuf := none } else s)

/-- CONFLICT_RESOLVE (0x0403). -/
def conflictResolveSpec : OpSpec :=
  { auth := fun _ => 1
    role := fun s _ => drives s
    len := fun _ p => p.payload.length == 4
    run := fun _ p s =>
      let op := fieldByte p.payload 0
      let mask := bitsOf 16 (fieldNat p.payload 2 2)
      if 2 < op || mask.any (fun i => !(unitDefined s false i)) ||
          (op = 0 && (!s.fus.conflict || mask.any (fun i => !(s.fus.parties.contains i)))) then fail 0x0013 s
      else
        let ex := excludedRefs s
        let after := if op = 0 then ex ++ s.fus.parties.filter (fun i => !mask.contains i)
          else if op = 1 then ex ++ mask else ex.filter (fun i => !mask.contains i)
        { status := 1
          result := leBytes 2 (maskOf (if s.fus.conflict then s.fus.parties else [])) ++ leBytes 2 (maskOf after) ++ leBytes 4 (effectFrame s)
          state := defer (.resolve op mask) s } }

/-- CONFLICT_RESOLVE (R195, R197). -/
def execConflictResolve (p : Packet) (s : State) : Host.Outcome State Fault Refusal :=
  .next (processPacket (some conflictResolveSpec) { p with opcode := 0x0403 } s)

/-- A stored term as a Gaussian at the frame boundary (R164): shifted with the vessel since its own fusion instant. -/
def termNow (s : State) (x : Nat × Nat × Kernel) : Option Kernel :=
  (meanOf s x.1 x.2.2).map (fun m => gaussAt s (x.2.1 : Int) { x := m.1, y := m.2.1 } m.2.2)

/-- CONFLICT_RESOLVE takes effect (R181, R188, R197). A kept reference whose newest term, brought to the boundary, fails the gate resets
the position; several kept ones count by their weighted mean. -/
def applyResolve (op : Nat) (mask : List Nat) (s : State) : State :=
  if op = 0 then
    if !s.fus.conflict then s
    else
      let out := s.fus.parties.filter (fun i => !mask.contains i)
      let kept := (s.fus.gaussMean.filter (fun g => mask.contains g.1)).filterMap (termNow s)
      let s := clearConflict s
      let s := { s with ref.refs := s.ref.refs.mapIdx (fun i u =>
        if out.contains i then { u with excluded := true, fusion := 7 }
        else if mask.contains i then { u with fusion := 2 } else u) }
      match gaussMeanOf kept with
      | some (.gauss n e a b c) => if gateMeas s (n, e, a, b, c) then s
        else positionReset (boundNs s) (n, e, a, b, c) { s with obs := obsAt s (boundNs s) }
      | _ => s
  else if op = 1 then
    { s with ref.refs := s.ref.refs.mapIdx (fun i u => if mask.contains i then { u with excluded := true, fusion := 7 } else u) }
  else
    { s with ref.refs := s.ref.refs.mapIdx (fun i u =>
        if mask.contains i && u.excluded then { u with excluded := false, proven := false, probation := 0, fusion := 1 } else u) }

/-! ### Setpoints (R190 to R194) -/

/-- A speed field: 0 for the image's value; the lower of the two is used (R191). -/
def speedOf (image cmd : Qty) : Qty := if cmd = 0 then image else min image cmd

/-- A waypoint of a TRACK tail. -/
def waypointAt (bs : List Byte) (o : Nat) : Option Waypoint :=
  match fieldF64 bs o, fieldF64 bs (o + 8), fieldF32 bs (o + 16) with
  | some n, some e, some v => some { n, e, speed := v, heading := bamDeg (fieldNat bs (o + 20) 4) }
  | _, _, _ => none

/-- The current position target, or the reference where none is set. -/
def curTarget (s : State) : Qty × Qty := s.set.posTarget.getD (s.set.refN, s.set.refE)

/-- The length of a SETPOINT_SET payload for its kind (Table 6-12). -/
def setpointLen (p : Packet) : Bool :=
  match fieldByte p.payload 0 with
  | 0 => p.payload.length == 32
  | 1 => p.payload.length == 36 + 24 * fieldByte p.payload 32
  | 2 => p.payload.length == 40
  | _ => true

/-- A body vector turned by a heading into north and east. -/
def turnNE (psi x y : Qty) : Qty × Qty :=
  (x * Config.cosDeg psi - y * Config.sinDeg psi, x * Config.sinDeg psi + y * Config.cosDeg psi)

/-- The turn direction that a command fixes. -/
def turnOf (flags : Nat) : Option Bool := if flags.testBit 3 then some (flags.testBit 4) else none

/-- A POSITION setpoint takes effect (R191, R192). -/
def applyPosition (flags : Nat) (n e hd v r : Qty) (s : State) : State :=
  let cur := curTarget s
  let (dn, de) := turnNE s.obs.psi n e
  let t := if flags.testBit 2 then (cur.1 + dn, cur.2 + de) else (n, e)
  { s with
    set.posTarget := if flags.testBit 0 then some t else s.set.posTarget
    set.hdgTarget := if flags.testBit 1 then some hd else s.set.hdgTarget
    set.turn := if flags.testBit 1 then turnOf flags else s.set.turn
    set.vMax := v
    set.rMax := r }

/-- A TRACK takes effect (R193). -/
def applyTrack (wps : List Waypoint) (along : Bool) (v r : Qty) (s : State) : State :=
  { s with set.track := wps, set.alongLeg := along, set.leg := 0, set.trackEnd := false, set.vMax := v, set.rMax := r }

end Sys2Proof.Machine
end

