-- ==== Sys2Proof/Machine/Servo.lean ====
section
/-! DEFINITION. The loop engine (chapter 07): Q15 and Q9.30 arithmetic, coefficient banks, thruster servo loops, the
lowest-wins override, the servo slot, test signals and capture, and the opcodes that act on them. -/

namespace Sys2Proof.Machine

/-- Feedback taps of the shift register of an order, where they make it maximal-length (R224 names the register, not its taps). Free
value; assumption 48. -/
opaque Config.prbsTaps : Nat → Nat

/-! ### Fixed-point arithmetic (R199 to R201) -/

/-- Saturation to the Q15 range (R199). -/
def q15 (x : Int) : Int := clampI (-32768) 32767 x

/-- Saturation of the accumulator to Q9.30 in 40 bits (R200). -/
def accSat (x : Int) : Int := clampI (-549755813888) 549755813887 x

/-- One product entering the accumulator (R200). -/
def accAdd (acc x : Int) : Int := accSat (acc + x)

/-- wb (R201): shift left by `sh`, round to Q15 with ties to even, saturate. -/
def wb (acc : Int) (sh : Nat) : Int := q15 (roundEven (((acc * 2 ^ sh : Int) : Qty) / 32768))

/-- Wrapping subtraction modulo 2^16, of the azimuth error (R213). -/
def wrapSub (a b : Int) : Int := toSigned 16 (((a - b) % 65536).toNat)

/-- A fraction of a span in Q15. -/
def toQ15 (x : Qty) : Int := q15 (roundEven (x * 32768))

/-- An angle in degrees in Q15 of 180°, wrapping. -/
def angQ15 (deg : Qty) : Int := toSigned 16 (((roundEven (wrap180 deg * 32768 / 180)) % 65536).toNat)

/-! ### Coefficient banks (Tables 7-5 to 7-7) -/

/-- Bytes of a bank. -/
def bankBytes (s : State) (b o n : Nat) : List Byte := memReadAll (s.ctl.banks.getD b []) o n

/-- A binary32 field of a bank; a field that is no number reads 0. -/
def bankF32 (s : State) (b o : Nat) : Qty := (ieeeOf 8 23 (leNat (bankBytes s b o 4))).getD 0

/-- A Q15 field of a bank. -/
def bankQ15 (s : State) (b o : Nat) : Int := toSigned 16 (leNat (bankBytes s b o 2))

/-- A byte of a bank. -/
def bankByte (s : State) (b o : Nat) : Nat := (memRead (s.ctl.banks.getD b []) o).toNat

/-- A DP axis record (Table 7-6). -/
structure AxisRec where
  kp : Qty
  kd : Qty
  ki : Qty
  iLim : Qty
  wEnv : Qty
  wWind : Qty
  tauMax : Qty
  rate : Qty
  mFf : Qty
  jGain : Qty
  jDead : Qty
deriving DecidableEq, Repr, Inhabited

/-- The record of an axis in the active bank. -/
def axisRec (s : State) (a : Nat) : AxisRec :=
  let f := fun k => bankF32 s s.ctl.active (48 * a + 4 * k)
  { kp := f 0, kd := f 1, ki := f 2, iLim := f 3, wEnv := f 4, wWind := f 5, tauMax := f 6, rate := f 7, mFf := f 8,
    jGain := f 9, jDead := f 10 }

/-- A loop record (Table 7-7). -/
structure LoopRec where
  kind : Nat := 0
  sh : Nat := 0
  kp : Int := 0
  ki : Int := 0
  kd : Int := 0
  a : Int := 0
  kff : Int := 0
  uMin : Int := 0
  uMax : Int := 0
  dr : Int := 0
  fallback : Int := 0
  param : Int := 0
deriving DecidableEq, Repr, Inhabited

/-- Offset of a loop record (Table 7-5). -/
def loopOff (t slot : Nat) : Nat := 0x400 + 384 * t + 64 * slot

/-- The record of a loop in a bank. -/
def loopRec (s : State) (b t slot : Nat) : LoopRec :=
  let o := loopOff t slot
  let f := fun k => bankQ15 s b (o + k)
  { kind := bankByte s b o, sh := bankByte s b (o + 1) % 8, kp := f 4, ki := f 6, kd := f 8, a := f 10, kff := f 12,
    uMin := f 14, uMax := f 16, dr := f 18, fallback := f 20, param := f 22 }

/-- The CRC field of a bank. -/
def bankCrc (s : State) (b : Nat) : Nat := leNat (bankBytes s b 0x3FFC 4)

/-- Loops of a thruster as the image binds them. -/
def thrLoops (s : State) (t : Nat) : ThrLoops := s.image.ctl.loops.getD t {}

/-- The binding of a command loop slot. -/
def loopBind (s : State) (t slot : Nat) : Option LoopBind := (thrLoops s t).slots.getD slot none

/-- The binding of a thruster's loop of a kind (at most one THRUST and one AZIMUTH). -/
def kindSlot (s : State) (t kind : Nat) : Option Nat :=
  (List.range 4).find? (fun k => match loopBind s t k with
    | some b => b.kind == kind
    | none => false)

/-- Command channels of a thruster. -/
def cmdChans (s : State) (t : Nat) : List Nat := (List.range 4).filterMap (fun k => (loopBind s t k).map (·.cmdCh))

/-- The thruster record of the image. -/
def thrCfg (s : State) (t : Nat) : Option ThrCfg := s.image.alloc.thrusters.getD t none

/-! ### Feedback -/

/-- The feedback channel of a loop is faulted, or there is none (R214). -/
def fbBad (s : State) (ch : Option Nat) : Bool :=
  match ch with
  | none => true
  | some c => chanFaulted s (chanOf s c)

/-- The Q15 feedback of a loop kind: an angle for AZIMUTH, a fraction of span otherwise (assumption 41). -/
def fbQ15 (s : State) (kind : Nat) (ch : Option Nat) : Int :=
  match ch with
  | none => 0
  | some c => if kind = 2 then angQ15 (chanEng s c) else toQ15 (chanEng s c)

/-- The AZIMUTH feedback of a thruster is faulted. -/
def azimuthLost (s : State) (t : Nat) : Bool :=
  match (kindSlot s t 2).bind (loopBind s t) with
  | none => false
  | some b => fbBad s b.fbCh

/-- The switchboard's power inputs in the newest tick set (R216). -/
def busInputs (s : State) (b : Nat) : Option (Qty × Qty) :=
  match s.image.ctl.buses.getD b {} with
  | { availCh := some x, loadCh := some y, .. } =>
    if inputFaulted s x 20 || inputFaulted s y 20 then none else some (inputEng s x, inputEng s y)
  | _ => none

/-- e_P of a thruster, none under BUS_INPUT_LOST (R216). -/
def powerErr (s : State) (t : Nat) (w : Int) : Option Int :=
  match thrCfg s t with
  | none => none
  | some c => (busInputs s (c.switchboard - 1)).map (fun x =>
      toQ15 (clampQ (-1) 1 ((w : Qty) / 32768 * (x.1 - x.2 - (s.image.ctl.buses.getD (c.switchboard - 1) {}).reserve) / c.pRated)))

/-- e_L of a thruster, none when its feedback is faulted (R217). -/
def loadErr (s : State) (t : Nat) (lim : Int) : Option Int :=
  match (thrLoops s t).loadCh with
  | none => none
  | some c => if chanFaulted s (chanOf s c) then none else some (q15 (lim - toQ15 (chanEng s c)))

/-! ### Test signals (R224) -/

/-- Parity of a number's bits. -/
def parity (n : Nat) : Bool := (List.range 16).foldl (fun p i => xor p (n.testBit i)) false

/-- One shift of a Fibonacci register with feedback taps. -/
def shiftWith (taps order x : Nat) : Nat := (2 * x + (if parity (x &&& taps) then 1 else 0)) % 2 ^ order

/-- The register after each of `n` shifts from `x` differs from `start`. -/
def avoids (taps order start : Nat) : Nat → Nat → Bool
  | 0, _ => true
  | n + 1, x => let y := shiftWith taps order x
                y != start && avoids taps order start n y

/-- Taps give a maximal-length sequence: the register comes back to all ones after 2^order − 1 shifts and not before. -/
def maximalTaps (taps order : Nat) : Bool :=
  let start := 2 ^ order - 1
  avoids taps order start (2 ^ order - 2) start &&
    (List.range (2 ^ order - 1)).foldl (fun x _ => shiftWith taps order x) start == start

/-- Taps of a maximal-length register of each order from 7 to 15. -/
def knownTaps (order : Nat) : Nat := [0x60, 0xB8, 0x110, 0x240, 0x500, 0xE08, 0x1C80, 0x3802, 0x6000].getD (order - 7) 0

/-- The taps of an order: the free ones where they are maximal-length, as R224 demands, else known ones (assumption 48). -/
def tapsOf (order : Nat) : Nat :=
  if maximalTaps (Config.prbsTaps order) order then Config.prbsTaps order else knownTaps order

/-- One shift of the PRBS register (R224). -/
def prbsShift (order x : Nat) : Nat := shiftWith (tapsOf order) order x

/-- The value of the running test signal at this tick (R224). -/
def injWave (s : State) (j : Inject) : Qty :=
  let t : Qty := ((s.tt.ticks - s.ctl.inj.startedAt : Nat) : Qty) / 1000
  let d := j.duration
  match j.waveform with
  | 0 => j.amplitude
  | 1 => j.amplitude * Config.sinDeg (360 * (j.f0 * t + (j.f1 - j.f0) * t * t / (2 * d)))
  | 2 => if j.f0 = j.f1 then j.amplitude * Config.sinDeg (360 * j.f0 * t)
         else
           let l := Config.log (j.f1 / j.f0)
           j.amplitude * Config.sinDeg (360 * j.f0 * d / l * (Config.exp (l * t / d) - 1))
  | 3 => if s.ctl.inj.lfsr.testBit (j.order - 1) then j.amplitude else -j.amplitude
  | _ => 0

/-- The injection runs in this tick: started, and within its duration (R225, R226). -/
def injOn (s : State) : Bool :=
  match s.ctl.inj.job with
  | some j => s.ctl.inj.running && decide (((s.tt.ticks - s.ctl.inj.startedAt : Nat) : Qty) < j.duration * 1000)
  | none => false

/-- The injection at one target, 0 when none runs there. -/
def injAt (s : State) (target index slot : Nat) : Qty :=
  match s.ctl.inj.job with
  | some j => if injOn s && j.target = target && j.index = index && (target = 2 || j.slot = slot) then injWave s j else 0
  | none => 0

/-- A loop's output is held by an injection into it (R224). -/
def outInjected (s : State) (t slot : Nat) : Bool :=
  match s.ctl.inj.job with
  | some j => injOn s && j.target = 1 && j.index = t && j.slot = slot && j.waveform ≠ 4
  | none => false

/-- An injection runs on a loop of the thruster. -/
def thrInjected (s : State) (t : Nat) : Bool :=
  match s.ctl.inj.job with
  | some j => injOn s && j.target ≠ 2 && j.index = t
  | none => false

/-! ### One loop (R213) -/

/-- What one evaluation of a loop takes in: target, measurement (none: the last one stands), limit error, reference
injection, injected output, and whether its feedback is lost. -/
structure LoopIn where
  tgt : Int := 0
  y : Option Int := none
  err : Option Int := none
  inj : Int := 0
  out : Option Int := none
  lost : Bool := false
deriving DecidableEq, Repr, Inhabited

/-- wb(kp·e + kd·df + kff·r, s), kp and kd taken as zero under FB_LOST (R213, R214). -/
def loopPd (c : LoopRec) (lost : Bool) (e df r : Int) : Int :=
  let kp := if lost then 0 else c.kp
  let kd := if lost then 0 else c.kd
  let kff := if c.kind = 4 || c.kind = 5 then 0 else c.kff
  wb (accAdd (accAdd (accSat (kp * e)) (kd * df)) (kff * r)) c.sh

/-- The integrator recomputed so that the output equals a target (R218). -/
def retrack (c : LoopRec) (pd target : Int) (l : Loop) : Loop :=
  let i := clampI c.uMin c.uMax (target - pd)
  { l with i := i, u := clampI c.uMin c.uMax (q15 (pd + i)) }

/-- One evaluation of a loop that is not DIRECT: its states, and the proportional part of its output (R213). -/
def runLoop (c : LoopRec) (x : LoopIn) (l : Loop) : Loop × Int :=
  let r := if x.err.isSome then 0 else q15 (l.r + clampI (-c.dr) c.dr (q15 (x.tgt - l.r)))
  let rUse := q15 (r + x.inj)
  let y := match x.err with
    | some e => q15 (-e)
    | none => x.y.getD l.y
  let e := match x.err with
    | some e => e
    | none => if c.kind = 2 then wrapSub rUse y else q15 (rUse - y)
  let df := wb (accAdd (accSat (l.df * 32768)) (c.a * q15 (q15 (l.y - y) - l.df))) 0
  let pd := loopPd c x.lost e df rUse
  let ki := if x.lost then 0 else c.ki
  let u := clampI c.uMin c.uMax (q15 (pd + l.i))
  let stuck := (u == c.uMax && decide (0 < e)) || (u == c.uMin && decide (e < 0))
  match x.out with
  | some v => ({ l with r := r, rTgt := x.tgt, ru := rUse, y := y, df := df, e := e, u := q15 v }, pd)
  | none =>
    ({ l with r := r, rTgt := x.tgt, ru := rUse, y := y, df := df, e := e, u := u,
              i := if stuck then l.i else clampI c.uMin c.uMax (l.i + wb (accSat (ki * e)) c.sh) }, pd)

/-! ### One thruster (R214, R215, R218, R219) -/

/-- Servo loops of a channel track the value delivered (R219, R276, R277, R324): the signal box changed its setpoint, the
module is in Safe-Stop, or the island reports CAPTURE, SAFE, COMPLIANCE, SERIES_LIMITED or an alarm level. -/
def tracks (s : State) (ch : Nat) : Bool :=
  let i := chanOf s ch
  s.ctl.sbTouched.contains ch || s.pow.state == .safeStop || i.up.state == 3 || i.up.state == 6 || upFlag i 0 || upFlag i 1 || upFlag i 2 ||
    upFlag i 4

/-- The value delivered on a command channel in Q15 of its span: the driven code where the island drives it, else the
measured current. -/
def deliveredQ15 (s : State) (ch : Nat) : Int :=
  let i := chanOf s ch
  let measured := i.up.state == 3 || upFlag i 0 || upFlag i 2 || upFlag i 4 || i.up.driven == 0xFFFF
  toQ15 (if measured then cmdOf i.cfg i.up.readback else cmdOf i.cfg (codeNa i.up.driven))

/-- The value toward which a loop tracks, none when it does not track (R219); zero while the lanes send the zero-thrust
value for a LOST thruster whose channel was at its alarm level (R280). -/
def trackGoal (s : State) (t ch kind : Nat) : Option Int :=
  let x := s.alloc.thr.getD t {}
  if x.alarmed && x.state == .lost && kind ≠ 2 then some 0
  else if tracks s ch then some (deliveredQ15 s ch) else none

/-- What a thruster's evaluation gives: its six loops, winner, selected command, and each command channel's command. -/
structure ThrOut where
  loops : List Loop := []
  winner : Nat := 255
  sel : Int := 0
  cmds : List (Nat × Nat × Int) := []
deriving DecidableEq, Repr, Inhabited

/-- One command loop in its slot (R213, R214): the new loop and its proportional part; none where the slot has no loop. -/
def evalSlot (s : State) (t slot : Nat) (l : Loop) : Option (LoopBind × LoopRec × Loop × Int) :=
  match loopBind s t slot with
  | none => none
  | some b =>
    let c := loopRec s s.ctl.activeLoop t slot
    if c.kind ≠ b.kind || c.kind = 0 then none
    else
      let tgt := if c.kind = 1 && azimuthLost s t then 0 else l.rTgt
      let inj := toQ15 (injAt s 0 t slot)
      let out := if outInjected s t slot then some (q15 (s.ctl.inj.base + toQ15 (injAt s 1 t slot))) else none
      if c.kind = 3 then
        let r := q15 (l.r + clampI (-c.dr) c.dr (q15 (tgt - l.r)))
        some (b, c, { l with r := r, ru := q15 (r + inj), u := out.getD (q15 (r + inj)) }, 0)
      else
        let bad := fbBad s b.fbCh
        let (l', pd) := runLoop c { tgt, y := if bad then none else some (fbQ15 s c.kind b.fbCh), inj, out, lost := bad && c.kind = 1 } l
        let l' := { l' with rTgt := l.rTgt, fault := bad }
        if c.kind = 2 && bad then some (b, c, { l' with u := 0, i := l.i }, pd)
        else if l.fault && !bad && out.isNone then some (b, c, retrack c pd l.u l', pd)
        else some (b, c, l', pd)

/-- A limit loop (R214, R216, R217): the new loop, its proportional part and whether it is live; none without a record. -/
def evalLimit (s : State) (t slot : Nat) (l : Loop) : Option (LoopRec × Loop × Int × Bool) :=
  let c := loopRec s s.ctl.activeLoop t slot
  if c.kind ≠ slot then none
  else
    let err := if slot = 4 then powerErr s t c.param else loadErr s t c.param
    match err with
    | none => some (c, { l with u := c.fallback, fault := true }, 0, false)
    | some e =>
      let (l', pd) := runLoop c { err := some e } l
      let l' := { l' with fault := false }
      some (c, if l.fault then retrack c pd l.u l' else l', pd, true)

/-- Integrators that track: the loops of a channel toward the delivered value (R219). -/
def trackTo (on : Bool) (goal : Option Int) (c : LoopRec) (pd : Int) (l : Loop) : Loop :=
  match goal with
  | some v => if on then retrack c pd v l else l
  | none => l

/-- One thruster's evaluation (R213 to R219). -/
def evalThr (s : State) (t : Nat) (old : List Loop) : ThrOut :=
  let at' := fun k => old.getD k {}
  let slots := (List.range 4).map (fun k => (k, evalSlot s t k (at' k)))
  let pl := evalLimit s t 4 (at' 4)
  let ll := evalLimit s t 5 (at' 5)
  let dem := slots.findSome? (fun x => match x.2 with
    | some (b, c, l, pd) => if c.kind = 1 then some (x.1, b, c, l, pd) else none
    | none => none)
  match dem with
  | none =>
    { loops := (slots.map (fun x => match x.2 with
        | some (b, c, l, pd) => trackTo (c.kind ≠ 3 && !l.fault && !(outInjected s t x.1)) (trackGoal s t b.cmdCh c.kind) c pd l
        | none => at' x.1)) ++ [at' 4, at' 5]
      cmds := slots.filterMap (fun x => x.2.map (fun y => (y.1.cmdCh, y.2.1.kind, y.2.2.1.u))) }
  | some (k, b, c, l, pd) =>
    let uD := l.u
    let uP := match pl with
      | some (_, x, _, _) => x.u
      | none => 32768
    let uL := match ll with
      | some (_, x, _, _) => x.u
      | none => 32768
    let aD : Int := uD.natAbs
    let m := min aD (min uP uL)
    let w := if aD = m then 0 else if uP = m then 1 else 2
    let u := q15 (if 0 ≤ uD then m else -m)
    let g := trackGoal s t b.cmdCh c.kind
    let keep := outInjected s t k
    let lD := if w ≠ 0 && !keep then retrack c pd u l else l
    let lD := trackTo (!keep) g c pd lD
    let lim := fun (n : Nat) (x : Option (LoopRec × Loop × Int × Bool)) (o : Loop) => match x with
      | some (c', l', pd', live) =>
        if !live then l'
        else trackTo true (g.map (fun v => q15 v.natAbs)) c' pd' (if w ≠ n then retrack c' pd' (q15 m) l' else l')
      | none => o
    { loops := (slots.map (fun x => if x.1 = k then lD else match x.2 with
        | some (b', c', l', pd') =>
          trackTo (c'.kind ≠ 3 && !l'.fault && !(outInjected s t x.1)) (trackGoal s t b'.cmdCh c'.kind) c' pd' l'
        | none => at' x.1)) ++ [lim 1 pl (at' 4), lim 2 ll (at' 5)]
      winner := w
      sel := u
      cmds := slots.filterMap (fun x => x.2.map (fun y =>
        (y.1.cmdCh, y.2.1.kind, if x.1 = k then u else y.2.2.1.u))) }

/-! ### Delivered thrust and the boundary's tick set (R233, R235, R242, R254) -/

/-- Delivered thrust of a thruster: y^γ of the THRUST feedback, of the THRUST command under FB_LOST (R233). -/
def deliveredT (s : State) (t : Nat) (c : ThrCfg) : Qty :=
  match (kindSlot s t 1).bind (loopBind s t) with
  | none => 0
  | some b =>
    let y : Qty := ((if fbBad s b.fbCh then s.ctl.selCmd.getD t 0 else fbQ15 s 1 b.fbCh : Int) : Qty) / 32768
    if 0 ≤ y then Config.f32 (c.tMax * Config.rpow y c.gamma)
    else if c.azimuth then 0 else Config.f32 (-(c.tRev * Config.rpow (-y) c.gamma))

/-- Delivered azimuth of a thruster, degrees: α of a FIXED one, the last valid feedback of an AZIMUTH one. -/
def deliveredAz (s : State) (t : Nat) (c : ThrCfg) : Qty :=
  if !c.azimuth then c.alpha
  else match (kindSlot s t 2).bind (loopBind s t) with
    | none => (s.alloc.thr.getD t {}).nowAz
    | some b => match b.fbCh with
      | some ch => if fbBad s b.fbCh then (s.alloc.thr.getD t {}).nowAz else wrap360 (chanEng s ch)
      | none => (s.alloc.thr.getD t {}).nowAz

/-- A cause of LOST holds in the newest tick set (Table 8-2). -/
def lostCause (s : State) (t : Nat) (c : ThrCfg) : Bool :=
  (match c.availCh with
    | some n => inputFaulted s n 20 || !(inputOn s n)
    | none => false) ||
  (c.azimuth && azimuthLost s t) ||
  (cmdChans s t).any (fun ch => (chanOf s ch).up.state == 5 || upFlag (chanOf s ch) 2)

/-- Every tick: the delivered azimuths of the navigation annex, and whether a thrust channel is at its alarm level (R280). -/
def tickAzimuths (s : State) : State :=
  { s with alloc.thr := s.alloc.thr.mapIdx (fun t x => match thrCfg s t with
    | some c => { x with
        nowAz := deliveredAz s t c
        alarmed := (x.alarmed && x.lostLatch) || (List.range 4).any (fun k => match loopBind s t k with
          | some b => b.kind ≠ 2 && (chanOf s b.cmdCh).up.state == 5
          | none => false) }
    | none => x) }

/-- A joint's reading; none under a joint fault (R254). -/
def jointRead (s : State) (j : JointCfg) : Option Qty :=
  let v := j.scale * inputEng s j.channel + j.bias
  if inputFaulted s j.channel 20 || v < j.lo || j.hi < v then none else some (Config.f32 v)

/-- FB_LOST of a thruster in the newest tick set (R214): the feedback of its THRUST loop is faulted. -/
def thrustLost (s : State) (t : Nat) : Bool :=
  match (kindSlot s t 1).bind (loopBind s t) with
  | some b => fbBad s b.fbCh
  | none => false

/-- What the tick set closed at the frame boundary says for the frame, with the winners of the servo slot that has evaluated it
(R206, R235, R236, R242, R243, R254). A joystick input with a fault or older than 100 ms is unusable. -/
def boundarySnap (s : State) : State :=
  { s with
    alloc.thr := s.alloc.thr.mapIdx (fun t x => match thrCfg s t with
      | some c =>
        let comp := (cmdChans s t).any (fun ch => upFlag (chanOf s ch) 0 || upFlag (chanOf s ch) 4)
        let w := s.ctl.winner.getD t 255
        { x with causes := lostCause s t c, compliance := comp, limited := comp || w == 1 || w == 2,
                 fbLost := thrustLost s t, delT := deliveredT s t c, delAz := deliveredAz s t c }
      | none => x)
    alloc.busIn := (List.range 4).map (busInputs s)
    alloc.tiesIn := ((s.image.alloc.ties.zipIdx).filter (fun x => inputOn s x.1.2.2 && !(inputFaulted s x.1.2.2 20))).map (·.2)
    alloc.bodies := s.alloc.bodies.mapIdx (fun b x => match s.image.alloc.bodies[b]? with
      | some c => { x with reads := c.joints.map (jointRead s) }
      | none => x)
    ctl.joyIn := s.image.ctl.joystick.map (fun x => match x with
      | some n => if inputFaulted s n 100 then none else some (clampQ (-1) 1 (inputEng s n))
      | none => none) }

/-! ### The servo slot (R22, R23, R213) -/

/-- The setpoint code of a command channel (R63, R278, R280, R286, Table 15-4): nothing outside the states in which the lanes
run, and zero thrust in Commissioning unless an injection drives the thruster. -/
def chanCode (s : State) (t ch kind : Nat) (cmd : Int) : Nat :=
  let c := (chanOf s ch).cfg
  if !(runState s) then 0xFFFF
  else match (chanOf s ch).checkDrive with
    | some v => v
    | none =>
      let x := s.alloc.thr.getD t {}
      if s.pow.state == .commissioning && !(thrInjected s t) then zeroCode c
      else if ((x.forced && !x.enabled) || (x.alarmed && x.state == .lost)) && kind ≠ 2 then zeroCode c
      else codeOf c ((cmd : Qty) / 32768)

/-- The codes of a command set. -/
def setCodes (s : State) (outs : List ThrOut) : List Nat :=
  let base := (List.range 128).map (fun ch => if runState s then ((chanOf s ch).checkDrive).getD 0xFFFF else 0xFFFF)
  (outs.zipIdx).foldl (fun l o => o.1.cmds.foldl (fun l c => l.set c.1 (chanCode s o.2 c.1 c.2.1 c.2.2)) l) base

/-- One evaluation of every servo loop from the loop states `old`, and the command set it commits. -/
def evalServo (old : List (List Loop)) (s : State) : CtlSt :=
  let outs := (List.range 32).map (fun t => evalThr s t (old.getD t []))
  { s.ctl with
    loops := outs.map (·.loops)
    winner := outs.map (·.winner)
    selCmd := outs.map (·.sel)
    fbLost := (List.range 32).map (thrustLost s)
    busLost := (List.range 4).map (fun b => decide (b < s.image.ctl.buses.length) && (busInputs s b).isNone)
    committed := { codes := setCodes s outs, heading := bamRound ((s.ref.votes.getD 0 {}).value.getD s.obs.psi), yaw := s.obs.r,
                   azim := s.alloc.thr.map (fun x => bamRound x.nowAz) }
    fresh := true }

/-- The most that a servo slot is charged, in µs (R198): 6.0, and 0.35 for each configured loop, a thruster with a THRUST loop
counting two more. -/
def servoCharge (s : State) : Nat :=
  let n : Qty := (((List.range 32).map (fun t => (cmdChans s t).length + (if (kindSlot s t 1).isSome then 2 else 0))).sum : Nat)
  (6 + 35 / 100 * n).floor.toNat

/-- The servo slot of a tick (activity 8); the state before it is kept until its outcome is agreed, and what the slot found
is reported then (R49, R51). -/
def servoSlot (s : State) : State :=
  { s with ctl := evalServo s.ctl.loops s, servoUndo := some s.ctl, tt.servoDone := true }

/-- At the strobe of tick 0 the allocation's view of the tick set follows what the slot has found. -/
def snapAgain (s : State) : State := if s.tt.tick = 0 then boundarySnap s else s

/-- The slot of this tick evaluated again with what has taken effect at the same strobe. -/
def redoServo (s : State) : State :=
  match s.servoUndo with
  | none => s
  | some c => snapAgain { s with ctl := evalServo c.loops s }

/-- A servo slot held (R51, Table 2-2): nothing is committed and the servo states stay as they were. -/
def undoServo (s : State) : State :=
  match s.servoUndo with
  | none => s
  | some c =>
    snapAgain { s with
      ctl := { s.ctl with loops := c.loops, winner := c.winner, selCmd := c.selCmd, fbLost := c.fbLost, busLost := c.busLost,
                          committed := c.committed, fresh := c.fresh }
      servoUndo := none }

/-- The release at a tick strobe (R22): the newest committed set, or the previous one marked as a repeat, with the tick
count of this strobe. -/
def releaseSet (s : State) : State :=
  { s with ctl.released := { s.ctl.committed with tick := s.tt.ticks, isRepeat := !s.ctl.fresh }, ctl.fresh := false }

/-! ### Capture (R227) -/

/-- The value of one signal in this tick (Table 7-9). -/
def capSignal (s : State) (g : Nat × Nat × Nat × Nat) : Int :=
  let (cls, ix, item, _) := g
  match cls with
  | 0 =>
    let l := (s.ctl.loops.getD ix []).getD (item / 8) {}
    match item % 8 with
    | 0 => l.ru
    | 1 => l.y
    | 2 => l.u
    | 3 => l.i
    | _ => l.e
  | 1 => match item with
    | 0 => s.ctl.selCmd.getD ix 0
    | 1 => (s.ctl.winner.getD ix 255 : Nat)
    | _ => match s.ctl.inj.job with
      | some j => if thrInjected s ix then toQ15 (injWave s j) else 0
      | none => 0
  | _ =>
    let a := s.ctl.axes.getD ix {}
    let m := (axisRec s ix).tauMax
    match item with
    | 0 => toQ15 (a.tau / m)
    | 1 => toQ15 (a.fb / m)
    | 2 => toQ15 (a.rep / m)
    | 3 => toQ15 (a.inj / m)
    | _ => toQ15 (a.e / (if ix = 2 then 180 else 10))

/-- One sample of the eight signals: 0 for one that is not enabled. -/
def capRow (s : State) (sigs : List (Nat × Nat × Nat × Nat)) : List Int :=
  sigs.map (fun g => if g.2.2.2 = 0 then 0 else capSignal s g)

/-- The sample of the tick that ends (R227): into the pre-trigger buffer of an armed capture, or into a running one. -/
def sampleCapture (s : State) : State :=
  let c := s.ctl.inj
  if c.phase ≠ 0 then { s with ctl.inj.phase := c.phase - 1 }
  else match c.capState, c.job with
    | 1, some j => if c.live then
        { s with ctl.inj.preBuf := (capRow s j.signals :: c.preBuf).take j.pre, ctl.inj.phase := j.decim - 1 } else s
    | 2, _ => if c.samples.length < 16384 then
        { s with ctl.inj.samples := capRow s c.sigs :: c.samples, ctl.inj.phase := c.decim - 1 } else s
    | _, _ => s

/-- The PRBS register of the running injection moves on at the end of each bit (R224). -/
def stepPrbs (s : State) : State :=
  match s.ctl.inj.job with
  | some j =>
    if s.ctl.inj.running && j.waveform = 3 && (s.tt.ticks - s.ctl.inj.startedAt) % j.bitTicks = 0 && s.ctl.inj.startedAt < s.tt.ticks then
      { s with ctl.inj.lfsr := prbsShift j.order s.ctl.inj.lfsr }
    else s
  | none => s

/-! ### Injection (R225 to R227) -/

/-- Demand source of an axis (Table 7-2): 0 zero, 1 joystick, 2 controller. -/
def axisSource (m : DpMode) (a : Nat) : Nat :=
  match m with
  | .standbyHold => 0
  | .joystick => 1
  | .autoHeading => if a = 2 then 2 else 1
  | .autoPosition | .trackFollow | .tipHold => 2

/-- The DP mode that the control law runs: Standby-Hold outside Active. -/
def lawMode (s : State) : DpMode := if s.pow.state == .active then s.set.mode else .standbyHold

/-- The precondition of an injection (Table 7-8). -/
def injAllowed (s : State) (j : Inject) : Bool :=
  if j.target = 2 then s.pow.state == .active && axisSource s.set.mode j.index == 2
  else
    let x := s.alloc.thr.getD j.index {}
    s.pow.state == .commissioning || (s.pow.state == .active && x.state == .disabled && !x.ramping)

/-- INJECTION_START (R225): the named tick strobe of the first frame that begins late enough; an armed capture triggers. -/
def execInjectionStart (s : State) : Host.Outcome State Fault Refusal :=
  .next (match s.ctl.inj.job with
  | none => s
  | some j =>
    if !(lanesRun s) || !s.ctl.inj.live || s.ctl.inj.running || s.tt.tick ≠ j.startTick || s.tt.ticks - s.tt.tick < s.ctl.inj.notBefore
    then s
    else
      let l := ((s.ctl.loops.getD j.index []).getD j.slot {})
      let s := { s with
        ctl.inj.running := true
        ctl.inj.startedAt := s.tt.ticks
        ctl.inj.lfsr := 2 ^ j.order - 1
        ctl.inj.base := (match s.servoUndo with
          | some c => ((c.loops.getD j.index []).getD j.slot {}).u
          | none => l.u)
        ctl.inj.reason := 0 }
      redoServo (if j.capture && s.ctl.inj.capState = 1 then
        { s with
          ctl.inj.capState := 2
          ctl.inj.sigs := j.signals
          ctl.inj.decim := j.decim
          ctl.inj.pre := j.pre
          ctl.inj.samples := s.ctl.inj.preBuf
          ctl.inj.preBuf := []
          ctl.inj.trigger := s.ctl.inj.preBuf.length
          ctl.inj.trigFrame := frame32 s
          ctl.inj.phase := 0 }
      else s))

/-- The reason for which an injection ends now, 0 for none (R226, Table 7-12). -/
def injEnds (s : State) (j : Inject) : Nat :=
  if s.pow.state == .safeStop then 5
  else if j.target = 2 && 2 ≤ s.obs.level then 4
  else if !(injAllowed s j) then 3
  else if s.ctl.inj.running && decide (j.duration * 1000 ≤ ((s.tt.ticks - s.ctl.inj.startedAt : Nat) : Qty)) then 1
  else 0

/-- INJECTION_END (R226). -/
def execInjectionEnd (s : State) : Host.Outcome State Fault Refusal :=
  .next (match s.ctl.inj.job with
  | none => s
  | some j => if s.ctl.inj.live && lanesRun s && injEnds s j ≠ 0 then endInjection (injEnds s j) s else s)

/-- CAPTURE_DONE (R227): 16,384 samples are held. -/
def execCaptureDone (s : State) : Host.Outcome State Fault Refusal :=
  .next (if s.ctl.inj.capState = 2 && decide (16384 ≤ s.ctl.inj.samples.length) then { s with ctl.inj.capState := 3 } else s)

/-- The eight signal selectors of an INJECT_START payload: class, index, item, enable. -/
def capSigs (b : List Byte) : List (Nat × Nat × Nat × Nat) :=
  (List.range 8).map (fun k => (fieldByte b (24 + 4 * k), fieldByte b (25 + 4 * k), fieldByte b (26 + 4 * k), fieldByte b (27 + 4 * k)))

/-- The class of an enabled signal selector is listed in Table 7-9. -/
def capClassOk (g : Nat × Nat × Nat × Nat) : Bool := g.2.2.2 == 0 || decide (g.1 ≤ 2)

/-- Index, item and enable of a signal selector lie in their ranges (Table 7-9). -/
def capSigOk (g : Nat × Nat × Nat × Nat) : Bool :=
  match g with
  | (_, _, _, 0) => true
  | (0, ix, item, en) => decide (ix ≤ 31) && decide (item / 8 ≤ 5) && decide (item % 8 ≤ 4) && en == 1
  | (1, ix, item, en) => decide (ix ≤ 31) && decide (item ≤ 2) && en == 1
  | (_, ix, item, en) => decide (ix ≤ 2) && decide (item ≤ 4) && en == 1

/-- The injection that a payload asks for; none where a field is no number (Table 7-11). -/
def injOfPayload (b : List Byte) : Option Inject :=
  match fieldF32 b 4, fieldF32 b 8, fieldF32 b 12, fieldF32 b 16 with
  | some a, some d, some f0, some f1 =>
    some { target := fieldByte b 0, index := fieldByte b 1, slot := fieldByte b 2, waveform := fieldByte b 3, amplitude := a,
           duration := d, f0, f1, order := fieldByte b 20, bitTicks := fieldByte b 21, startTick := fieldByte b 22,
           capture := (fieldByte b 23).testBit 0, signals := capSigs b, decim := fieldNat b 56 2, pre := fieldNat b 58 2 }
  | _, _, _, _ => none

/-- A field of the payload out of its range (Table 7-11, R225). -/
def injRangeBad (j : Inject) : Bool :=
  let lo : Qty := if j.target = 2 then 1 / 1000 else 1 / 100
  let hi : Qty := if j.target = 2 then 10 else 250
  let chirp := j.waveform == 1 || j.waveform == 2
  decide (j.duration < ieeeNear (1 / 100)) || decide (300 < j.duration) || decide (9 < j.startTick) ||
    (if j.target = 2 then decide (2 < j.index) else decide (31 < j.index) || decide (3 < j.slot)) ||
    (chirp && (decide (j.f0 < ieeeNear lo) || decide (hi < j.f0) || decide (j.f1 < ieeeNear lo) || decide (hi < j.f1))) ||
    (j.waveform == 3 && (decide (j.order < 7) || decide (15 < j.order) || j.bitTicks == 0)) ||
    (j.capture && (j.decim == 0 || decide (1000 < j.decim) || decide (4096 < j.pre)))
where
  /-- The binary32 number nearest to a limit. -/
  ieeeNear (q : Qty) : Qty := (ieeeOf 8 23 (ieeeBits 8 23 q)).getD q

/-- The largest amplitude accepted (Table 7-8). -/
def injLimit (s : State) (j : Inject) : Qty := if j.target = 2 then (axisRec s j.index).tauMax / 10 else 1 / 4

/-- Frame and tick at which an injection processed now would start (R225). -/
def injStartFrame (s : State) (j : Inject) : Nat :=
  let d := if j.capture then j.pre * j.decim else 0
  (s.tt.frame + 1 + (d + 9) / 10) % 2 ^ 32

/-- INJECT_START (0x0503). -/
def injectStartSpec : OpSpec :=
  { auth := fun _ => 2
    role := fun s _ => drives s
    len := fun _ p => p.payload.length == 64
    run := fun _ p s =>
      let b := p.payload
      if fieldByte b 3 = 0xFF then { status := 0, result := zeros 8, state := endInjection 2 s }
      else if 4 < fieldByte b 3 || 2 < fieldByte b 0 then fail 0x0013 s
      else match injOfPayload b with
        | none => fail 0x0014 s
        | some j =>
          if injRangeBad j then fail 0x0014 s
          else if j.target ≠ 2 && (loopBind s j.index j.slot).isNone then fail 0x0013 s
          else if j.capture && !(j.signals.all capClassOk) then fail 0x0013 s
          else if j.capture && !(j.signals.all capSigOk) then fail 0x0014 s
          else if s.ctl.inj.job.isSome then fail 0x0022 s
          else if !(injAllowed s j) then fail 0x0021 s
          else if j.waveform ≠ 4 && injLimit s j < absQ j.amplitude then fail 0x0014 s
          else
            { status := 1
              result := leBytes 4 (injStartFrame s j) ++ leBytes 1 j.startTick ++ zeros 3
              state := defer (.inject j) { s with ctl.inj.job := some j, ctl.inj.live := false, ctl.inj.running := false } } }

/-- INJECT_START (R225). -/
def execInjectStart (p : Packet) (s : State) : Host.Outcome State Fault Refusal :=
  .next (processPacket (some injectStartSpec) { p with opcode := 0x0503 } s)

/-- INJECT_START takes effect: its capture is armed and starts sampling (R225, R227). -/
def applyInject (j : Inject) (s : State) : State :=
  if s.ctl.inj.job ≠ some j || s.ctl.inj.live then s
  else
    { s with
      ctl.inj.live := true
      ctl.inj.notBefore := s.tt.ticks - s.tt.tick + (if j.capture then j.pre * j.decim else 0)
      ctl.inj.capState := if j.capture then 1 else s.ctl.inj.capState
      ctl.inj.preBuf := if j.capture then [] else s.ctl.inj.preBuf
      ctl.inj.phase := if j.capture then 0 else s.ctl.inj.phase }

/-- The physical value of Q15 full scale of a signal (Tables 7-9 and 7-12); the span of a loop signal is its Q15 range of
1 (assumption 49). -/
def capScale (s : State) (g : Nat × Nat × Nat × Nat) : Qty :=
  match g with
  | (0, ix, item, _) => match (loopBind s ix (item / 8)).map (·.kind) with
    | some 2 => 180
    | _ => 1
  | (1, _, item, _) => if item = 1 then 32768 else 1
  | (_, ix, item, _) => if item = 4 then (if ix = 2 then 180 else 10) else (axisRec s ix).tauMax

/-- CAPTURE_READ (0x0504). -/
def captureReadSpec : OpSpec :=
  { role := fun s _ => drives s
    len := fun _ p => p.payload.length == 8
    run := fun _ p s =>
      let b := p.payload
      let mask := fieldByte b 0
      let first := fieldNat b 2 2
      let cnt := fieldNat b 4 2
      let c := s.ctl.inj
      let on (k : Nat) : Bool := ((c.sigs[k]?).map (fun g => g.2.2.2 != 0)).getD false
      let sel := (bitsOf 8 mask).filter on
      if 2000 < cnt * (bitsOf 8 mask).length then fail 0x0014 s
      else
        let rows := ((c.samples.reverse).drop first).take cnt
        { status := 0
          result := leBytes 1 c.capState ++ leBytes 1 c.reason ++ leBytes 2 rows.length ++ leBytes 4 c.samples.length ++
            leBytes 4 c.trigger ++ leBytes 4 c.trigFrame ++ leBytes 2 c.decim ++ leBytes 1 (maskOf sel) ++ zeros 1 ++
            ((List.range 8).map (fun k => f32Bytes (match c.sigs[k]? with
              | some g => if on k then capScale s g else 0
              | none => 0))).flatten ++ zeros 4 ++
            ((rows.map (fun r => (sel.map (fun k => leInt 2 (r.getD k 0))).flatten)).flatten)
          state := s } }

/-- CAPTURE_READ (R227). -/
def execCaptureRead (p : Packet) (s : State) : Host.Outcome State Fault Refusal :=
  .next (processPacket (some captureReadSpec) { p with opcode := 0x0504 } s)

/-! ### Bank writes and swaps (R220 to R223) -/

/-- A bank with its CRC field rewritten (R228). -/
def sealBank (m : List Host.Cell) : List Host.Cell :=
  memWriteAll m 0x3FFC (leBytes 4 (crc32c (memReadAll m 0 0x3FFC)))

/-- LOOP_BANK_WRITE (0x0501). -/
def loopBankWriteSpec : OpSpec :=
  { auth := fun _ => 2
    role := fun s _ => drives s
    len := fun _ p => decide (8 ≤ p.payload.length) && p.payload.length == 8 + fieldNat p.payload 6 2
    run := fun _ p s =>
      let b := p.payload
      let bank := fieldByte b 0
      let off := fieldNat b 4 2
      let n := fieldNat b 6 2
      if 1 < bank || off % 4 ≠ 0 || n % 4 ≠ 0 || n < 4 || 4072 < n || 0x3FFC < off + n then fail 0x0014 s
      else if s.ctl.swap.any (fun w => w.bank == bank) then fail 0x0022 s
      else if bank = s.ctl.active || bank = s.ctl.activeLoop then fail 0x0021 s
      else
        let m := sealBank (memWriteAll (s.ctl.banks.getD bank []) off (b.drop 8))
        let s := { s with ctl.banks := s.ctl.banks.set bank m }
        { status := 0, result := leBytes 4 (bankCrc s bank) ++ leBytes 2 off ++ leBytes 2 n, state := s } }

/-- LOOP_BANK_WRITE (R221). -/
def execLoopBankWrite (p : Packet) (s : State) : Host.Outcome State Fault Refusal :=
  .next (processPacket (some loopBankWriteSpec) { p with opcode := 0x0501 } s)

/-- A byte of the image's own bank. -/
def imageBankByte (s : State) (o : Nat) : Nat := ((s.image.ctl.bank.find? (fun x => x.1 == o)).map (·.2.toNat)).getD 0

/-- Every loop record of a bank has the kind that the image gives it (R222). -/
def kindsMatch (s : State) (b : Nat) : Bool :=
  (List.range 32).all (fun t => (List.range 6).all (fun k => bankByte s b (loopOff t k) == imageBankByte s (loopOff t k)))

/-- The value of a bank field by its offset: binary32 in the DP axis records, a byte or Q15 in the loop records. -/
def bankField (s : State) (b o : Nat) : Qty :=
  if o < 144 then bankF32 s b o
  else if (o - 0x400) % 64 < 2 then (bankByte s b o : Nat)
  else (bankQ15 s b o : Int)

/-- The fields of the DP axis records lie in their ranges (Table 7-6, R222). -/
def axisFieldsOk (s : State) (b : Nat) : Bool :=
  (List.range 3).all (fun a =>
    let raw := fun k => ieeeOf 8 23 (leNat (bankBytes s b (48 * a + 4 * k) 4))
    let f := fun k => bankF32 s b (48 * a + 4 * k)
    let lim := fun (q : Qty) => (ieeeOf 8 23 (ieeeBits 8 23 q)).getD q
    (List.range 11).all (fun k => (raw k).isSome) && [0, 1, 2, 3, 8].all (fun k => decide (0 ≤ f k)) &&
      decide (0 ≤ f 4 ∧ f 4 ≤ 1) && decide (0 ≤ f 5 ∧ f 5 ≤ 1) && decide (0 < f 6) && decide (0 < f 7) &&
      decide (lim (1 / 10) ≤ f 9 ∧ f 9 ≤ 1) && decide (0 ≤ f 10 ∧ f 10 ≤ lim (2 / 10)))

/-- The compensator records lie in the ranges of R210, as Q15. -/
def compFieldsOk (s : State) (b : Nat) : Bool :=
  (List.range 3).all (fun a =>
    let o := 0x200 + 16 * a
    let g := bankQ15 s b o
    let l := bankQ15 s b (o + 2)
    decide (0 ≤ g ∧ g ≤ 3277) && decide (0 ≤ l ∧ l ≤ 328) && decide (0 ≤ bankQ15 s b (o + 4)) && decide (leNat (bankBytes s b (o + 6) 2) ≤ 50))

/-- The fields of the loop records lie in their ranges (Table 7-7, R222): kp, ki and kd are not negative; an AZIMUTH thruster is one-way,
as Table 10-3 has it, and so is one without reverse thrust. -/
def loopFieldsOk (s : State) (b : Nat) : Bool :=
  (List.range 32).all (fun t => (List.range 6).all (fun k =>
    let c := loopRec s b t k
    let limit := c.kind == 4 || c.kind == 5
    let oneWay := c.kind == 1 && (match thrCfg s t with
      | some x => x.azimuth || x.tRev == 0
      | none => false)
    c.kind == 0 ||
      (decide (bankByte s b (loopOff t k + 1) ≤ 7) && decide (0 ≤ c.kp) && decide (0 ≤ c.ki) && decide (0 ≤ c.kd) && decide (0 ≤ c.a) && decide (0 ≤ c.fallback) &&
        (if limit then decide (0 ≤ c.param) else c.param == 0) && (!(limit || oneWay) || c.uMin == 0))))

/-- The bank lies inside the image's coefficient envelope (R222). -/
def inEnvelope (s : State) (b : Nat) : Bool :=
  s.image.ctl.envelope.all (fun e => decide (e.2.1 ≤ bankField s b e.1 ∧ bankField s b e.1 ≤ e.2.2))

/-- LOOP_BANK_SWAP result. -/
def swapResult (s : State) : List Byte :=
  leBytes 1 s.ctl.active ++ leBytes 1 ((s.ctl.swap.map (·.bank)).getD 0xFF) ++ leBytes 1 ((s.ctl.swap.map (·.tick)).getD 0) ++ zeros 1 ++
    leBytes 4 (bankCrc s 0) ++ leBytes 4 (bankCrc s 1) ++ leBytes 4 ((s.ctl.swap.map (·.frame)).getD 0)

/-- LOOP_BANK_SWAP (0x0502). -/
def loopBankSwapSpec : OpSpec :=
  { auth := fun p => if fieldByte p.payload 0 = 0 then 0 else 2
    role := fun s _ => drives s
    len := fun _ p => p.payload.length == 8
    run := fun _ p s =>
      let b := p.payload
      let bank := fieldByte b 1
      let k := fieldByte b 2
      if 1 < fieldByte b 0 then fail 0x0013 s
      else if fieldByte b 0 = 0 then { status := 0, result := swapResult s, state := s }
      else if 1 < bank || 9 < k then fail 0x0014 s
      else if bankCrc s bank ≠ fieldNat b 4 4 || !(kindsMatch s bank) then fail 0x0013 s
      else if !(axisFieldsOk s bank) || !(compFieldsOk s bank) || !(loopFieldsOk s bank) || !(inEnvelope s bank) then fail 0x0014 s
      else if s.ctl.swap.any (fun w => w.frame != effectFrame s) then fail 0x0022 s
      else if s.ctl.swap.isNone && bank = s.ctl.active then { status := 0, result := swapResult s, state := s }
      else
        let s := defer .swapAxes { s with ctl.swap := some { bank, tick := k, frame := effectFrame s, axesDone := false } }
        { status := 1, result := swapResult s, state := s } }

/-- LOOP_BANK_SWAP (R222). -/
def execLoopBankSwap (p : Packet) (s : State) : Host.Outcome State Fault Refusal :=
  .next (processPacket (some loopBankSwapSpec) { p with opcode := 0x0502 } s)

/-- The DP axis and compensator records of a swap take effect (R222). -/
def applySwapAxes (s : State) : State :=
  match s.ctl.swap with
  | some w => { s with ctl.active := w.bank, ctl.swap := some { w with axesDone := true } }
  | none => s

/-- Integrators recomputed for the records of the active loop bank, each loop's own last output as the target, from the error,
derivative and reference of its last evaluation (R218, R223). -/
def rebase (s : State) (t slot : Nat) (l : Loop) : Loop :=
  let c := loopRec s s.ctl.activeLoop t slot
  if c.kind = 0 || c.kind = 3 || (l.fault && c.kind ≠ 1) then l else retrack c (loopPd c (l.fault && c.kind = 1) l.e l.df l.ru) l.u l

/-- LOOP_BANK_SWAP_APPLY (R222, R223): the tick k strobe. -/
def execLoopBankSwapApply (s : State) : Host.Outcome State Fault Refusal :=
  .next (match s.ctl.swap with
  | none => s
  | some w =>
    if !(lanesRun s) || !w.axesDone || s.tt.tick ≠ w.tick then s
    else
      let s := { s with ctl.activeLoop := w.bank, ctl.swap := none }
      let new := fun (l : List (List Loop)) => l.mapIdx (fun t x => x.mapIdx (fun k y => rebase s t k y))
      match s.servoUndo with
      | some c => redoServo { s with servoUndo := some { c with loops := new c.loops } }
      | none => { s with ctl.loops := new s.ctl.loops })

end Sys2Proof.Machine
end

