-- ==== Sys2Proof/Machine/Control.lean ====
section
/-! DEFINITION. The DP control law (chapter 07), the reference model (R190 to R194), the repetitive compensator, the
kinematics of Tip-Hold (R253 to R257), and REPETITIVE_CTRL. -/

namespace Sys2Proof.Machine

/-- The speed that the reference model aims at: distance to the target, present speed, v_max, a_max (R191 gives limits, not the
profile). Free value; assumption 44. -/
opaque Config.refSpeed : Qty → Qty → Qty → Qty → Qty

/-! ### Tip kinematics (R253 to R257) -/

/-- A vector turned or extended by one joint (R253). -/
def jointMove (k : Nat) (q : Qty) (v : V3) : V3 :=
  let c := Config.cosDeg q
  let d := Config.sinDeg q
  match k with
  | 0 => { x := v.x, y := c * v.y - d * v.z, z := d * v.y + c * v.z }
  | 1 => { x := c * v.x + d * v.z, y := v.y, z := c * v.z - d * v.x }
  | 2 => { x := c * v.x - d * v.y, y := d * v.x + c * v.y, z := v.z }
  | _ => { x := v.x + q, y := v.y, z := v.z }

/-- The rate of that vector for a joint rate, the vector itself at rest. -/
def jointRate (k : Nat) (q w : Qty) (v : V3) : V3 :=
  let a := Config.radOfDeg w
  let c := a * Config.cosDeg q
  let d := a * Config.sinDeg q
  match k with
  | 0 => { x := 0, y := -(d * v.y) - c * v.z, z := c * v.y - d * v.z }
  | 1 => { x := c * v.z - d * v.x, y := 0, z := -(d * v.z) - c * v.x }
  | 2 => { x := -(d * v.x) - c * v.y, y := c * v.x - d * v.y, z := 0 }
  | _ => { x := w, y := 0, z := 0 }

/-- A rate turned by one joint. -/
def jointTurn (k : Nat) (q : Qty) (v : V3) : V3 := if k = 3 then v else jointMove k q v

/-- Sum of two vectors. -/
def addV (a b : V3) : V3 := { x := a.x + b.x, y := a.y + b.y, z := a.z + b.z }

/-- The tip from the first of the given joints on, with its rate: joints with value and rate (R253, R255). -/
def tipFrom (tip : V3) : List (JointCfg × Qty × Qty) → V3 × V3
  | [] => (tip, {})
  | (j, q, w) :: r =>
    let (v, dv) := tipFrom tip r
    (addV j.offset (jointMove j.kind q v), addV (jointRate j.kind q w v) (jointTurn j.kind q dv))

/-- r(q) of a body and its rate, body frame (R253, R255). -/
def tipVector (s : State) (b : Nat) : V3 × V3 :=
  match s.image.alloc.bodies[b]? with
  | none => ({}, {})
  | some c =>
    let x := s.alloc.bodies.getD b {}
    let js := (c.joints.zipIdx).map (fun j => (j.1, x.q.getD j.2 0, x.qdot.getD j.2 0))
    let (v, dv) := tipFrom c.tip js
    (addV c.base v, dv)

/-- The tip depth (R257). -/
def tipDepthOf (s : State) (b : Nat) : Qty :=
  let (h, r, p) := attitudeAt s (boundNs s)
  ((s.ref.votes.getD 3 {}).value.getD 0) + (toEarth h r p (tipVector s b).1).z

/-- The vertical offset from the target depth (R257). -/
def tipOffset (s : State) (b : Nat) : Option Qty := s.set.tipDepth.map (fun d => d - tipDepthOf s b)

/-- A body's joints take this frame's readings (R254): override, last valid value under a fault, filtered rates. -/
def bodyJoints (c : BodyCfg) (x : BodySt) : BodySt :=
  let js := (List.range c.joints.length).map (fun k =>
    let old := x.q.getD k 0
    let q := if x.override.testBit k then x.ovVal.getD k 0 else (x.reads.getD k none).getD (x.valid.getD k 0)
    (q, Config.filterStep (x.qdot.getD k 0) ((q - old) * 100) (1 / 100) (1 / 10)))
  let n := c.joints.length
  { x with
    q := js.map (·.1) ++ x.q.drop n
    qdot := js.map (·.2) ++ x.qdot.drop n
    valid := x.valid.mapIdx (fun k v => (x.reads.getD k none).getD v)
    faults := maskOf ((List.range n).filter (fun k => (x.reads.getD k none).isNone)) }

/-- TIP_KINEMATICS_LOST of one body in use (R254). -/
def bodyLost (x : BodySt) : Bool := x.inUse && decide (x.faults &&& (63 - x.override % 64) ≠ 0)

/-- ALLOC_STATUS flags (Table 8-8). -/
def allocFlags (s : State) : Nat :=
  bitN (s.set.mode == .tipHold) 0 + bitN s.ctl.tipLost 1 + bitN s.ctl.tipVertical 2 + bitN s.alloc.unmet 3 + bitN s.alloc.failing 4 +
    bitN s.alloc.sectorSwitch 5 + bitN s.alloc.powerRows 6 + bitN s.alloc.topoChanged 7

/-- A change of one of the logged flags: FLAG, vector 39 (R250, R254). -/
def logFlags (before : Nat) (s : State) : State :=
  assertVec 39 (logL 8 3 (leBytes 2 before ++ leBytes 2 (allocFlags s)) s)

/-- The bodies in this frame (R254, R257). -/
def tipStep (s : State) : State :=
  let s := { s with alloc.bodies := s.alloc.bodies.mapIdx (fun b x => match s.image.alloc.bodies[b]? with
    | some c => bodyJoints c x
    | none => x) }
  let lost := s.alloc.bodies.any bodyLost
  let s' := { s with
    ctl.tipLost := lost
    ctl.tipVertical := match tipOffset s s.set.body with
      | some o => s.set.mode == .tipHold && decide ((s.alloc.bodies.getD s.set.body {}).vTol < absQ o)
      | none => false }
  if lost = s.ctl.tipLost then s' else logFlags (allocFlags s) s'

/-! ### What the law acts on (R203, R255) -/

/-- Earth components turned into the body frame of a heading. -/
def turnBody (psi n e : Qty) : Qty × Qty :=
  (addF (mulF n (Config.cosDeg psi)) (mulF e (Config.sinDeg psi)), subF (mulF e (Config.cosDeg psi)) (mulF n (Config.sinDeg psi)))

/-- The low-frequency estimate of the tip of an attached body. -/
def tipEstimate (s : State) (b : Nat) : Qty × Qty :=
  let r := (tipVector s b).1
  let (dn, de) := turnNE s.obs.psi r.x r.y
  (s.obs.n + dn, s.obs.e + de)

/-- The controlled point: the VRP estimate, or the tip's in Tip-Hold (R255). -/
def heldPoint (s : State) : Qty × Qty := if lawMode s == .tipHold then tipEstimate s s.set.body else (s.obs.n, s.obs.e)

/-- Its velocity in the body frame (R255). -/
def heldVel (s : State) : Qty × Qty :=
  if lawMode s == .tipHold then
    let (r, dr) := tipVector s s.set.body
    let w := Config.radOfDeg s.obs.r
    (s.obs.u - w * r.y + dr.x, s.obs.v + w * r.x + dr.y)
  else (s.obs.u, s.obs.v)

/-! ### Reference model (R190 to R194) -/

/-- A vector cut to a length. -/
def cutTo (m : Qty) (v : Qty × Qty) : Qty × Qty :=
  let l := v.1 * v.1 + v.2 * v.2
  if l ≤ m * m then v else (v.1 * m / Config.sqrt l, v.2 * m / Config.sqrt l)

/-- The highest speed from which a reference at distance `d` still stops at its target, `a` per second squared, in frames of
10 ms (R191). -/
def brakeSpeed (a d : Qty) : Qty := Config.sqrt ((a / 200) * (a / 200) + 2 * a * d) - a / 200

/-- One frame of the reference toward a point (R191, R192): new position and velocity, and whether the point is reached. It aims
straight at the point, with a free speed within v_max and, unless it may pass the point, within the speed from which it can stop
there; its velocity changes by at most a_max, so that a lower v_max is reached by slowing down. -/
def refToward (s : State) (t : Qty × Qty) (vMax : Qty) (pass : Bool) : (Qty × Qty) × (Qty × Qty) × Bool :=
  let a := s.image.fusion.aMax
  let v := (s.set.refVn, s.set.refVe)
  let d := (t.1 - s.set.refN, t.2 - s.set.refE)
  let dist := d.1 * d.1 + d.2 * d.2
  let l := Config.sqrt dist
  let most := if pass then vMax else min vMax (min (brakeSpeed a l) (l * 100))
  let w := clampQ 0 most (Config.refSpeed l (Config.sqrt (v.1 * v.1 + v.2 * v.2)) vMax a)
  let dv := cutTo (a / 100) (d.1 / l * w - v.1, d.2 / l * w - v.2)
  let v' := (v.1 + dv.1, v.2 + dv.2)
  let step := (v'.1 * v'.1 + v'.2 * v'.2) / 10000
  let near := decide (dist ≤ step)
  if near && (pass || decide (v.1 * v.1 + v.2 * v.2 ≤ a * a / 10000)) then
    if pass then ((s.set.refN + v'.1 / 100, s.set.refE + v'.2 / 100), v', true) else (t, (0, 0), true)
  else if dist = 0 && v.1 = 0 && v.2 = 0 then (t, (0, 0), true)
  else ((Config.f32 (s.set.refN + v'.1 / 100), Config.f32 (s.set.refE + v'.2 / 100)), v', false)

/-- The angle still to turn: the fixed direction of the command, else the shorter way, exactly 180° to starboard (R191). -/
def turnLeft (ref target : Qty) (dir : Option Bool) : Qty :=
  match dir with
  | some true => wrap360 (target - ref)
  | some false => -(wrap360 (ref - target))
  | none => wrap180 (target - ref)

/-- The heading reference of one frame (R191). -/
def refHeading (s : State) (target : Option Qty) : SetSt :=
  let m := speedOf s.image.fusion.rMax s.set.rMax / 100
  match target with
  | none => { s.set with refR := 0 }
  | some t =>
    let d := clampQ (-m) m (turnLeft s.set.refPsi t s.set.turn)
    { s.set with refPsi := wrap360 (s.set.refPsi + d), refR := d * 100 }

/-- The reference follows the estimate. -/
def refFollow (s : State) (heading : Bool) : SetSt :=
  let p := heldPoint s
  { s.set with refN := p.1, refE := p.2, refVn := 0, refVe := 0, refAn := 0, refAe := 0,
               refPsi := if heading then s.obs.psi else s.set.refPsi, refR := if heading then 0 else s.set.refR }

/-- The position reference runs to a target. -/
def refRun (s : State) (x : SetSt) (t : Option (Qty × Qty)) (v : Qty) (pass : Bool) : SetSt × Bool :=
  match t with
  | none => ({ x with refVn := 0, refVe := 0, refAn := 0, refAe := 0 }, false)
  | some t =>
    let (p, w, done) := refToward s t v pass
    ({ x with refN := p.1, refE := p.2, refVn := w.1, refVe := w.2, refAn := (w.1 - s.set.refVn) * 100, refAe := (w.2 - s.set.refVe) * 100 }, done)

/-- Track-Follow (R193): the leg in hand, its speed and heading; TRACK_END at the last waypoint. -/
def refTrack (s : State) : SetSt :=
  let n := s.set.track.length
  match s.set.track[s.set.leg]? with
  | none => refFollow s true
  | some w =>
    let last := decide (n ≤ s.set.leg + 1)
    let vm := speedOf (speedOf s.image.fusion.vMax s.set.vMax) w.speed
    let dn := w.n - s.set.refN
    let de := w.e - s.set.refE
    let hd := if s.set.alongLeg then (if dn = 0 && de = 0 then s.set.refPsi else wrap360 (Config.atan2Deg de dn)) else w.heading
    let x := refHeading { s with set.turn := none } (some hd)
    let (y, done) := refRun s { x with turn := s.set.turn } (some (w.n, w.e)) vm (!last)
    if done then (if last then { y with trackEnd := true } else { y with leg := s.set.leg + 1 }) else y

/-- The reference model of one frame (Table 6-10). -/
def refStep (s : State) : State :=
  let vm := speedOf s.image.fusion.vMax s.set.vMax
  match lawMode s with
  | .standbyHold | .joystick => { s with set := refFollow s true }
  | .autoHeading =>
    let x := refHeading s s.set.hdgTarget
    let f := refFollow s false
    { s with set := { f with refPsi := x.refPsi, refR := x.refR } }
  | .autoPosition => { s with set := (refRun s (refHeading s s.set.hdgTarget) s.set.posTarget vm false).1 }
  | .tipHold => { s with set := (refRun s (refHeading s s.set.hdgTarget) s.set.tipTarget vm false).1 }
  | .trackFollow => { s with set := refTrack s }

/-- A DP mode takes effect (R190, R205, R226): targets kept or set to the estimate, the reference at the estimate; the
integrals of axes that come to the controller are set by `integAll`. -/
def enterMode (m : DpMode) (body : Nat) (s : State) : State :=
  let old := s.set.mode
  let hdg := fun (x : DpMode) => x == .autoHeading || x == .autoPosition || x == .tipHold
  let s := { s with set.mode := m, set.body := if m == .tipHold then body else s.set.body }
  let p := heldPoint s
  { s with
    set.hdgTarget := if hdg m && !(hdg old) then some s.obs.psi else s.set.hdgTarget
    set.turn := if hdg m && !(hdg old) then none else s.set.turn
    set.posTarget := if m == .autoPosition && old != .autoPosition then some p else s.set.posTarget
    set.tipTarget := if m == .tipHold && old != .tipHold then some p else s.set.tipTarget
    set.tipDepth := if m == .tipHold && old != .tipHold then none else s.set.tipDepth
    set.leg := if m == .trackFollow && old != .trackFollow then 0 else s.set.leg
    set.trackEnd := if m == .trackFollow && old != .trackFollow then false else s.set.trackEnd
    set.refN := p.1
    set.refE := p.2
    set.refPsi := s.obs.psi
    set.refVn := 0
    set.refVe := 0
    set.refR := 0
    set.refAn := 0
    set.refAe := 0 }

/-! ### Terms of the law (R203) -/

/-- What the law needs of one axis: error, velocity error, feedforward. -/
structure Terms where
  e : Qty := 0
  ev : Qty := 0
  ff : Qty := 0
deriving DecidableEq, Repr, Inhabited

/-- The environmental force and moment used: held at POSITION_LOST (R207). -/
def envUsed (s : State) : Qty × Qty × Qty := s.ctl.envHeld.getD (s.obs.envN, s.obs.envE, s.obs.envM)

/-- The wind force of the vessel model; zero with SENSOR_NONE (R203). -/
def windUsed (s : State) (a : Nat) : Qty :=
  if (s.ref.votes.getD 4 {}).status = 3 || (s.ref.votes.getD 5 {}).status = 3 then 0
  else match a with
    | 0 => s.obs.tauWindX
    | 1 => s.obs.tauWindY
    | _ => s.obs.tauWindN

/-- The terms of an axis; `accR` is the angular acceleration of the reference (R203). Each operation is rounded to binary32, in the order
in which R203 writes them (R202; the order is the model's, assumption 3). -/
def axisTerms (s : State) (accR : Qty) (a : Nat) : Terms :=
  let c := axisRec s a
  let psi := s.obs.psi
  let p := heldPoint s
  let e := turnBody psi (subF p.1 s.set.refN) (subF p.2 s.set.refE)
  let vr := turnBody psi s.set.refVn s.set.refVe
  let ar := turnBody psi s.set.refAn s.set.refAe
  let v := heldVel s
  let f := envUsed s
  let fb := turnBody psi f.1 f.2.1
  let ff := fun (acc env : Qty) => subF (subF (mulF c.mFf acc) (mulF c.wEnv env)) (mulF c.wWind (windUsed s a))
  match a with
  | 0 => { e := e.1, ev := subF v.1 vr.1, ff := ff ar.1 fb.1 }
  | 1 => { e := e.2, ev := subF v.2 vr.2, ff := ff ar.2 fb.2 }
  | _ => { e := rnd32 (wrap180 (subF psi s.set.refPsi)), ev := subF s.obs.r s.set.refR, ff := ff accR f.2.2 }

/-- kp and ki of an axis at the present DP alarm level (R207, R208). -/
def axisGain (s : State) (a : Nat) : Qty := if a = 2 then 1 else s.ctl.gainScale

/-! ### Repetitive compensator (R209 to R212) -/

/-- The Q15 value of a compensator field of the active bank: gamma, lambda, out_lim. -/
def compQ (s : State) (a k : Nat) : Int := bankQ15 s s.ctl.active (0x200 + 16 * a + 2 * k)

/-- lead of the active bank, in frames. -/
def compLead (s : State) (a : Nat) : Nat := leNat (bankBytes s s.ctl.active (0x206 + 16 * a) 2)

/-- The fraction of a phase. -/
def frac1 (x : Qty) : Qty := x - x.floor

/-- 0.01 as binary32: the frame in seconds. -/
def hundredth : Qty := rnd32 (1 / 100)

/-- The phase advanced by one frame (R210). -/
def nextPhi (x : Axis) : Qty := addF x.phi (divF hundredth x.inUse)

/-- Linear circular interpolation of the bins at a phase, each bin's value at its start (R210; assumption 47). -/
def binsAt (bins : List Int) (phi : Qty) : Qty :=
  let x := frac1 phi * 512
  let k := x.floor.toNat
  let a : Qty := (bins.getD (k % 512) 0 : Int)
  let b : Qty := (bins.getD ((k + 1) % 512) 0 : Int)
  divF (addF a (mulF (subF b a) (subF x k))) 32768

/-- rep of an axis at its advanced phase, in force (R210). -/
def compOut (s : State) (a : Nat) (x : Axis) (phi : Qty) : Qty :=
  let lim : Qty := ((compQ s a 2 : Int) : Qty) / 32768
  mulF (clampQ (-lim) lim (binsAt x.bins (addF phi (divF (mulF (compLead s a : Qty) hundredth) x.inUse)))) (axisRec s a).tauMax

/-- The integral that makes raw equal to the previous demand (R205), with the compensator's contribution at the phase that the
law comes to. -/
def integFor (s : State) (a : Nat) : Qty :=
  let c := axisRec s a
  let x := s.ctl.axes.getD a {}
  let t := axisTerms s 0 a
  let rep := if x.compState = 0 then 0 else compOut s a x (nextPhi x)
  let pd := subF (mulF (-(mulF (axisGain s a) c.kp)) t.e) (mulF c.kd t.ev)
  clampQ (-c.iLim) c.iLim (subF (addF (addF pd t.ff) rep) x.tau)

/-- A mode change takes effect (R190, R205, R226). -/
def applyMode (m : DpMode) (body : Nat) (s : State) : State :=
  if s.set.mode == m && (m != .tipHold || s.set.body == body) then s
  else
    let old := s.set.mode
    let s := if axisInjected s then endInjection 6 s else s
    let s := enterMode m body s
    { s with ctl.axes := s.ctl.axes.mapIdx (fun a x =>
        if axisSource m a = 2 && axisSource old a ≠ 2 then { x with integ := integFor s a } else x) }

/-! ### SETPOINT_SET (R192, R195) -/

/-- The distance from an estimated point to the target, and the time at a speed, as the result of SETPOINT_SET gives them. -/
def setpointResult (s : State) (from' to' : Qty × Qty) (v : Qty) : List Byte :=
  let d := Config.sqrt ((to'.1 - from'.1) * (to'.1 - from'.1) + (to'.2 - from'.2) * (to'.2 - from'.2))
  leBytes 4 (effectFrame s) ++ f32Bytes d ++ f32Bytes (Config.f32 (d / v))

/-- A move farther than the image's limit (R192). -/
def tooFar (s : State) (a b : Qty × Qty) : Bool :=
  decide (s.image.fusion.moveLimit * s.image.fusion.moveLimit < (a.1 - b.1) * (a.1 - b.1) + (a.2 - b.2) * (a.2 - b.2))

/-- SETPOINT_SET (0x0404). What a command does not give stays as it is. The tip's distance counts from the estimate of the tip, and a tip
without target is taken to stand at its estimate (DESIGN CHOICE; assumption 105). -/
def setpointSetSpec : OpSpec :=
  { auth := fun _ => 1
    role := fun s _ => drives s
    len := fun _ p => setpointLen p
    run := fun _ p s =>
      let b := p.payload
      let kind := fieldByte b 0
      let flags := fieldByte b 1
      if 2 < kind then fail 0x0013 s
      else match fieldF64 b 4, fieldF64 b 12, fieldF32 b 24, fieldF32 b 28 with
        | some n, some e, some v, some r =>
          let hd := bamDeg (fieldNat b 20 4)
          let vUse := speedOf s.image.fusion.vMax v
          if v < 0 || 2 < v || r < 0 then fail 0x0014 s
          else if kind = 0 then
            let (dn, de) := turnNE s.obs.psi n e
            let cur := curTarget s
            let t := if flags.testBit 2 then (cur.1 + dn, cur.2 + de) else (n, e)
            if flags.testBit 0 && tooFar s t cur then fail 0x0014 s
            else
              { status := 1, result := setpointResult s (s.obs.n, s.obs.e) (if flags.testBit 0 then t else cur) vUse
                state := defer (.setPosition flags n e hd v r) s }
          else if kind = 1 then
            let cnt := fieldByte b 32
            let wps := (List.range cnt).map (fun i => waypointAt b (36 + 24 * i))
            if cnt = 0 || 16 < cnt || wps.any (fun w => match w with
                | none => true
                | some w => decide (2 < w.speed) || decide (w.speed < 0)) then fail 0x0014 s
            else
              let l := wps.filterMap id
              let w := l.headD {}
              { status := 1, result := setpointResult s (s.obs.n, s.obs.e) (w.n, w.e) (speedOf vUse w.speed)
                state := defer (.setTrack l ((fieldByte b 33).testBit 0) v r) s }
          else
            let body := fieldByte b 36
            let tip := tipEstimate s body
            let cur := s.set.tipTarget.getD tip
            let (dn, de) := turnNE s.obs.psi n e
            let t := if flags.testBit 2 then (cur.1 + dn, cur.2 + de) else (n, e)
            match fieldF32 b 32 with
            | none => fail 0x0014 s
            | some depth =>
              if 1 < body || s.image.alloc.bodies.length ≤ body || (flags.testBit 0 && s.set.tipTarget.isSome && tooFar s t cur) then
                fail 0x0014 s
              else if !(s.alloc.bodies.getD body {}).inUse then fail 0x0021 s
              else
                { status := 1, result := setpointResult s tip (if flags.testBit 0 then t else cur) vUse
                  state := defer (.setTip flags n e hd depth v r body) s }
        | _, _, _, _ => fail 0x0014 s }

/-- SETPOINT_SET (R192, R195). -/
def execSetpointSet (p : Packet) (s : State) : Host.Outcome State Fault Refusal :=
  .next (processPacket (some setpointSetSpec) { p with opcode := 0x0404 } s)

/-- A TIP takes effect (R192, R258). -/
def applyTip (flags : Nat) (n e hd depth v r : Qty) (body : Nat) (s : State) : State :=
  let cur := s.set.tipTarget.getD (tipEstimate s body)
  let (dn, de) := turnNE s.obs.psi n e
  { s with
    set.tipTarget := if flags.testBit 0 then some (if flags.testBit 2 then (cur.1 + dn, cur.2 + de) else (n, e)) else s.set.tipTarget
    set.hdgTarget := if flags.testBit 1 then some hd else s.set.hdgTarget
    set.turn := if flags.testBit 1 then turnOf flags else s.set.turn
    set.tipDepth := some depth
    set.body := body
    set.vMax := v
    set.rMax := r }

/-! ### Joystick (R204, R206) -/

/-- The joystick axis was faulted or older than 100 ms at the frame boundary (R206). -/
def joyBad (s : State) (a : Nat) : Bool := (s.ctl.joyIn.getD a none).isNone

/-- Deflection with the deadband removed and the remainder rescaled (R204). -/
def deflection (s : State) (a : Nat) : Qty :=
  match s.ctl.joyIn.getD a none with
  | none => 0
  | some d =>
    let z := (axisRec s a).jDead
    if absQ d ≤ z then 0 else if 0 < d then divF (subF d z) (subF 1 z) else divF (addF d z) (subF 1 z)

/-! ### Learning (R210 to R212) -/

/-- The bins that [from, to) meets, at least the bin of `to` (R210). -/
def binsMet (from' to' : Qty) : List Nat :=
  let lo := (from' * 512).floor
  let hi := (to' * 512).floor
  ((List.range ((hi - lo).toNat + 1)).map (fun (k : Nat) => ((lo + (k : Int)) % 512).toNat)).take 512

/-- One bin updated (R210). -/
def learnBin (gamma lambda fb v : Int) : Int := wb (accAdd (accSat ((32768 - lambda) * v)) (gamma * fb)) 0

/-- One frame of an axis's compensator after its demand is known: bins, phase, periods and mean squares (R210, R211,
Table 7-13). With PULSE a period ends at its mark (R212). -/
def compStep (s : State) (a : Nat) (x : Axis) (phi : Qty) (paused : Bool) : Axis :=
  let m := (axisRec s a).tauMax
  let fb := toQ15 (x.fb / m)
  let x := if x.compState = 1 && !paused then
      { x with bins := (binsMet x.phi phi).foldl (fun l b => l.modify b (learnBin (compQ s a 0) (compQ s a 1) fb)) x.bins } else x
  let sq := addF x.sumSq (mulF x.fb x.fb)
  let n := x.sumN + 1
  let x := { x with phi := frac1 phi, paused := x.compState = 1 && paused }
  if 1 ≤ phi && !x.pulse then
    { x with periods := if x.compState = 1 then sat 16 (x.periods + 1) else x.periods, rmsLast := sq / n, sumSq := 0, sumN := 0 }
  else { x with sumSq := sq, sumN := n }

/-- A channel in digital mode (mode 7), as a source of pulses must be (R212). -/
def pulseInput (s : State) (ch : Nat) : Bool := decide (ch ≤ 127) && (chanOf s ch).cfg.mode == 7

/-- The pulse channels of the newest tick set (R212): a rising edge marks phase 0, or is ignored and counted. -/
def pulseMarks (s : State) : State :=
  { s with ctl.axes := s.ctl.axes.map (fun x =>
    if !x.pulse || !(pulseInput s x.pulseCh) then x
    else
      let lv := (chanOf s x.pulseCh).up.value
      let rise := x.pulseLevel = 0 && lv ≠ 0
      let x := { x with pulseLevel := lv }
      if !rise then x
      else match x.pulseLast with
        | none => { x with pulseLast := some s.mono, pulseSeen := s.mono }
        | some t =>
          let d : Qty := ((s.mono - t : Nat) : Qty) / 1000
          let x := { x with pulseLast := some s.mono, pulseSeen := s.mono }
          if x.period * 9 / 10 ≤ d && d ≤ x.period * 11 / 10 then
            { x with phi := 0, inUse := d, ignoredRun := 0,
                     periods := if x.compState = 1 then sat 16 (x.periods + 1) else x.periods,
                     rmsLast := if x.sumN = 0 then x.rmsLast else x.sumSq / x.sumN, sumSq := 0, sumN := 0 }
          else { x with ignored := sat 32 (x.ignored + 1), ignoredRun := x.ignoredRun + 1 }) }

/-- PERIOD_LOST (R212): three ignored marks in a row, or no mark for 1.5 T. -/
def execPeriodLost (axis : Nat) (s : State) : Host.Outcome State Fault Refusal :=
  let x := s.ctl.axes.getD axis {}
  .next (if lanesRun s && decide (axis ≤ 2) && x.pulse && x.compState ≠ 0 && !x.periodLost
      && (decide (3 ≤ x.ignoredRun) || decide (x.period * 1500 ≤ ((s.mono - x.pulseSeen : Nat) : Qty))) then
    logL 7 3 (leBytes 1 axis) { s with ctl.axes := s.ctl.axes.modify axis (fun x => { x with compState := 2, periodLost := true }) }
  else s)

/-! ### The law of one frame (R203 to R211) -/

/-- Demand after the rate limit and the clamp (R203). -/
def limitTau (c : AxisRec) (prev raw : Qty) : Qty :=
  let d := mulF c.rate hundredth
  clampQ (-c.tauMax) c.tauMax (addF prev (clampQ (-d) d (subF raw prev)))

/-- Same sign, zero counting as positive and negative alike only with zero. -/
def sameSign (a b : Qty) : Bool := (decide (0 < a) && decide (0 < b)) || (decide (a < 0) && decide (b < 0)) || (a == 0 && b == 0)

/-- One axis in one frame. -/
def axisStep (s : State) (accR : Qty) (a : Nat) (x : Axis) : Axis :=
  let c := axisRec s a
  let src := axisSource (lawMode s) a
  let inj := injAt s 2 a 0
  let phi := nextPhi x
  let x := { x with inj := inj }
  let injd := (s.ctl.inj.job.map (fun j => j.target == 2 && j.index == a)).getD false && s.ctl.inj.running
  match src with
  | 2 =>
    let t := axisTerms s accR a
    let g := axisGain s a
    let rep := if x.compState = 0 then 0 else compOut s a x phi
    let fb := subF (subF (mulF (-(mulF g c.kp)) t.e) (mulF c.kd t.ev)) x.integ
    let raw := addF (addF (addF fb t.ff) rep) inj
    let ki := mulF g c.ki
    let go := decide (s.obs.level < 2) && !(decide (c.tauMax ≤ absQ raw) && sameSign (mulF ki t.e) raw)
    let tau := limitTau c x.tau raw
    let x := { x with e := t.e, fb := fb, rep := rep, tau := tau,
                      integ := if go then clampQ (-c.iLim) c.iLim (addF x.integ (mulF (mulF ki t.e) hundredth)) else x.integ }
    compStep s a x phi (decide (c.tauMax ≤ absQ tau) || decide (2 ≤ s.obs.level) || injd)
  | 1 =>
    let raw := if joyBad s a then 0 else mulF (mulF c.jGain c.tauMax) (deflection s a)
    let x := { x with e := 0, fb := 0, rep := 0, tau := limitTau c x.tau (addF raw inj) }
    compStep s a x phi true
  | _ =>
    let x := { x with e := 0, fb := 0, rep := 0, tau := limitTau c x.tau inj }
    compStep s a x phi true

/-- JOYSTICK_FAULT of each joystick axis (R206): a fault is logged and asserts vector 39; its end is logged. -/
def joyFaults (s : State) : State :=
  (List.range 3).foldl (fun s a =>
    let f := axisSource (lawMode s) a == 1 && joyBad s a
    if f = (s.ctl.axes.getD a {}).joyFault then s
    else
      let s := logL 7 1 (leBytes 1 a ++ leBytes 1 (if f then 1 else 0)) { s with ctl.axes := s.ctl.axes.modify a (fun x => { x with joyFault := f }) }
      if f then assertVec 39 s else s) s

/-- What POSITION_LOST does to the law (R207, R208). -/
def levelStep (s : State) : State :=
  if s.obs.level = 3 then
    { s with ctl.gainScale := 0, ctl.termsOff := true, ctl.returnAt := none,
             ctl.envHeld := some (envUsed s) }
  else if s.ctl.termsOff then
    let t := s.ctl.returnAt.getD s.mono
    { s with ctl.returnAt := some t, ctl.envHeld := none,
             ctl.gainScale := min 1 (((s.mono - t : Nat) : Qty) / 10000) }
  else s

/-- The demand passed to the solve: in Tip-Hold the Jacobian transpose of the tip force (R256). -/
def demandOf (s : State) : List Qty :=
  let t := fun a => (s.ctl.axes.getD a {}).tau
  if lawMode s == .tipHold then
    let r := (tipVector s s.set.body).1
    [t 0, t 1, subF (addF (t 2) (mulF r.x (t 1))) (mulF r.y (t 0))]
  else [t 0, t 1, t 2]

/-- A reference that a position reset restarts in Tip-Hold begins at the tip's estimate (R194, R255). -/
def restartRef (s : State) : State :=
  if s.set.restart then
    let p := heldPoint s
    { s with set.restart := false, set.refN := p.1, set.refE := p.2, set.refVn := 0, set.refVe := 0 }
  else s

/-- The control law of one frame (R203). -/
def lawFrame (s : State) : State :=
  let s := restartRef (joyFaults (levelStep (tipStep s)))
  let r0 := s.set.refR
  let s := refStep s
  let accR := (s.set.refR - r0) * 100
  let s := { s with ctl.axes := s.ctl.axes.mapIdx (axisStep s accR) }
  { s with ctl.tau := demandOf s }

/-- The most that the control law is charged, in µs (R198): 60, and 20 for each axis whose compensator is LEARNING. -/
def lawCharge (s : State) : Nat := 60 + 20 * (s.ctl.axes.filter (fun x => x.compState == 1)).length

/-- CONTROL_LAW (R198, R203 to R211, R254 to R257): activity 5. -/
def execControlLaw (s : State) : Host.Outcome State Fault Refusal :=
  .next (if mayRun 5 s then completeIn 5 (lawCharge s) (if works s then lawFrame s else s) else s)

/-- POSITION_TERMS_RETURN (R208): 10 s after the level fell below POSITION_LOST. -/
def execPositionTermsReturn (s : State) : Host.Outcome State Fault Refusal :=
  .next (if lanesRun s && s.ctl.termsOff && decide (s.obs.level < 3) && heldFor s s.ctl.returnAt 10000 then
    { s with ctl.termsOff := false, ctl.gainScale := 1, ctl.returnAt := none }
  else s)

/-! ### REPETITIVE_CTRL (Table 7-13) -/

/-- A REPETITIVE_CTRL write on one axis (R211, R212); `level` is the present state of the pulse channel, from which an edge rises. -/
def repAxis (mono action source : Nat) (period : Qty) (channel : Nat) (level : Int) (x : Axis) : Axis :=
  let x := if period = 0 || period = x.period then x
    else { x with period := period, inUse := period, bins := List.replicate 512 0 }
  let pulse := source = 1
  let x := if pulse = x.pulse && channel = x.pulseCh then x
    else { x with pulse := pulse, pulseCh := channel, pulseLast := none, pulseSeen := mono, pulseLevel := level, ignoredRun := 0, periodLost := false,
                  inUse := x.period }
  match action with
  | 1 => if x.compState = 1 then x
         else { x with compState := 1, periods := 0, rmsBefore := x.rmsLast, periodLost := false, ignoredRun := 0, pulseSeen := mono }
  | 2 => { x with compState := 2 }
  | 3 => { x with bins := List.replicate 512 0 }
  | 4 => { x with compState := 0 }
  | _ => x

/-- A REPETITIVE_CTRL write takes effect. -/
def applyRepetitive (axes action source : Nat) (period : Qty) (channel : Nat) (s : State) : State :=
  { s with ctl.axes := s.ctl.axes.mapIdx (fun a x => if axes.testBit a then
      repAxis s.mono action source period channel (chanOf s channel).up.value x else x) }

/-- REPETITIVE_CTRL result: 16 bytes per axis. -/
def repResult (s : State) : List Byte :=
  (s.ctl.axes.map (fun x => leBytes 1 x.compState ++ leBytes 1 (bitN x.periodLost 0 + bitN x.paused 1) ++ leBytes 2 x.periods ++
    f32Bytes x.inUse ++ f32Bytes (Config.sqrt x.rmsLast) ++ f32Bytes (Config.sqrt x.rmsBefore))).flatten

/-- REPETITIVE_CTRL (0x0505). -/
def repetitiveSpec : OpSpec :=
  { auth := fun p => if fieldByte p.payload 0 = 0 then 0 else 1
    role := fun s _ => drives s
    len := fun _ p => p.payload.length == 12
    run := fun _ p s =>
      let b := p.payload
      let ax := fieldByte b 1
      let ac := fieldByte b 2
      let src := fieldByte b 3
      let ch := fieldByte b 8
      if 1 < fieldByte b 0 then fail 0x0013 s
      else if fieldByte b 0 = 0 then { status := 0, result := repResult s, state := s }
      else if 4 < ac || 1 < src then fail 0x0013 s
      else match fieldF32 b 4 with
        | none => fail 0x0014 s
        | some t =>
          if 7 < ax || (127 < ch && ch ≠ 255) || (t ≠ 0 && (t < 2 || 120 < t)) then fail 0x0014 s
          else if src = 1 && !(pulseInput s ch) then fail 0x0013 s
          else if (applyRepetitive ax ac src t ch s).ctl.axes = s.ctl.axes && !waits (.repetitive 0 0 0 0 0) s then { status := 0, result := repResult s, state := s }
          else { status := 1, result := repResult s, state := defer (.repetitive ax ac src t ch) s } }

/-- REPETITIVE_CTRL (R211, R212). -/
def execRepetitiveCtrl (p : Packet) (s : State) : Host.Outcome State Fault Refusal :=
  .next (processPacket (some repetitiveSpec) { p with opcode := 0x0505 } s)

end Sys2Proof.Machine
end

