-- ==== Sys2Proof/Machine/Alloc.lean ====
section
/-! DEFINITION. Thrust allocation (chapter 08): thruster states, the quadratic programme and its ADMM solve, outcomes,
output distribution, sector escape, and the opcodes of the chapter. A thruster's variables are (Fx, Fy), or (F, 0) for a
FIXED one. -/

namespace Sys2Proof.Machine

/-- The payload bits of the NaN that a result field holds (the manual says NaN, not which). Free value; assumption 52. -/
opaque Config.nanPayload : Nat

/-- Four bytes of a binary32 field that may be NaN. -/
def f32OrNan (q : Option Qty) : List Byte :=
  match q with
  | some v => f32Bytes v
  | none => leBytes 4 (0x7FC00000 + Config.nanPayload % 0x400000)

/-! ### Thruster states (R235 to R237, R241) -/

/-- The code of a thruster state (Table 8-2). -/
def ThrState.code : ThrState → Nat
  | .unconfigured => 0
  | .disabled => 1
  | .ramping => 2
  | .available => 3
  | .saturated => 4
  | .degraded => 5
  | .transit => 6
  | .lost => 7

/-- A thruster in this state takes part in the solve (R235). -/
def takesPart (st : ThrState) : Bool := st == .available || st == .saturated || st == .degraded

/-- The configured thrusters, in number order. -/
def cfgThrs (s : State) : List (Nat × ThrCfg) :=
  (s.image.alloc.thrusters.zipIdx).filterMap (fun x => x.1.map (fun c => (x.2, c)))

/-- The first state of R235's order that applies. -/
def thrStateOf (x : Thr) : ThrState :=
  if !x.enabled then (if x.ramping then .ramping else .disabled)
  else if x.lostLatch then .lost
  else if x.inTransit.isSome then .transit
  else if x.fbLost then .degraded
  else if x.limited then .saturated
  else .available

/-- The sector-side edge of a cone, azimuth in degrees; cone A is `true` (R239). -/
def sideEdge (c : SectorCfg) (a : Bool) : Qty := if a then c.centre + c.half else c.centre - c.half

/-- The far edge of a cone (R239). -/
def farEdge (c : SectorCfg) (a : Bool) : Qty := if a then c.centre + c.half + 180 else c.centre - c.half - 180

/-- A configured sector of a thruster. -/
def sectorOf (c : ThrCfg) (k : Nat) : SectorCfg := c.sectors.getD k {}

/-- The end of TRANSIT (R241): within 2° of the far edge, with the other cone selected; at once for a thruster LOST,
disabled, or in Safe-Stop. -/
def endTransit (safe : Bool) (c : ThrCfg) (x : Thr) : Thr :=
  match x.inTransit with
  | none => x
  | some k =>
    let a := (x.cones.getD k none).getD true
    if safe || x.lostLatch || !x.enabled then { x with inTransit := none }
    else if absQ (wrap180 (x.delAz - farEdge (sectorOf c k) a)) ≤ 2 then
      { x with inTransit := none, cones := x.cones.set k (some (!a)) }
    else x

/-- A thruster at the frame boundary (R235 to R237). -/
def stepThr (s : State) (c : ThrCfg) (x : Thr) : Thr :=
  let x := { x with ramping := x.ramping && !(decide (absQ x.delT < c.tMax / 100)), lostLatch := x.lostLatch || x.causes }
  let x := endTransit (s.pow.state == .safeStop) c x
  let st := thrStateOf x
  { x with
    state := st
    ramp := if st == .ramping then x.ramp else 0
    cap := match st with
      | .saturated => some (Config.f32 (absQ x.delT + c.rate * s.image.alloc.horizon))
      | .degraded => some (Config.f32 (c.kDeg * c.tMax))
      | _ => none }

/-- Every thruster at the frame boundary; the end of a TRANSIT is a change of cone (R240, R241). -/
def stepThrs (s : State) : State :=
  let thr := s.alloc.thr.mapIdx (fun t x => match thrCfg s t with
    | some c => stepThr s c x
    | none => { x with state := .unconfigured })
  { s with alloc.thr := thr, alloc.sectorSwitch := (List.zip s.alloc.thr thr).any (fun x => x.1.cones != x.2.cones) }

/-- Changes of thruster state are logged, vector 39 (R236). -/
def logThrs (before : List Thr) (s : State) : State :=
  (List.range 32).foldl (fun s t =>
    let a := (before.getD t {}).state
    let b := (s.alloc.thr.getD t {}).state
    if a == b then s
    else assertVec 39 (logL 8 1 (leBytes 1 t ++ leBytes 1 a.code ++ leBytes 1 b.code) s)) s

/-! ### Forces -/

/-- The unit vector of an azimuth in degrees. -/
def dirOf (az : Qty) : Qty × Qty := (Config.cosDeg az, Config.sinDeg az)

/-- Inner product. -/
def dot2 (a b : Qty × Qty) : Qty := a.1 * b.1 + a.2 * b.2

/-- The variables that spell a thrust along an azimuth. -/
def varsOf (c : ThrCfg) (thrust az : Qty) : Qty × Qty :=
  if c.azimuth then (Config.f32 (thrust * (dirOf az).1), Config.f32 (thrust * (dirOf az).2)) else (thrust, 0)

/-- F_del as variables (R233). -/
def delVars (c : ThrCfg) (x : Thr) : Qty × Qty := varsOf c x.delT x.delAz

/-- The force in the body frame that the variables spell. -/
def forceOf (c : ThrCfg) (v : Qty × Qty) : Qty × Qty :=
  if c.azimuth then v else (v.1 * Config.cosDeg c.alpha, v.1 * Config.sinDeg c.alpha)

/-- Force and moment at the VRP (R229). -/
def wrench (c : ThrCfg) (v : Qty × Qty) : List Qty :=
  let f := forceOf c v
  [f.1, f.2, c.x * f.2 - c.y * f.1]

/-- Sum of wrenches. -/
def addW (a b : List Qty) : List Qty := [a.getD 0 0 + b.getD 0 0, a.getD 1 0 + b.getD 1 0, a.getD 2 0 + b.getD 2 0]

/-- The azimuth of a force, 0° to less than 360°. -/
def azOf (v : Qty × Qty) : Qty := wrap360 (Config.atan2Deg v.2 v.1)

/-- The thrust that the variables spell: a magnitude, signed for a FIXED thruster. -/
def thrustOf (c : ThrCfg) (v : Qty × Qty) : Qty := if c.azimuth then Config.sqrt (v.1 * v.1 + v.2 * v.2) else v.1

/-- The model power of a thrust (R242). -/
def powerOf (c : ThrCfg) (thrust : Qty) : Qty := c.pRated * Config.rpow (absQ thrust / c.tMax) c.beta

/-- Its derivative. -/
def powerSlope (c : ThrCfg) (thrust : Qty) : Qty := c.pRated * c.beta / c.tMax * Config.rpow (thrust / c.tMax) (c.beta - 1)

/-! ### Sectors (R239, R240) -/

/-- A sector is active: its group is enabled and its condition thruster takes part (R239). -/
def sectorActive (s : State) (k : SectorCfg) : Bool :=
  (k.group == 0 || s.alloc.groups.testBit (k.group - 1)) &&
    (match k.cond with
      | none => true
      | some t => takesPart (s.alloc.thr.getD t {}).state)

/-- The azimuth of a cone's bisector. -/
def bisector (c : SectorCfg) (a : Bool) : Qty := if a then c.centre + c.half + 90 else c.centre - c.half - 90

/-- The azimuth lies in a cone (R239). -/
def inCone (c : SectorCfg) (az : Qty) (a : Bool) : Bool := decide (wrap360 (az - (if a then sideEdge c true else farEdge c false)) ≤ 180)

/-- The cone that a sector selects from the delivered azimuth (R240). -/
def selectCone (c : SectorCfg) (az : Qty) (prev : Option Bool) (held : Bool) : Bool :=
  match inCone c az true, inCone c az false with
  | true, false => true
  | false, true => false
  | true, true => match prev with
    | some a => if held then !a else a
    | none => decide (absQ (wrap180 (az - bisector c true)) ≤ absQ (wrap180 (az - bisector c false)))
  | false, false => decide (0 ≤ wrap180 (az - c.centre))

/-! ### The problem (R229, R230) -/

/-- A thruster's place in the problem: number, record, state, whether it takes part, first variable, first row. -/
structure Part where
  t : Nat := 0
  c : ThrCfg := {}
  x : Thr := {}
  free : Bool := false
  v0 : Nat := 0
  r0 : Nat := 0
deriving DecidableEq, Repr, Inhabited

/-- Variables of a thruster. -/
def nVars (c : ThrCfg) : Nat := if c.azimuth then 2 else 1

/-- Rows of a thruster. -/
def nRows (c : ThrCfg) : Nat := if c.azimuth then c.radii.length + 2 + c.sectors.length else 1

/-- The configured thrusters with their places (R230). -/
def parts (s : State) : List Part :=
  ((cfgThrs s).foldl (fun (r : List Part × Nat × Nat) y =>
    let x := s.alloc.thr.getD y.1 {}
    (r.1 ++ [{ t := y.1, c := y.2, x, free := takesPart x.state, v0 := r.2.1, r0 := r.2.2 }], r.2.1 + nVars y.2, r.2.2 + nRows y.2))
    ([], 0, 3)).1

/-- n: variables of the problem, of the image alone (R230). -/
def numVars (a : ImageAlloc) : Nat := ((a.thrusters.filterMap id).map nVars).foldl (· + ·) 3

/-- m: rows of the problem, of the image alone (R230). -/
def numRows (a : ImageAlloc) : Nat := ((a.thrusters.filterMap id).map nRows).foldl (· + ·) (3 + a.switchboards)

/-- One row: coefficients by variable, bounds (none: infinite), and its weight: 0 ordinary, 1 demand or pinned,
2 disabled (R244). -/
structure QRow where
  coef : List (Nat × Qty) := []
  lo : Option Qty := none
  hi : Option Qty := none
  weight : Nat := 0
deriving DecidableEq, Repr, Inhabited

/-- A row of a thruster that does not take part has l = u = 0 (R235). -/
def pinRow (free : Bool) (r : QRow) : QRow := if free then r else { r with lo := some 0, hi := some 0, weight := 1 }

/-- The share of the polygon that a cap leaves (R237). -/
def capShare (c : ThrCfg) (x : Thr) : Qty :=
  match x.cap with
  | none => 1
  | some k => min 1 (k / c.radii.foldl max 0)

/-- Normal and bound of the face from vertex k of the magnitude polygon (R232). -/
def face (c : ThrCfg) (k : Nat) : (Qty × Qty) × Qty :=
  let n := c.radii.length
  let vert := fun (i : Nat) =>
    let a : Qty := 360 * (i : Qty) / n
    ((c.radii.getD (i % n) 0) * Config.cosDeg a, (c.radii.getD (i % n) 0) * Config.sinDeg a)
  let p := vert k
  let q := vert (k + 1)
  let l := Config.sqrt ((q.1 - p.1) * (q.1 - p.1) + (q.2 - p.2) * (q.2 - p.2))
  let nv := (Config.f32 ((q.2 - p.2) / l), Config.f32 ((p.1 - q.1) / l))
  (nv, Config.f32 (dot2 nv p))

/-- F_c, the centre of the rate rows (R238); in Safe-Stop always the delivered force (R252). -/
def rateCentre (s : State) (p : Part) : Qty × Qty :=
  if p.x.state == .degraded && s.pow.state != .safeStop then (p.x.prevFx, p.x.prevFy) else delVars p.c p.x

/-- The rate rows of an AZIMUTH thruster: direction, centre and half-width (R238). -/
def rateRows (s : State) (p : Part) : List ((Qty × Qty) × Qty × Qty) :=
  let a := s.image.alloc
  let fc := rateCentre s p
  let er := dirOf p.x.delAz
  let et := (-er.2, er.1)
  [(er, dot2 er fc, p.c.rate * a.horizon),
   (et, dot2 et fc, max (Config.sqrt (fc.1 * fc.1 + fc.2 * fc.2)) (a.fTan * p.c.tMax) * Config.radOfDeg (p.c.azRate * a.horizon))]

/-- The bounds of a FIXED thruster's row: rate, magnitude and cap (R232, R237, R238). -/
def fixedBounds (s : State) (p : Part) : Qty × Qty :=
  let fc := (rateCentre s p).1
  let d := p.c.rate * s.image.alloc.horizon
  let lo := max (-p.c.tRev) (fc - d)
  let hi := min p.c.tMax (fc + d)
  match p.x.cap with
  | none => (lo, hi)
  | some k => (clampQ (-k) k lo, clampQ (-k) k hi)

/-- The rows of one thruster (R230). -/
def thrRows (s : State) (p : Part) : List QRow :=
  let two := fun (d : Qty × Qty) => [(p.v0, d.1), (p.v0 + 1, d.2)]
  let rows := if p.c.azimuth then
      (List.range p.c.radii.length).map (fun k =>
        let f := face p.c k
        { coef := two f.1, hi := some (f.2 * capShare p.c p.x) }) ++
      (rateRows s p).map (fun r => { coef := two r.1, lo := some (r.2.1 - r.2.2), hi := some (r.2.1 + r.2.2) }) ++
      (p.c.sectors.zipIdx).map (fun k =>
        let a := (p.x.cones.getD k.2 none).getD true
        let d := dirOf (bisector k.1 a)
        if sectorActive s k.1 then { coef := two d, lo := some 0 } else { coef := two d, weight := 2 })
    else
      let b := fixedBounds s p
      [{ coef := [(p.v0, 1)], lo := some b.1, hi := some b.2 }]
  rows.map (pinRow p.free)

/-! ### Power (R242, R243) -/

/-- The switchboards in a board's group, boards numbered 0 to 3 (R243). -/
def busGroup (s : State) (b : Nat) : List Nat :=
  let ties := (s.alloc.tiesIn.filterMap (fun k => s.image.alloc.ties[k]?)).map (fun t => (t.1 - 1, t.2.1 - 1))
  (List.range 4).foldl (fun g _ => (List.range 4).filter (fun x =>
    g.contains x || ties.any (fun t => (t.1 == x && g.contains t.2) || (t.2 == x && g.contains t.1)))) [b]

/-- The thrusters on a set of boards. -/
def onBoards (g : List Nat) (ps : List Part) : List Part := ps.filter (fun p => g.contains (p.c.switchboard - 1))

/-- The power budget of a row; none where the row is disabled (R242, R243). -/
def rowBudget (s : State) (ps : List Part) (b : Nat) : Option Qty :=
  let g := busGroup s b
  let ins := g.map (fun x => s.alloc.busIn.getD x none)
  if !s.alloc.powerRows || g.headD b ≠ b || ins.any (·.isNone) then none
  else
    let v := ins.filterMap id
    let res := g.foldl (fun r x => r + (s.image.ctl.buses.getD x {}).reserve) 0
    some (Config.f32 (v.foldl (fun r x => r + x.1 - x.2) 0 - res + (onBoards g ps).foldl (fun r p => r + powerOf p.c p.x.delT) 0))

/-- The linearised power of a row: coefficients and constant (R242). -/
def powerLin (s : State) (ps : List Part) (b : Nat) : List (Nat × Qty) × Qty :=
  (onBoards (busGroup s b) ps).foldl (fun r p =>
    let t0 := max (absQ p.x.delT) (p.c.tMax / 10)
    let k := powerSlope p.c t0
    let cs := if p.c.azimuth then
        let d := dirOf p.x.delAz
        [(p.v0, k * d.1), (p.v0 + 1, k * d.2)]
      else [(p.v0, if 0 ≤ p.x.delT then k else -k)]
    (r.1 ++ cs, r.2 + powerOf p.c t0 - k * t0)) ([], 0)

/-- The power rows (R230, R242). -/
def powerRows (s : State) (ps : List Part) : List QRow :=
  (List.range s.image.alloc.switchboards).map (fun b =>
    let l := powerLin s ps b
    match rowBudget s ps b with
    | some x => { coef := l.1, hi := some (x - l.2) }
    | none => { coef := l.1, weight := 2 })

/-! ### Vectors and matrices -/

/-- Inner product of vectors. -/
def dotL (a b : List Qty) : Qty := (List.zipWith (· * ·) a b).foldl (· + ·) 0

/-- A row's coefficients as a vector of n. -/
def dense (n : Nat) (coef : List (Nat × Qty)) : List Qty :=
  (List.range n).map (fun j => Config.f32 ((coef.filter (fun c => c.1 == j)).foldl (fun r c => r + c.2) 0))

/-- A·x. -/
def mulVec (a : List (List Qty)) (x : List Qty) : List Qty := a.map (fun r => Config.f32 (dotL r x))

/-- Aᵀ·y. -/
def tmulVec (n : Nat) (a : List (List Qty)) (y : List Qty) : List Qty :=
  (List.range n).map (fun j => Config.f32 (dotL (a.map (fun r => r.getD j 0)) y))

/-- A vector computed entry by entry and rounded. -/
def zip3 (f : Qty → Qty → Qty → Qty) (a b c : List Qty) : List Qty :=
  List.zipWith (fun x (y : Qty × Qty) => Config.f32 (f x y.1 y.2)) a (List.zip b c)

/-- One row of the factor L of LDLᵀ, and its pivot, from the rows and pivots before it. -/
def ldlRow (ls : List (List Qty)) (ds : List Qty) (k : List Qty) : List Qty × Qty :=
  let l := (List.range ls.length).foldl (fun (r : List Qty) j =>
    let sum := dotL (List.zipWith (· * ·) r (ls.getD j [])) ds
    r ++ [Config.f32 ((k.getD j 0 - sum) / ds.getD j 1)]) []
  (l, Config.f32 (k.getD ls.length 0 - dotL (List.zipWith (· * ·) l l) ds))

/-- The factor of K: rows of L without the diagonal, pivots, smallest pivot, whether a pivot was too small (R246). -/
structure Fact where
  ls : List (List Qty) := []
  ds : List Qty := []
  least : Option Qty := none
  small : Bool := false
deriving DecidableEq, Repr, Inhabited

/-- LDLᵀ with pivots in variable order; a pivot below the floor is replaced by it, or ends the factorisation where `stop` says
so (R246). -/
def factor (floor : Qty) (stop : Bool) (k : List (List Qty)) : Fact :=
  k.foldl (fun f row =>
    let (l, d) := ldlRow f.ls f.ds row
    if stop && f.small then f
    else
    { ls := f.ls ++ [l], ds := f.ds ++ [if d < floor then floor else d], least := some (min d (f.least.getD d)),
      small := f.small || decide (d < floor) }) {}

/-- L·D·Lᵀ·x = b solved. -/
def solveL (f : Fact) (b : List Qty) : List Qty :=
  let n := f.ds.length
  let y := (List.range n).foldl (fun (r : List Qty) i => r ++ [Config.f32 (b.getD i 0 - dotL (f.ls.getD i []) r)]) []
  let z := List.zipWith (fun v d => Config.f32 (v / d)) y f.ds
  (List.range n).foldr (fun i (r : List Qty) =>
    let up := (List.range (n - 1 - i)).map (fun j => (f.ls.getD (i + 1 + j) []).getD i 0)
    Config.f32 (z.getD i 0 - dotL up r) :: r) []

/-! ### ADMM (R244) -/

/-- The data of one solve. -/
structure Prob where
  n : Nat := 3
  p : List Qty := []
  q : List Qty := []
  a : List (List Qty) := []
  lo : List (Option Qty) := []
  hi : List (Option Qty) := []
  r : List Qty := []
  sigma : Qty := 0
  relax : Qty := 1
deriving DecidableEq, Repr, Inhabited

/-- The vectors of the iteration. -/
structure Iter where
  x : List Qty := []
  z : List Qty := []
  y : List Qty := []
  last : List Qty := []
deriving DecidableEq, Repr, Inhabited

/-- A value clamped into a row's bounds. -/
def clampRow (lo hi : Option Qty) (v : Qty) : Qty :=
  let v := match hi with
    | some h => min h v
    | none => v
  match lo with
  | some l => max l v
  | none => v

/-- A vector clamped row by row. -/
def clampRows (p : Prob) (v : List Qty) : List Qty :=
  List.zipWith (fun x (b : Option Qty × Option Qty) => clampRow b.1 b.2 x) v (List.zip p.lo p.hi)

/-- K = P + σ·I + Aᵀ·R·A. -/
def kMatrix (p : Prob) : List (List Qty) :=
  (List.range p.n).map (fun i => (List.range p.n).map (fun j =>
    Config.f32 ((if i = j then p.p.getD i 0 + p.sigma else 0) +
      (List.zip p.a p.r).foldl (fun s r => s + r.1.getD i 0 * r.2 * r.1.getD j 0) 0)))

/-- One iteration. -/
def admmStep (p : Prob) (f : Fact) (v : Iter) : Iter :=
  let rhs := zip3 (fun x q t => p.sigma * x - q + t) v.x p.q
    (tmulVec p.n p.a (zip3 (fun r z y => r * z - y) p.r v.z v.y))
  let xt := solveL f rhs
  let zt := mulVec p.a xt
  let x := List.zipWith (fun a b => Config.f32 (p.relax * a + (1 - p.relax) * b)) xt v.x
  let zr := List.zipWith (fun a b => Config.f32 (p.relax * a + (1 - p.relax) * b)) zt v.z
  let z := clampRows p (List.zipWith (fun a (b : Qty × Qty) => a + b.2 / b.1) zr (List.zip p.r v.y))
  let y := List.zipWith (fun a (b : Qty × Qty × Qty) => Config.f32 (a + b.1 * (b.2.1 - b.2.2))) v.y (List.zip p.r (List.zip zr z))
  { x, z := z.map Config.f32, y, last := v.x }

/-- N iterations. -/
def admmRun (p : Prob) (f : Fact) : Nat → Iter → Iter
  | 0, v => v
  | k + 1, v => admmRun p f k (admmStep p f v)

/-- The distance of a row from its bounds. -/
def rowGap (lo hi : Option Qty) (v : Qty) : Qty :=
  max 0 (max (match lo with | some l => l - v | none => 0) (match hi with | some h => v - h | none => 0))

/-- r_pri (R244): row 2, the moment row, divided by L_ref. -/
def priGap (lRef : Qty) (p : Prob) (x : List Qty) : Qty :=
  ((List.zip (mulVec p.a x) (List.zip p.lo p.hi)).zipIdx).foldl (fun m r =>
    max m (rowGap r.1.2.1 r.1.2.2 r.1.1 / (if r.2 = 2 then lRef else 1))) 0

/-- r_dua (R244). -/
def duaGap (p : Prob) (v : Iter) : Qty := (List.zipWith (fun a b => absQ (p.sigma * (a - b))) v.x v.last).foldl max 0

/-! ### Building one frame's problem -/

/-- The delivered force and moment of thrusters in RAMPING or TRANSIT (R229). -/
def tauFixed (ps : List Part) : List Qty :=
  (ps.filter (fun p => p.x.state == .ramping || p.x.state == .transit)).foldl (fun w p => addW w (wrench p.c (delVars p.c p.x))) [0, 0, 0]

/-- w_t (R229). -/
def weightOf (c : ThrCfg) : Qty := c.weight / c.tMax

/-- The problem of this frame (R229, R230, R244). -/
def buildProb (s : State) (ps : List Part) : Prob :=
  let a := s.image.alloc
  let n := numVars a
  let fix := tauFixed ps
  let ws := a.ks * (ps.map (fun p => weightOf p.c)).foldl max 0
  let demand := (List.range 3).map (fun k =>
    let b := s.ctl.tau.getD k 0 - fix.getD k 0
    let cs := (ps.map (fun p => if p.c.azimuth then
        [(p.v0, (wrench p.c (1, 0)).getD k 0), (p.v0 + 1, (wrench p.c (0, 1)).getD k 0)]
      else [(p.v0, (wrench p.c (1, 0)).getD k 0)])).flatten
    ({ coef := cs ++ [(n - 3 + k, 1)], lo := some b, hi := some b, weight := 1 } : QRow))
  let rows := demand ++ (ps.map (thrRows s)).flatten ++ powerRows s ps
  { n := n
    p := (ps.map (fun p => List.replicate (nVars p.c) (2 * (weightOf p.c * (1 + a.kc))))).flatten ++ [2 * ws, 2 * ws, 2 * ws / (a.lRef * a.lRef)]
    q := (ps.map (fun p => ([p.x.prevFx, p.x.prevFy].take (nVars p.c)).map (fun f => -(2 * (a.kc * weightOf p.c * f))))).flatten ++ [0, 0, 0]
    a := rows.map (fun r => dense n r.coef)
    lo := rows.map (·.lo)
    hi := rows.map (·.hi)
    r := rows.map (fun r => match r.weight with
      | 0 => a.rho
      | 1 => 1000 * a.rho
      | _ => a.rho / 1000000)
    sigma := a.sigma
    relax := a.relax }

/-- A range of a vector replaced. -/
def patch (l : List Qty) (o : Nat) (v : List Qty) : List Qty := l.mapIdx (fun i x => if o ≤ i && i < o + v.length then v.getD (i - o) 0 else x)

/-- Every dual is reset for the next solve (R249). -/
def allDualsReset (s : State) (sect : List (Nat × Nat)) : Bool :=
  s.alloc.cold || sect != s.alloc.sectorSet || s.alloc.tiesIn != s.alloc.topology

/-- The set of participating thrusters has changed (R249). -/
def partChanged (ps : List Part) : Bool := ps.any (fun p => p.free != p.x.participated)

/-- The start of the solve (R249): x, y, and 0 WARM, 1 WARM_REMAPPED or 2 COLD. A thruster that takes part as it did in the
previous frame, and one that stays pinned, start from the final x and y. -/
def warmStart (s : State) (ps : List Part) (cold : Bool) : List Qty × List Qty × Nat :=
  let n := numVars s.image.alloc
  let m := numRows s.image.alloc
  let x := ps.foldl (fun (l : List Qty) p =>
    if p.free && (!p.x.participated || s.alloc.fromDel) then patch l p.v0 ([(delVars p.c p.x).1, (delVars p.c p.x).2].take (nVars p.c))
    else if p.free = p.x.participated then l
    else patch l p.v0 (List.replicate (nVars p.c) 0)) ((List.range n).map (fun i => s.alloc.x.getD i 0))
  let y := ps.foldl (fun (l : List Qty) p =>
    if p.free = p.x.participated then l else patch l p.r0 (List.replicate (nRows p.c) 0)) ((List.range m).map (fun i => s.alloc.duals.getD i 0))
  if cold then (x, List.replicate m 0, 2) else (x, y, if partChanged ps then 1 else 0)

/-- The sectors that are active (R239). -/
def sectorsNow (s : State) (ps : List Part) : List (Nat × Nat) :=
  (ps.map (fun p => ((p.c.sectors.zipIdx).filter (fun k => sectorActive s k.1)).map (fun k => (p.t, k.2)))).flatten

/-- The row of a sector. -/
def sectorRow (p : Part) (k : Nat) : Nat := p.r0 + p.c.radii.length + 2 + k

/-- The cones of one thruster in this frame (R240): a dual tells that the thruster was held at the far edge only where it took
part. In TRANSIT the cones stay until its end selects the other one (R241). -/
def conesOf (s : State) (p : Part) : List (Option Bool) :=
  if p.x.inTransit.isSome then p.x.cones
  else (List.range 4).map (fun k => match p.c.sectors[k]? with
    | none => none
    | some c =>
      if !(sectorActive s c) then none
      else
        let prev := if s.alloc.sectorSet.contains (p.t, k) then p.x.cones.getD k none else none
        some (selectCone c p.x.delAz prev (p.x.participated && decide (s.alloc.duals.getD (sectorRow p k) 0 ≠ 0))))

/-- Cones selected; a change zeroes the row's dual and sets SECTOR_SWITCH (R240). -/
def pickCones (s : State) : State :=
  (parts s).foldl (fun s p =>
    let new := conesOf s p
    let moved := (List.range 4).filter (fun k => match p.x.cones.getD k none, new.getD k none with
      | some a, some b => a != b
      | _, _ => false)
    { s with
      alloc.thr := s.alloc.thr.modify p.t (fun x => { x with cones := new })
      alloc.duals := moved.foldl (fun d k => patch d (sectorRow p k) [0]) s.alloc.duals
      alloc.sectorSwitch := s.alloc.sectorSwitch || !moved.isEmpty }) s

/-! ### Outcomes (R246 to R248) -/

/-- An outcome: its onset is logged with vector 39 when it is one of the three bad ones (R247, R248). -/
def setOutcome (o : Nat) (s : State) : State :=
  let unused := if o = 3 || o = 4 then sat 16 (s.alloc.unused + 1) else 0
  let bad := o = 2 || o = 3 || o = 4
  let new := decide (bad ∧ s.alloc.outcome ≠ o)
  let s' := { s with
    alloc.outcome := o
    alloc.unused := unused
    alloc.cold := decide (o = 3 ∨ o = 4)
    alloc.notSolved := if bad then s.alloc.notSolved + 1 else 0
    alloc.failing := s.alloc.failing && bad }
  if new then assertVec 39 (logL 8 2 (leBytes 1 o ++ leBytes 2 unused) s') else s'

/-- The rows of a thruster that are active: a non-zero dual (Table 8-9 bits 2 to 4). -/
def rowFlagsOf (y : List Qty) (p : Part) : Nat :=
  let k := p.c.radii.length
  let on := fun (o n : Nat) => ((y.drop (p.r0 + o)).take n).any (· ≠ 0)
  if p.c.azimuth then bitN (on (k + 2) p.c.sectors.length) 2 + bitN (on k 2) 3 + bitN (on 0 k) 4 else bitN (on 0 1) 3

/-- The times since which a thruster has been held at a sector-side edge (R241). -/
def edgesOf (s : State) (x y : List Qty) (p : Part) (cones : List (Option Bool)) : List (Option Nat) :=
  (List.range 4).map (fun k => match p.c.sectors[k]?, cones.getD k none with
    | some c, some a =>
      let az := azOf (x.getD p.v0 0, x.getD (p.v0 + 1) 0)
      onset s (p.x.edgeSince.getD k none) (p.free && decide (y.getD (sectorRow p k) 0 ≠ 0) && decide (absQ (wrap180 (az - sideEdge c a)) * 2 ≤ 1))
    | _, _ => none)

/-- The solution of the frame for each thruster: the solve's, or the last used one decayed (R248). -/
def frameSolution (s : State) (used : Bool) (x : List Qty) (ps : List Part) (t : Nat) : Qty × Qty :=
  if used then
    match ps.find? (fun p => p.t == t) with
    | some p => (x.getD p.v0 0, if p.c.azimuth then x.getD (p.v0 + 1) 0 else 0)
    | none => (0, 0)
  else
    let k := Config.exp (-(1 / 100) / s.image.alloc.tauD)
    let f := s.alloc.lastUsed.getD t (0, 0)
    (Config.f32 (k * f.1), Config.f32 (k * f.2))

/-- The previous solution of a thruster, before its projection, for the change term and the rate rows of a DEGRADED one; after
Safe-Stop the delivered state (R229, R238, R252). -/
def startThr (s : State) (t : Nat) (x : Thr) : Thr :=
  if s.alloc.fromDel then
    match thrCfg s t with
    | some c => { x with participated := false, prevFx := (delVars c x).1, prevFy := (delVars c x).2 }
    | none => x
  else
    let f := s.alloc.lastUsed.getD t (0, 0)
    { x with prevFx := f.1, prevFy := f.2 }

/-- What a solve gives: x, y, start, outcome, residuals, smallest pivot share. -/
structure Solved where
  x : List Qty := []
  y : List Qty := []
  start : Nat := 0
  outcome : Nat := 0
  pri : Qty := 0
  dua : Qty := 0
  pivot : Qty := 0
deriving DecidableEq, Repr, Inhabited

/-- The iterations from a start; none after a small pivot under REPORT (R246). -/
def iterate (s : State) (p : Prob) (f : Fact) (singular : Bool) (x0 y0 : List Qty) : Iter :=
  let v : Iter := { x := x0, z := clampRows p (mulVec p.a x0), y := y0, last := x0 }
  if singular then v else admmRun p f s.image.alloc.iterations v

/-- The outcome of a solve (R246, R247). -/
def outcomeOf (s : State) (ps : List Part) (small singular : Bool) (pri : Qty) : Nat :=
  let tol := s.image.alloc.tol * (ps.map (fun p => p.c.tMax)).foldl max 0
  if singular then 4 else if tol < pri then (if s.alloc.policy = 1 then 3 else 2) else if small then 1 else 0

/-- The solve of a problem (R244, R246, R247). -/
def solveProb (s : State) (ps : List Part) (cold : Bool) : Solved :=
  let w := warmStart s ps cold
  let p := buildProb s ps
  let k := kMatrix p
  let top := (k.zipIdx.map (fun r => r.1.getD r.2 0)).foldl max 0
  let f := factor (pow2 (-20) * top) (s.alloc.policy == 1) k
  let singular := f.small && s.alloc.policy == 1
  let v := iterate s p f singular w.1 w.2.1
  let pri := priGap s.image.alloc.lRef p v.x
  { x := v.x, y := v.y, start := w.2.2, outcome := outcomeOf s ps f.small singular pri, pri := Config.f32 pri,
    dua := Config.f32 (duaGap p v), pivot := Config.f32 (f.least.getD 0 / top) }

/-- The result of a solve in one thruster. -/
def takeSolve (s : State) (ps : List Part) (r : Solved) (t : Nat) (x : Thr) : Thr :=
  match ps.find? (fun p => p.t == t) with
  | none => x
  | some p =>
    let f := frameSolution s (decide (r.outcome ≤ 2)) r.x ps t
    { x with fx := f.1, fy := f.2, participated := p.free, rowFlags := rowFlagsOf r.y p, edgeSince := edgesOf s r.x r.y p x.cones }

/-- The linearised power of an enabled row (Table 8-8). -/
def rowPower (s : State) (ps : List Part) (x : List Qty) (b : Nat) : Qty :=
  match rowBudget s ps b with
  | some _ => Config.f32 (dotL (dense x.length (powerLin s ps b).1) x + (powerLin s ps b).2)
  | none => 0

/-- The result of a solve in the allocation state. -/
def storeSolve (s : State) (ps : List Part) (sect : List (Nat × Nat)) (r : Solved) : AllocSt :=
  { s.alloc with
    start := r.start
    topoChanged := s.alloc.tiesIn != s.alloc.topology
    topology := s.alloc.tiesIn
    sectorSet := sect
    fromDel := false
    x := r.x
    duals := r.y
    rPri := r.pri
    rDua := r.dua
    pivot := r.pivot
    pBudget := (List.range 4).map (fun b => if b < s.image.alloc.switchboards then rowBudget s ps b else none)
    pAlloc := (List.range 4).map (rowPower s ps r.x)
    demand := s.ctl.tau
    tauFix := tauFixed ps
    lastUsed := (List.range 32).map (frameSolution s (decide (r.outcome ≤ 2)) r.x ps)
    thr := s.alloc.thr.mapIdx (takeSolve s ps r) }

/-- One solve (R244 to R249), the thruster states of the frame being known. -/
def solveFrame (s : State) : State :=
  let s := pickCones { s with alloc.thr := s.alloc.thr.mapIdx (startThr s) }
  let ps := parts s
  let sect := sectorsNow s ps
  let r := solveProb s ps (allDualsReset s sect)
  setOutcome r.outcome { s with alloc := storeSolve s ps sect r }

/-- Allocation of one frame (R252): thruster states in every frame, the solve in Active and Safe-Stop; elsewhere no
thruster takes part. -/
def allocFrame (s : State) : State :=
  let before := s.alloc.thr
  let s := logThrs before (stepThrs s)
  if s.pow.state == .active || s.pow.state == .safeStop then solveFrame s
  else
    { s with
          alloc.thr := s.alloc.thr.map (fun x => { x with participated := false, fx := 0, fy := 0, rowFlags := 0 })
          alloc.lastUsed := List.replicate 32 (0, 0) }

/-- The charge of allocation in µs (R245). -/
def allocCharge (a : ImageAlloc) : Qty :=
  let n : Qty := (numVars a : Nat)
  let m : Qty := (numRows a : Nat)
  30 + 3 / 10 * m + 2 / 10000 * n * n * m + 25 / 100000 * n * n * n +
    (a.iterations : Qty) * (15 / 10 + 45 / 100000 * n * m + 25 / 100000 * n * n)

/-- ALLOCATION (R229 to R250, R252): activity 6, charged at most as R245 says. -/
def execAllocation (s : State) : Host.Outcome State Fault Refusal :=
  .next (if mayRun 6 s then completeIn 6 (allocCharge s.image.alloc).floor.toNat (if works s then allocFrame s else s) else s)

/-- ALLOC_FAILING (R248): 100 consecutive frames without SOLVED or REGULARISED. -/
def execAllocFailing (s : State) : Host.Outcome State Fault Refusal :=
  .next (if lanesRun s && decide (100 ≤ s.alloc.notSolved) && !s.alloc.failing then
    logFlags (allocFlags s) { s with alloc.failing := true }
  else s)

/-- DEMAND_UNMET (R250): set after 5 s above 5 % on one axis, cleared after 5 s below on every axis. -/
def execDemandUnmet (set : Bool) (s : State) : Host.Outcome State Fault Refusal :=
  .next (if !(lanesRun s) then s
  else if set && !s.alloc.unmet && s.alloc.slackOver.any (fun t => heldFor s t 5000) then logFlags (allocFlags s) { s with alloc.unmet := true }
  else if !set && s.alloc.unmet && heldFor s s.alloc.slackUnder 5000 then { s with alloc.unmet := false }
  else s)

/-- TRANSIT_ENTRY (R241): held at a sector-side edge for the escape time, and no other thruster is in TRANSIT. -/
def execTransitEntry (thruster sector : Nat) (s : State) : Host.Outcome State Fault Refusal :=
  let x := s.alloc.thr.getD thruster {}
  .next (if lanesRun s && decide (sector < 4) && s.pow.state == .active && takesPart x.state && decide (s.image.alloc.escapeMs ≠ 0)
      && heldFor s (x.edgeSince.getD sector none) s.image.alloc.escapeMs && !(s.alloc.thr.any (fun y => y.inTransit.isSome)) then
    logThrs s.alloc.thr { s with alloc.thr := s.alloc.thr.modify thruster (fun y =>
      { y with inTransit := some sector, state := .transit, edgeSince := List.replicate 4 none }) }
  else s)

/-! ### Output distribution (R234, R250, R251) -/

/-- A force clamped into its rate rows and scaled onto its polygon or cap (R250). -/
def project (s : State) (p : Part) (v : Qty × Qty) : Qty × Qty :=
  if !p.free then (0, 0)
  else if !p.c.azimuth then (Config.f32 (clampQ (fixedBounds s p).1 (fixedBounds s p).2 v.1), 0)
  else
    let g := (rateRows s p).foldl (fun (r : Qty × Qty) w =>
      let a := clampQ (w.2.1 - w.2.2) (w.2.1 + w.2.2) (dot2 w.1 v)
      (r.1 + a * w.1.1, r.2 + a * w.1.2)) (0, 0)
    let k := (List.range p.c.radii.length).foldl (fun (m : Qty) i =>
      let f := face p.c i
      let d := dot2 f.1 g
      let b := f.2 * capShare p.c p.x
      if b < d then min m (b / d) else m) 1
    (Config.f32 (k * g.1), Config.f32 (k * g.2))

/-- Every participating thruster's force of the last complete solution projected; achieved demand and slack (R250,
Table 2-2 row 6). -/
def projectAll (s : State) : State :=
  let ps := parts s
  let s := { s with alloc.thr := s.alloc.thr.mapIdx (fun t x => match ps.find? (fun p => p.t == t) with
    | some p =>
      let f := project s { p with free := p.x.participated && p.free } (s.alloc.lastUsed.getD t (0, 0))
      { x with fx := f.1, fy := f.2 }
    | none => x) }
  let got := ((parts s).foldl (fun w p => addW w (wrench p.c (p.x.fx, p.x.fy))) s.alloc.tauFix).map Config.f32
  let slack := List.zipWith (fun a b => Config.f32 (a - b)) s.alloc.demand got
  let above := (List.range 3).map (fun a => decide ((axisRec s a).tauMax / 20 < absQ (slack.getD a 0)))
  { s with
    alloc.achieved := got
    alloc.slack := slack
    alloc.slackOver := above.mapIdx (fun a h => onset s (s.alloc.slackOver.getD a none) h)
    alloc.slackUnder := onset s s.alloc.slackUnder (!(above.any id)) }

/-- The thrust command of a thrust (R234). -/
def thrustCmd (c : ThrCfg) (thrust : Qty) : Qty :=
  let lim := if thrust < 0 then c.tRev else c.tMax
  if thrust = 0 || lim = 0 then 0
  else if thrust < 0 then -(Config.rpow (-thrust / lim) (1 / c.gamma)) else Config.rpow (thrust / lim) (1 / c.gamma)

/-- The azimuth reference of a thruster in TRANSIT (R241). -/
def transitAz (c : ThrCfg) (x : Thr) (k : Nat) : Qty :=
  let a := (x.cones.getD k none).getD true
  let far := farEdge (sectorOf c k) a
  let left := if a then wrap360 (far - x.nowAz) else wrap360 (x.nowAz - far)
  if left ≤ 60 then wrap360 far else wrap360 (if a then x.nowAz + 60 else x.nowAz - 60)

/-- The references of one thruster: signed thrust in kN, and the thruster with its azimuth reference (R63, R234, R241,
R251). -/
def refsOf (s : State) (t : Nat) (c : ThrCfg) (x : Thr) : Qty × Thr :=
  match x.state with
  | .ramping =>
    let d := c.rate / 100
    let r := Config.f32 (if 0 ≤ x.ramp then max 0 (x.ramp - d) else min 0 (x.ramp + d))
    (r, { x with ramp := r })
  | .transit => (0, { x with azRef := match x.inTransit with
      | some k => transitAz c x k
      | none => x.azRef })
  | .available | .saturated | .degraded =>
    if lostCause s t c then (0, x)
    else
      let f := thrustOf c (x.fx, x.fy)
      let low := decide (absQ f < s.image.alloc.lowHold * c.tMax)
      (f, { x with lowHold := low && c.azimuth, azRef := if !c.azimuth || low then x.azRef else azOf (x.fx, x.fy) })
  | _ => (0, x)

/-- The references of the frame put into the loops: thrust into THRUST and DIRECT loops, azimuth into the AZIMUTH loop
(R213, R234; assumption 53). -/
def setRefs (s : State) : State :=
  (cfgThrs s).foldl (fun s y =>
    let (f, x) := refsOf s y.1 y.2 (s.alloc.thr.getD y.1 {})
    let c := toQ15 (thrustCmd y.2 f)
    let a := angQ15 x.azRef
    { s with
      alloc.thr := s.alloc.thr.set y.1 x
      ctl.loops := s.ctl.loops.modify y.1 (fun l => l.mapIdx (fun k l => match loopBind s y.1 k with
        | some b => { l with rTgt := if b.kind = 2 then a else c }
        | none => l)) }) s

/-- Output distribution of one frame: projection, references, one servo evaluation whose set replaces that of servo slot 3
(R23, R250, R251). In Safe-Stop the results are not released: the references stay (R252). -/
def outputFrame (s : State) : State :=
  let s := if s.pow.state == .active || s.pow.state == .safeStop then projectAll s else s
  let s := if s.pow.state == .safeStop then s else setRefs s
  let old := s.ctl.loops
  logLoops old { s with ctl := evalServo old s }

/-- OUTPUT_DISTRIBUTION (R23, R234, R250, R251): activity 7. -/
def execOutputDistribution (s : State) : Host.Outcome State Fault Refusal :=
  .next (if mayRun 7 s then completeAct 7 (if works s then outputFrame s else s) else s)

/-! ### Opcodes (R259, R260) -/

/-- ALLOC_STATUS header (Table 8-8). -/
def allocHeader (s : State) : List Byte :=
  let a := s.alloc
  let n := numVars s.image.alloc
  leBytes 8 s.tt.bSec ++ leBytes 4 s.tt.bNs ++ leBytes 1 s.tt.bQual ++ leBytes 1 (if s.tt.heldNow.getD 6 false then 5 else a.outcome) ++
    leBytes 1 a.start ++ leBytes 1 a.policy ++ (a.demand.map f32Bytes).flatten ++ (a.achieved.map f32Bytes).flatten ++
    (a.slack.map f32Bytes).flatten ++ leBytes 2 s.image.alloc.iterations ++ leBytes 1 (cfgThrs s).length ++ leBytes 1 a.groups ++
    leBytes 2 n ++ leBytes 2 (numRows s.image.alloc) ++ f32Bytes a.rPri ++ f32Bytes a.rDua ++ f32Bytes a.pivot ++
    (a.pBudget.map f32OrNan).flatten ++ (a.pAlloc.map f32Bytes).flatten ++ leBytes 2 (allocFlags s) ++ leBytes 2 a.unused ++
    f32Bytes ((max (s.tt.usedNow.getD 18 0) (max (s.tt.usedNow.getD 19 0) (s.tt.usedNow.getD 20 0)) : Nat) : Qty) ++
    leBytes 8 s.tt.bSec ++ leBytes 4 s.tt.bNs ++ leBytes 4 (frame32 s)

/-- ALLOC_STATUS thruster entry (Table 8-9). -/
def allocEntry (s : State) (t : Nat) (c : ThrCfg) : List Byte :=
  let x := s.alloc.thr.getD t {}
  let f := forceOf c (x.fx, x.fy)
  leBytes 1 t ++ leBytes 1 x.state.code ++ leBytes 1 (s.ctl.winner.getD t 255) ++
    leBytes 1 (bitN x.compliance 0 + bitN (s.ctl.fbLost.getD t false) 1 + x.rowFlags + bitN x.lowHold 5) ++
    f32Bytes f.1 ++ f32Bytes f.2 ++ leBytes 4 (bam32 (azOf f)) ++ f32Bytes x.delT ++ leBytes 4 (bam32 x.delAz) ++
    f32Bytes (powerOf c (thrustOf c (x.fx, x.fy))) ++ f32Bytes (x.cap.getD c.tMax)

/-- ALLOC_STATUS (0x0601). -/
def allocStatusSpec : OpSpec :=
  { role := fun s _ => drives s
    run := fun _ _ s =>
      { status := 0, result := allocHeader s ++ ((cfgThrs s).map (fun x => allocEntry s x.1 x.2)).flatten, state := s } }

/-- ALLOC_STATUS (R259). -/
def execAllocStatus (p : Packet) (s : State) : Host.Outcome State Fault Refusal :=
  .next (processPacket (some allocStatusSpec) { p with opcode := 0x0601 } s)

/-- Result of THRUSTER_ENABLE and THRUSTER_DISABLE. -/
def thrResult (s : State) (t frame : Nat) : List Byte :=
  leBytes 1 t ++ leBytes 1 (s.alloc.thr.getD t {}).state.code ++ zeros 2 ++ leBytes 4 frame

/-- THRUSTER_ENABLE (0x0602). -/
def thrusterEnableSpec : OpSpec :=
  { auth := fun _ => 1
    role := fun s _ => drives s
    len := fun _ p => p.payload.length == 4
    run := fun _ p s =>
      let t := fieldByte p.payload 0
      let x := s.alloc.thr.getD t {}
      if 31 < t then fail 0x0014 s
      else match thrCfg s t with
        | none => fail 0x0013 s
        | some c =>
          if lostCause s t c then fail 0x0021 s
          else if x.enabled && !x.lostLatch && !waits (.thrEnable t) s then { status := 0, result := thrResult s t 0, state := s }
          else { status := 1, result := thrResult s t (effectFrame s), state := defer (.thrEnable t) s } }

/-- THRUSTER_ENABLE (R236, R259). -/
def execThrusterEnable (p : Packet) (s : State) : Host.Outcome State Fault Refusal :=
  .next (processPacket (some thrusterEnableSpec) { p with opcode := 0x0602 } s)

/-- THRUSTER_DISABLE (0x0603). -/
def thrusterDisableSpec : OpSpec :=
  { auth := fun _ => 1
    role := fun s _ => drives s
    len := fun _ p => p.payload.length == 4
    run := fun _ p s =>
      let t := fieldByte p.payload 0
      let x := s.alloc.thr.getD t {}
      if 31 < t then fail 0x0014 s
      else if (thrCfg s t).isNone then fail 0x0013 s
      else if !x.enabled && !(forced p && x.ramping) && !waits (.thrEnable t) s then { status := 0, result := thrResult s t 0, state := s }
      else { status := 1, result := thrResult s t (effectFrame s), state := defer (.thrDisable t (forced p)) s } }

/-- THRUSTER_DISABLE (R63, R259). -/
def execThrusterDisable (p : Packet) (s : State) : Host.Outcome State Fault Refusal :=
  .next (processPacket (some thrusterDisableSpec) { p with opcode := 0x0603 } s)

/-- THRUSTER_ENABLE takes effect (R61, R236). -/
def applyThrEnable (t : Nat) (s : State) : State :=
  { s with alloc.thr := s.alloc.thr.modify t (fun x =>
      if x.enabled && !x.lostLatch then x
      else { x with enabled := true, ramping := false, forced := false, lostLatch := false, ramp := 0 }) }

/-- THRUSTER_DISABLE takes effect (R61, R63): the ramp starts at the thrust commanded. -/
def applyThrDisable (t : Nat) (force : Bool) (s : State) : State :=
  { s with alloc.thr := s.alloc.thr.modify t (fun x =>
      if force then { x with enabled := false, ramping := false, forced := true, inTransit := none, ramp := 0 }
      else if !x.enabled then x
      else
        { x with enabled := false, ramping := true, forced := false, inTransit := none,
                 ramp := if takesPart x.state then (match thrCfg s t with
                   | some c => thrustOf c (x.fx, x.fy)
                   | none => 0) else 0 }) }

/-- ALLOC_MODE result (Table 8-10). -/
def allocModeResult (s : State) (op frame : Nat) : List Byte :=
  leBytes 1 op ++ leBytes 1 s.alloc.policy ++ leBytes 1 s.alloc.groups ++ leBytes 1 (bitN s.alloc.powerRows 0 + 2) ++ zeros 4 ++ leBytes 4 frame

/-- The policy, groups and use of the power rows that the newest waiting ALLOC_MODE asks for, or those in force (R61). -/
def allocAsked (s : State) : Nat × Nat × Bool :=
  s.host.deferred.foldl (fun a d => match d with
    | .allocMode p g f => (p, g, f.testBit 0)
    | _ => a) (s.alloc.policy, s.alloc.groups, s.alloc.powerRows)

/-- The policy that an ALLOC_MODE payload asks for. -/
def modePolicy (s : State) (b : List Byte) : Nat := if fieldByte b 1 = 0xFF then (allocAsked s).1 else fieldByte b 1

/-- The groups that it asks for. -/
def modeGroups (s : State) (b : List Byte) : Nat := if (fieldByte b 3).testBit 1 then fieldByte b 2 else (allocAsked s).2.1

/-- ALLOC_MODE (0x0604). -/
def allocModeSpec : OpSpec :=
  { authNow := fun s p =>
      if fieldByte p.payload 0 = 0 then 0
      else if modePolicy s p.payload = (allocAsked s).1 && (fieldByte p.payload 3).testBit 0 = (allocAsked s).2.2 &&
          modeGroups s p.payload ≠ (allocAsked s).2.1 then 1
      else 2
    role := fun s _ => drives s
    len := fun _ p => p.payload.length == 8
    run := fun _ p s =>
      let b := p.payload
      let pw := (fieldByte b 3).testBit 0
      if 1 < fieldByte b 0 || (fieldByte b 0 = 1 && 1 < modePolicy s b) then fail 0x0013 s
      else if fieldByte b 0 = 0 then { status := 0, result := allocModeResult s 0 0, state := s }
      else if modePolicy s b = s.alloc.policy && modeGroups s b = s.alloc.groups && pw = s.alloc.powerRows && !waits (.allocMode 0 0 0) s then
        { status := 0, result := allocModeResult s 1 0, state := s }
      else { status := 1, result := allocModeResult s 1 (effectFrame s),
             state := defer (.allocMode (modePolicy s b) (modeGroups s b) (bitN pw 0)) s } }

/-- ALLOC_MODE (R259). -/
def execAllocMode (p : Packet) (s : State) : Host.Outcome State Fault Refusal :=
  .next (processPacket (some allocModeSpec) { p with opcode := 0x0604 } s)

/-- ALLOC_MODE takes effect. -/
def applyAllocMode (policy groups flags : Nat) (s : State) : State :=
  { s with alloc.policy := policy, alloc.groups := groups, alloc.powerRows := flags.testBit 0 }

/-- ATTACH_BODY_SET result (Table 8-12). -/
def bodyResult (s : State) (b : Nat) : List Byte :=
  let x := s.alloc.bodies.getD b {}
  let r := (tipVector s b).1
  let (dn, de) := turnNE s.obs.psi r.x r.y
  leBytes 1 b ++ leBytes 1 (if !x.inUse then 1 else if bodyLost x then 3 else 2) ++ leBytes 1 x.override ++ leBytes 1 x.faults ++
    (x.q.map f32Bytes).flatten ++ f32Bytes r.x ++ f32Bytes r.y ++ f32Bytes r.z ++ f64Bytes (s.obs.n + dn) ++ f64Bytes (s.obs.e + de) ++
    f32Bytes (tipDepthOf s b) ++ f32OrNan (tipOffset s b)

/-- Override values of a payload; none for a field that is no number. -/
def bodyVals (b : List Byte) : List (Option Qty) := (List.range 6).map (fun k => fieldF32 b (4 + 4 * k))

/-- An attached body with the settings that the newest waiting ATTACH_BODY_SET asks for (R61). -/
def bodyAsked (s : State) (k : Nat) : BodySt :=
  s.host.deferred.foldl (fun x d => match d with
    | .body b u ov vals vt => if b = k then { x with inUse := u, override := ov, ovVal := vals, vTol := vt } else x
    | _ => x) (s.alloc.bodies.getD k {})

/-- ATTACH_BODY_SET (0x0605). -/
def attachBodySetSpec : OpSpec :=
  { auth := fun p => if fieldByte p.payload 0 = 0 then 0 else 1
    role := fun s _ => drives s
    len := fun _ p => p.payload.length == 32
    run := fun _ p s =>
      let b := p.payload
      let k := fieldByte b 1
      let use := fieldByte b 2
      let ov := fieldByte b 3
      if 1 < fieldByte b 0 then fail 0x0013 s
      else match s.image.alloc.bodies[k]? with
        | none => fail 0x0013 s
        | some c =>
          let x := s.alloc.bodies.getD k {}
          if fieldByte b 0 = 0 then { status := 0, result := bodyResult s k, state := s }
          else if 1 < use || 2 ^ c.joints.length ≤ ov then fail 0x0013 s
          else match fieldF32 b 28 with
            | none => fail 0x0014 s
            | some vt =>
              let vals := bodyVals b
              let bad := (List.range c.joints.length).any (fun j => ov.testBit j && (match vals.getD j none with
                | none => true
                | some v => decide (v < (c.joints.getD j {}).lo ∨ (c.joints.getD j {}).hi < v)))
              let lim := fun (q : Qty) => (ieeeOf 8 23 (ieeeBits 8 23 q)).getD q
              if bad || (vt ≠ 0 && (vt < lim (1 / 10) || 5 < vt)) then fail 0x0014 s
              else if use = 0 && s.set.mode == .tipHold && s.set.body == k then fail 0x0021 s
              else
                let new := (List.range 6).map (fun j => if ov.testBit j then (vals.getD j none).getD 0 else (bodyAsked s k).ovVal.getD j 0)
                let vt := if vt = 0 then (bodyAsked s k).vTol else vt
                if x.inUse = (use == 1) && x.override = ov && new = x.ovVal && vt = x.vTol && !waits (.body k false 0 [] 0) s then
                  { status := 0, result := bodyResult s k, state := s }
                else { status := 1, result := bodyResult s k, state := defer (.body k (use == 1) ov new vt) s } }

/-- ATTACH_BODY_SET (R254, R260). -/
def execAttachBodySet (p : Packet) (s : State) : Host.Outcome State Fault Refusal :=
  .next (processPacket (some attachBodySetSpec) { p with opcode := 0x0605 } s)

/-- ATTACH_BODY_SET takes effect. -/
def applyBody (b : Nat) (inUse : Bool) (ov : Nat) (vals : List Qty) (vTol : Qty) (s : State) : State :=
  { s with alloc.bodies := s.alloc.bodies.modify b (fun x => { x with inUse := inUse, override := ov, ovVal := vals, vTol := vTol }) }

end Sys2Proof.Machine
end

