-- ==== Sys2Proof/Machine/Gnss.lean ====
section
/-! DEFINITION. The GNSS receiver (chapter 04): tracking channels, measurement epochs and their integrity flags, RTCM
corrections, antenna supplies, snapshots and the hot fix, and the GNSS opcodes. What the receiver measures is an operand;
what it decides from that is worked out here. -/

namespace Sys2Proof.Machine

/-! ### Channels (R95, R100 to R102) -/

/-- Number of a channel state (Table 4-2). -/
def ChanTrack.code : ChanTrack → Nat
  | .idle => 0
  | .search => 1
  | .verify => 2
  | .pullIn => 3
  | .track => 4
  | .codeOnly => 5
  | .reacq => 6

/-- The receiver tracks: it runs NATIVE or COMPAT. -/
def tracking (s : State) : Bool := (s.gnss.mode == 1 || s.gnss.mode == 2) && !s.pow.gnssFault

/-- A system that the running mode tracks (R95): GLONASS in COMPAT only. -/
def systemAllowed (s : State) (system : Nat) : Bool := if s.gnss.mode = 1 then system < 3 else system < 4

/-- A signal that the running mode tracks (R95 to R97, R100): GLONASS and no L5 in COMPAT, both bands and no GLONASS in
NATIVE; no antenna B where the image declares it absent. -/
def signalAllowed (s : State) (system band antenna : Nat) : Bool :=
  tracking s && systemAllowed s system && (if s.gnss.mode = 1 then band < 2 else band = 0) &&
    (if s.image.gnss.antBAbsent then antenna = 0 else antenna < 2)

/-- A frequency channel of Table 4-1: −7 to +6 for GLONASS, none (0) for the other systems. -/
def fdmaOk (system : Nat) (k : Int) : Bool := if system = 3 then decide (-7 ≤ k) && decide (k ≤ 6) else k == 0

/-- Satellites that the 160 channels serve (R100): one channel for each band and antenna of a satellite. -/
def satLimit (s : State) : Nat := 160 / ((if s.gnss.mode = 1 then 2 else 1) * (if s.image.gnss.antBAbsent then 1 else 2))

/-- Satellites with a channel. -/
def admitted (s : State) : List (Nat × Nat) :=
  ((s.gnss.chans.filter (fun c => c.state != .idle)).map (fun c => (c.system, c.sv))).eraseDups

/-- The predicted elevation of a satellite. -/
def predElev (s : State) (system sv : Nat) : Option Qty :=
  (s.gnss.visible.find? (fun v => v.1 == system && v.2.1 == sv)).map (·.2.2)

/-- The next satellite to be admitted (R100): above the mask, with no higher one of the running mode still waiting. A
satellite without prediction may be searched for at any time (assumption 103). -/
def nextToAdmit (s : State) (system sv : Nat) : Bool :=
  match predElev s system sv with
  | none => true
  | some el => decide ((s.gnss.mask : Qty) ≤ el) &&
      s.gnss.visible.all (fun v => decide (v.2.2 ≤ el) || !systemAllowed s v.1 || (admitted s).contains (v.1, v.2.1))

/-- A signal may be allocated to a channel (R95, R100): of the running mode, on no other channel, of a satellite that is
admitted or next to be. -/
def mayAllocate (s : State) (system sv band antenna : Nat) (k : Int) : Bool :=
  signalAllowed s system band antenna && fdmaOk system k &&
    !(s.gnss.chans.any (fun c => c.state != .idle && c.system == system && c.sv == sv && c.band == band && c.antenna == antenna)) &&
    ((admitted s).contains (system, sv) || (decide ((admitted s).length < satLimit s) && nextToAdmit s system sv))

/-- A satellite is below the mask less 2° (R100). -/
def belowMask (s : State) (system sv : Nat) : Bool :=
  match predElev s system sv with
  | none => false
  | some el => decide (el < (s.gnss.mask : Qty) - 2)

/-- A signal with a pilot component (Table 4-1): all but L1 C/A and G1. -/
def hasPilot (system band : Nat) : Bool := !(system == 3 || (system == 0 && band == 0))

/-- Early-late spacing in chips (R101). -/
def elSpacing (system band : Nat) : Qty := if band = 1 then 1 else if system = 3 then 1 / 2 else 1 / 10

/-- Coherent integration in ms of a data component (R101). -/
def dataMs (c : GnssChan) : Nat := if c.boundary then min 20 (max 1 (Config.dataBitMs c.system c.band)) else 1

/-- Coherent integration in ms of a pilot (R101): 20 ms in TRACK; before, 1 ms to 20 ms. -/
def pilotMs (c : GnssChan) : Nat := if c.state == .track then 20 else min 20 (max 1 (Config.coherentMs c.system c.band))

/-- The correlators of a channel (R101): early, prompt and late on the pilot, or on the data of a signal without one; a
prompt on the data beside a pilot; the noise correlator 16 chips off. `v` gives their outputs. -/
def correlators (c : GnssChan) (v : List Qty) : List Correlator :=
  let pilot := hasPilot c.system c.band
  let h := elSpacing c.system c.band / 2
  let ms := if pilot then pilotMs c else dataMs c
  [{ offset := -h, pilot, ms, value := v.getD 0 0 }, { offset := 0, pilot, ms, value := v.getD 1 0 },
   { offset := h, pilot, ms, value := v.getD 2 0 }] ++
    (if pilot then [{ offset := 0, pilot := false, ms := dataMs c, value := v.getD 3 0 }] else []) ++
    [{ offset := 16, pilot, ms, value := v.getD 4 0 }]

/-- A channel in a new state (Table 4-2): its clock, dwells and locks start afresh, its correlators take the integration of
the state. The boundary is unknown again once the signal is searched for; CODE_ONLY and REACQ flag a cycle slip. -/
def enterTrack (s : State) (st : ChanTrack) (c : GnssChan) : GnssChan :=
  let c := { c with state := st, since := s.mono, dwells := 0, confirmed := 0, freqLock := false, phaseLock := false,
                    lowSince := none, boundary := c.boundary && st != ChanTrack.search && st != ChanTrack.idle,
                    slip := c.slip || st == ChanTrack.codeOnly || st == ChanTrack.reacq }
  { c with corr := if st == ChanTrack.idle then [] else correlators c [] }

/-- A limit of time of Table 4-2 has passed: 10 s in SEARCH and REACQ, 500 ms in PULL_IN. -/
def trackTimeout (s : State) (c : GnssChan) : Bool :=
  match c.state with
  | .search | .reacq => decide (c.since + 10000 ≤ s.mono)
  | .pullIn => decide (c.since + 500 ≤ s.mono)
  | _ => false

/-- PULL_IN ends in TRACK with phase lock and the boundary known, within its time. -/
def pullInEnd (s : State) (c : GnssChan) : GnssChan :=
  if c.state == .pullIn && c.phaseLock && c.boundary then enterTrack s .track c else c

/-- One repeat dwell of VERIFY: 3 of 4 must confirm. -/
def verifyDwell (s : State) (ok : Bool) (c : GnssChan) : GnssChan :=
  let c := { c with dwells := c.dwells + 1, confirmed := c.confirmed + (if ok then 1 else 0) }
  if 3 ≤ c.confirmed then enterTrack s .pullIn c else if 4 ≤ c.dwells then enterTrack s .search c else c

/-- A C/N0 measurement: below 22 dB-Hz for 1 s TRACK gives CODE_ONLY, below 18 dB-Hz for 1 s CODE_ONLY gives REACQ. -/
def trackCn0 (s : State) (v : Qty) (c : GnssChan) : GnssChan :=
  let limit : Qty := if c.state == .track then 22 else if c.state == .codeOnly then 18 else 0
  let c := { c with lowSince := onset s c.lowSince (decide (v < limit)) }
  if !heldFor s c.lowSince 1000 then c
  else if c.state == .track then enterTrack s .codeOnly c
  else if c.state == .codeOnly then enterTrack s .reacq c
  else c

/-- One event of a channel under Table 4-2; an event that its state does not list leaves it as it is. -/
def chanEvent (s : State) (ev : TrackEvent) (c : GnssChan) : GnssChan :=
  match ev with
  | .allocated system sv band antenna k =>
    if c.state == .idle && mayAllocate s system sv band antenna k then
      enterTrack s .search { c with system, sv, band, antenna, k, slip := false, boundary := false } else c
  | .peak cn0 => if c.state == .search && !trackTimeout s c && decide (30 ≤ cn0) then enterTrack s .verify c else c
  | .dwell ok => if c.state == .verify then verifyDwell s ok c else c
  | .freqLocked => if c.state == .pullIn && !trackTimeout s c then { c with freqLock := true } else c
  | .phaseLocked =>
    if c.state == .pullIn && c.freqLock && !trackTimeout s c then pullInEnd s { c with phaseLock := true }
    else if c.state == .codeOnly then enterTrack s .track c
    else c
  | .boundary =>
    if c.state == .idle || c.state == .search || trackTimeout s c then c
    else
      let c := { c with boundary := true }
      pullInEnd s { c with corr := correlators c (c.corr.map (·.value)) }
  | .cn0 v => trackCn0 s v c
  | .lockDrop => if c.state == .track then { c with slip := true } else c
  | .lossOfLock => if c.state == .track then enterTrack s .reacq c else c
  | .reacquired => if c.state == .reacq && !trackTimeout s c then enterTrack s .pullIn c else c
  | .timeout => if trackTimeout s c then enterTrack s (if c.state == .search then .idle else .search) c else c
  | .released => if belowMask s c.system c.sv then enterTrack s .idle c else c
  | .dump e p l d n => if c.state == .idle then c else { c with corr := correlators c [e, p, l, d, n] }

/-- A signal of a satellite put on the lowest idle channel, in SEARCH, unless a channel holds it. -/
def giveSignal (s : State) (system sv : Nat) (k : Int) (chans : List GnssChan) (w : Nat × Nat) : List GnssChan :=
  if chans.any (fun c => c.state != .idle && c.system == system && c.sv == sv && c.band == w.1 && c.antenna == w.2) then chans
  else match chans.findIdx? (fun c => c.state == .idle) with
    | none => chans
    | some i => chans.modify i (fun c => enterTrack s .search { c with
        system, sv, k, band := w.1, antenna := w.2, slip := false, boundary := false })

/-- An admitted satellite holds a channel for each band and antenna of the mode (R96, R100). -/
def giveSignals (s : State) (system sv : Nat) (k : Int) (chans : List GnssChan) : List GnssChan :=
  ([(0, 0), (0, 1), (1, 0), (1, 1)].filter (fun w => signalAllowed s system w.1 w.2)).foldl (giveSignal s system sv k) chans

/-- CHANNEL_STATE_CHANGE (R96, R100 to R102, Table 4-2). -/
def execChannelStateChange (channel : Nat) (ev : TrackEvent) (s : State) : Host.Outcome State Fault Refusal :=
  .next (if tracking s && channel < 160 then
    let c := s.gnss.chans.getD channel {}
    let chans := s.gnss.chans.modify channel (chanEvent s ev)
    match ev with
    | .allocated system sv band antenna k =>
      { s with gnss.chans := if c.state == .idle && mayAllocate s system sv band antenna k then giveSignals s system sv k chans else chans }
    | _ => { s with gnss.chans := chans }
  else s)

/-- Some channel of a signal is in one of the given states. -/
def satIn (s : State) (x : SatObs) (band antenna : Nat) (st : List ChanTrack) : Bool :=
  s.gnss.chans.any (fun c => st.contains c.state && c.system == x.system && c.sv == x.sv && c.band == band
    && c.antenna == antenna)

/-! ### Ranges and the solution (R96 to R98, R105) -/

/-- Carrier frequency in MHz of a system's signal (Table 4-1). -/
def carrierMHz (system band : Nat) (k : Int) : Qty :=
  if band = 1 then 117645 / 100 else if system = 3 then 1602 + (k : Qty) * (5625 / 10000) else 157542 / 100

/-- Wavelength in m of a carrier. -/
def wavelength (mhz : Qty) : Qty := 299792458 / (mhz * 1000000)

/-- Code range of a satellite on a band and antenna. -/
def codeRange (x : SatObs) (band a : Nat) : Qty := x.pr.getD (2 * a + band) 0
/-- Carrier phase of a satellite on a band and antenna, cycles. -/
def carrier (x : SatObs) (band a : Nat) : Qty := x.cp.getD (2 * a + band) 0

/-- The ionosphere-free combination P_IF = 2.2606 P_L1 − 1.2606 P_L5 (R96): f1 = 154 and f2 = 115 times 10.23 MHz. -/
def ionoFree (p1 p5 : Qty) : Qty := 23716 / 10491 * p1 - 13225 / 10491 * p5

/-- The range of a satellite in COMPAT (R97): the broadcast ionospheric delay scaled to the carrier, and the image's
inter-frequency bias of the GLONASS channel, are taken off. -/
def compatRange (s : State) (x : SatObs) (a : Nat) : Qty :=
  let f := carrierMHz x.system 0 x.k
  let bias := if x.system = 3 then s.image.gnss.glonassBias.getD (x.k + 7).toNat 0 else 0
  codeRange x 0 a - x.ionoModel * (157542 / 100 / f) * (157542 / 100 / f) - bias

/-- The clock terms of a solution (R98): one receiver clock in GPS time, else Galileo's, else BeiDou's; an offset estimated
for each other system with at least 2 satellites; Galileo and BeiDou with one satellite use the broadcast offset. -/
def clockPlan (ggto bdtGps : Qty) (pool : List SatObs) : ClockPlan :=
  let n := fun k => (pool.filter (fun x => x.system == k)).length
  let ref := if n 0 ≠ 0 then 0 else if n 1 ≠ 0 then 1 else if n 2 ≠ 0 then 2 else 3
  { ref
    estimated := [1, 2, 3].filter (fun k => k ≠ ref && 2 ≤ n k)
    broadcast := (if ref ≠ 1 && n 1 = 1 then [(1, ggto)] else []) ++ (if ref ≠ 2 && n 2 = 1 then [(2, bdtGps)] else []) }

/-- Seconds from a system's time scale to TAI (R98): GPST and GST + 19 s, BDT + 33 s. -/
def taiShift (system : Nat) : Int := if system ≤ 1 then 19 else if system = 2 then 33 else Config.glonassShift

/-- A correction is recent enough (R109): observations 10 s, orbits 120 s, clocks 30 s. -/
def rowFresh (s : State) (r : CorrRow) : Bool :=
  decide (s.mono ≤ r.at_ + (if r.kind = 0 then 10000 else if r.kind = 1 then 120000 else 30000))

/-- The corrections of a kind for a satellite; only bands that the mode tracks (R108). -/
def corrOf (s : State) (aged : Bool) (kind : Nat) (x : SatObs) : List CorrRow :=
  s.gnss.corr.filter (fun r => r.kind == kind && r.system == x.system && r.sv == x.sv && (aged || rowFresh s r)
    && (r.kind != 0 || s.gnss.mode == 1 || r.band == 0))

/-- The corrections that a solution type uses for a satellite (Table 4-3). -/
def corrFor (s : State) (sol : Nat) (x : SatObs) : List CorrRow :=
  if 2 ≤ sol && sol ≤ 4 then corrOf s false 0 x
  else if sol = 5 || sol = 6 then corrOf s false 1 x ++ corrOf s false 2 x
  else []

/-- The carrier phases of a satellite's signals in TRACK on an antenna (R102). -/
def phasesOf (s : State) (a : Nat) (x : SatObs) : List (Option Qty) :=
  [0, 1].map (fun b => if satIn s x b a [.track] then some (carrier x b a) else none)

/-- What a satellite gives the solution. -/
def rangeIn (s : State) (a sol : Nat) (x : SatObs) : RangeIn :=
  { system := x.system, sv := x.sv, doppler := x.doppler, elevation := x.elevation, corr := corrFor s sol x
    phases := phasesOf s a x
    range := if s.gnss.mode = 2 then compatRange s x a else ionoFree (codeRange x 0 a) (codeRange x 1 a) }

/-- GLONASS enters with at least two satellites only (R98). -/
def glonassPair (pool : List SatObs) : List SatObs :=
  if (pool.filter (fun x => x.system == 3)).length < 2 then pool.filter (fun x => x.system != 3) else pool

/-- One trial of the range test (R110): the satellites used, those excluded so far, and the solution. -/
structure Trial where
  pool : List SatObs
  out : List SatObs
  sol : GnssSol

/-- The solution of a pool. -/
def trial (s : State) (a sol : Nat) (off : Qty × Qty) (pool out : List SatObs) : Trial :=
  let pool := glonassPair pool
  let base := if 2 ≤ sol && sol ≤ 4 then s.gnss.base else none
  { pool, out, sol := Config.gnssSolve sol base (pool.map (rangeIn s a sol)) (clockPlan off.1 off.2 pool) }

/-- The satellite with the largest normalised residual. -/
def worstSat : List (SatObs × Qty) → Option (SatObs × Qty)
  | [] => none
  | x :: t => match worstSat t with
    | none => some x
    | some y => if absQ y.2 ≤ absQ x.2 then some x else some y

/-- The next trial: without the satellite of the largest residual. -/
def nextTrial (s : State) (a sol : Nat) (off : Qty × Qty) (t : Trial) : Trial :=
  match worstSat (t.pool.zip t.sol.residuals) with
  | none => t
  | some w => trial s a sol off (t.pool.erase w.1) (t.out ++ [w.1])

/-- The range test (R110): the exclusions it needed, 3 where two do not make it pass, and the trial that holds. -/
def rangeTest (s : State) (a sol : Nat) (off : Qty × Qty) (pool : List SatObs) : Nat × Trial :=
  let t0 := trial s a sol off pool []
  let t1 := nextTrial s a sol off t0
  let t2 := nextTrial s a sol off t1
  if t0.sol.test ≤ 1 then (0, t0) else if t1.sol.test ≤ 1 then (1, t1) else if t2.sol.test ≤ 1 then (2, t2) else (3, t0)

/-- Solution types in the order of their accuracy (Table 4-3), best first; `aged` asks what they would be with corrections
of any age. DGNSS and PPP need corrections for 5 of the satellites, RTK 5 of these with their L1 band carrier in TRACK
(assumption 103). -/
def bestSolution (s : State) (a : Nat) (e : EpochIn) (aged : Bool) (pool : List SatObs) : Nat :=
  let has (ks : List Nat) (x : SatObs) : Bool := ks.all (fun k => !(corrOf s aged k x).isEmpty)
  let obsOk : Bool := s.gnss.base.isSome && 5 ≤ (pool.filter (has [0])).length
  let phaseOk : Bool := 5 ≤ (pool.filter (fun x => has [0] x && satIn s x 0 a [.track])).length
  let ssrOk : Bool := s.gnss.mode == 1 && 5 ≤ (pool.filter (has [1, 2])).length
  let can (t : Nat) : Bool :=
    t ≤ s.gnss.solMax && match t with
    | 4 => obsOk && phaseOk && 3 ≤ (trial s a 4 (e.ggto, e.bdtGps) pool []).sol.ratio && !s.gnss.rtkFloat
    | 6 => ssrOk && e.pppConverged && !s.gnss.pppFloat
    | 3 => obsOk && phaseOk
    | 5 => ssrOk
    | 2 => obsOk
    | 1 => true
    | _ => false
  ([4, 6, 3, 5, 2, 1].find? can).getD 0

/-! ### Integrity flags (R110 to R114) -/

/-- An epoch's working values: usable satellites, exclusions and the raw conditions of Table 4-7. -/
structure EpochWork where
  antenna : Nat := 0
  served : Bool := true
  dual : Nat := 0
  used : Nat := 0
  ionoFails : List SatObs := []
  rangeOut : List SatObs := []
  nx : Nat := 0
  test0 : Qty := 0
  sol : GnssSol := {}
  solType : Nat := 0
  ideal : Nat := 0
  clkOff : Int := 0
  clkDev : Qty := 0
  rateOff : Bool := false
  agcDev : List Qty := []
  both : List SatObs := []
  base : BaseSol := {}
  slips : Nat := 0
  cn0s : List Qty := []
  sdVar : Qty := 0
  sdPredicted : Qty := 0

/-- An antenna input with its supply open or short. -/
def antFault (s : State) (i : Nat) : Bool := s.gnss.antOpen.getD i false || s.gnss.antShort.getD i false

/-- The antenna of the position solution (R105): A, or B while A has ANTENNA_FAULT and B serves. -/
def posAntenna (s : State) : Option Nat :=
  if !antFault s 0 then some 0
  else if !s.image.gnss.antBAbsent && !antFault s 1 then some 1
  else none

/-- The geometry-free carrier combination of a satellite in m (R102, R110). -/
def geoFree (x : SatObs) (a : Nat) : Qty :=
  wavelength (carrierMHz x.system 0 x.k) * carrier x 0 a - wavelength (carrierMHz x.system 1 x.k) * carrier x 1 a

/-- The carriers of both bands of a satellite are in TRACK on an antenna. -/
def bothCarriers (s : State) (x : SatObs) (a : Nat) : Bool := satIn s x 0 a [.track] && satIn s x 1 a [.track]

/-- The geometry-free carriers of an epoch, of every antenna that tracks both carriers. -/
def gfRows (s : State) (l : List SatObs) : List (Nat × Nat × Nat × Qty) :=
  (l.map (fun x => ([0, 1].filter (bothCarriers s x)).map (fun a => (x.system, x.sv, a, geoFree x a)))).flatten

/-- Its change since the epoch before, where both epochs have both carriers in TRACK. -/
def geoFreeStep (s : State) (x : SatObs) (a : Nat) : Option Qty :=
  if !bothCarriers s x a then none
  else (s.gnss.gf.find? (fun g => g.1 == x.system && g.2.1 == x.sv && g.2.2.1 == a)).map (fun g => geoFree x a - g.2.2.2)

/-- Seconds since the epoch before. -/
def epochGap (s : State) : Qty := ((nowNs s - s.gnss.gfNs : Nat) : Qty) / 1000000000

/-- The L1/L5 check of one satellite (R110): the slant delay from the geometry-free code against the model, more than 20 m
at L1, or the geometry-free carrier faster than 0.5 m/s. -/
def ionoFails (s : State) (a : Nat) (x : SatObs) : Bool :=
  decide (20 < absQ (13225 / 10491 * (codeRange x 1 a - codeRange x 0 a) - x.ionoModel)) ||
    (match geoFreeStep s x a with
    | none => false
    | some d => decide (epochGap s / 2 < absQ d))

/-- The geometry-free carrier of a satellite on an antenna has jumped by more than 0.05 m since the epoch before, in NATIVE mode
(R102). -/
def gfJump (s : State) (a : Nat) (x : SatObs) : Bool :=
  s.gnss.mode == 1 && match geoFreeStep s x a with
  | none => false
  | some d => decide (1 / 20 < absQ d)

/-- A cycle slip of a satellite on some channel since the epoch before (R102, R107). -/
def slipped (s : State) (x : SatObs) : Bool :=
  s.gnss.chans.any (fun c => c.slip && c.system == x.system && c.sv == x.sv) || gfJump s 0 x || gfJump s 1 x

/-- Mean of a list of quantities, 0 of none. -/
def meanQ (l : List Qty) : Qty := if l.isEmpty then 0 else l.foldl (· + ·) 0 / (l.length : Qty)

/-- Mean square of a list of quantities about its mean. -/
def varianceQ (l : List Qty) : Qty :=
  let m := meanQ l
  meanQ (l.map (fun x => (x - m) * (x - m)))

/-- The C/N0 of every signal that an epoch has on a channel in PULL_IN, TRACK or CODE_ONLY (R110). -/
def signalCn0 (s : State) (l : List SatObs) : List Qty :=
  (l.map (fun x => ([(0, 0), (1, 0), (0, 1), (1, 1)].filter (fun w => satIn s x w.1 w.2 [.pullIn, .track, .codeOnly])).map
    (fun w => x.cn0.getD (2 * w.2 + w.1) 0))).flatten

/-- The spread of C/N0: the largest less the smallest (DESIGN CHOICE; assumption 114). -/
def spreadQ : List Qty → Qty
  | [] => 0
  | x :: t => t.foldl max x - t.foldl min x

/-- The single difference in cycles that the geometry predicts for a satellite's L1 band carrier (R110): the baseline of the
image, turned by the vessel's attitude, along the line of sight (DESIGN CHOICE; assumption 114). -/
def predictedSd (s : State) (x : SatObs) : Qty :=
  let g := s.image.gnss
  let (h, r, p) := attitudeAt s (nowNs s)
  let b := toEarth h r p { x := g.antB.x - g.antA.x, y := g.antB.y - g.antA.y, z := g.antB.z - g.antA.z }
  let ce := Config.cosDeg x.elevation
  (b.x * ce * Config.cosDeg x.azimuth + b.y * ce * Config.sinDeg x.azimuth - b.z * Config.sinDeg x.elevation)
    / wavelength (carrierMHz x.system 0 x.k)

/-- Single differences of a satellite in TRACK on both antennas, free of the line bias (R106, R107): the wide-lane where its
L5 carriers are tracked as well. -/
def sdRow (s : State) (x : SatObs) : SdRow :=
  let d := carrier x 0 1 - carrier x 0 0 - s.gnss.lineBias
  { system := x.system, sv := x.sv, elevation := x.elevation, l1 := d
    wide := if s.gnss.mode == 1 && satIn s x 1 0 [.track] && satIn s x 1 1 [.track] then
      some (d - (carrier x 1 1 - carrier x 1 0)) else none }

/-- Satellites of an epoch above the mask less 2°. -/
def inView (s : State) (e : EpochIn) : List SatObs := e.sats.filter (fun x => (s.gnss.mask : Qty) - 2 ≤ x.elevation)

/-- Satellites usable in L1 on an antenna. -/
def usableL1 (s : State) (a : Nat) (l : List SatObs) : List SatObs :=
  l.filter (fun x => systemAllowed s x.system && satIn s x 0 a [.track, .codeOnly])

/-- Satellites usable on both bands (R99): their L5 signal in TRACK; in COMPAT, which tracks no L5, those whose L5 signal the
receiver finds usable (assumption 103). -/
def dualBand (s : State) (a : Nat) (l : List SatObs) : List SatObs :=
  (usableL1 s a l).filter (fun x => decide (x.system < 3) && (if s.gnss.mode = 1 then satIn s x 1 a [.track] else x.l5))

/-- The satellites that enter the solution (R96 to R98, R110): in NATIVE those with L5 in TRACK that pass the L1/L5 check. -/
def solutionPool (s : State) (a : Nat) (l : List SatObs) : List SatObs :=
  if s.gnss.mode = 1 then (dualBand s a l).filter (fun x => !ionoFails s a x) else usableL1 s a l

/-- The receiver clock offset of GNSS time from a module time in ns (R98, Table 4-10): the solution's instant brought to TAI. -/
def clockOffset (at_ ref : Nat) (g : GnssSol) : Int := g.instant + 1000000000 * taiShift ref - (at_ : Int)

/-- The holdover prediction (R110): the last accepted offset propagated at the learned rate (R75). -/
def clockPredicted (s : State) : Option Qty :=
  s.gnss.clkAcc.map (fun x => (x.1 : Qty) + s.time.learned * (((nowNs s - x.2 : Nat) : Qty) / 1000000000))

/-- The offset's rate over 10 s differs from the learned rate by more than 50 ppb (R110). -/
def clockRateOff (s : State) (off : Int) : Bool :=
  match s.gnss.clkHist.find? (fun x => decide (x.1 + 10000000000 ≤ nowNs s)) with
  | none => false
  | some x => decide (50 < absQ (((off - x.2 : Int) : Qty) / (((nowNs s - x.1 : Nat) : Qty) / 1000000000) - s.time.learned))

/-- The working values of an epoch (R96 to R98, R102, R105 to R107, R110). -/
def epochWork (s : State) (e : EpochIn) : EpochWork :=
  let a := (posAntenna s).getD 0
  let served := (posAntenna s).isSome
  let sats := inView s e
  let pool := glonassPair (solutionPool s a sats)
  let t := bestSolution s a e false pool
  let (nx, r) := rangeTest s a t (e.ggto, e.bdtGps) pool
  let used := if served then r.pool.length else 0
  let off := clockOffset (nowNs s) (clockPlan e.ggto e.bdtGps r.pool).ref r.sol
  let both := sats.filter (fun x => satIn s x 0 0 [.track] && satIn s x 0 1 [.track])
  { antenna := a, served
    dual := (dualBand s a sats).length
    used
    ionoFails := if s.gnss.mode = 1 then (dualBand s a sats).filter (ionoFails s a) else []
    rangeOut := if nx = 3 then [] else r.out
    nx
    test0 := (trial s a t (e.ggto, e.bdtGps) pool []).sol.test
    sol := r.sol
    solType := if used < 5 then 0 else t
    ideal := if used < 5 then 0 else bestSolution s a e true pool
    clkOff := off
    clkDev := match clockPredicted s with
      | none => 0
      | some p => (off : Qty) - p
    rateOff := clockRateOff s off
    agcDev := (List.range 4).map (fun i => match s.gnss.agcBase.getD i none with
      | none => 0
      | some b => e.agc.getD i b - b)
    both
    base := Config.baselineSolve (both.map (sdRow s)) s.image.gnss.baseLen s.image.gnss.baseTol
    slips := (sats.filter (slipped s)).length
    cn0s := signalCn0 s e.sats
    sdVar := varianceQ (both.map (fun x => carrier x 0 1 - carrier x 0 0))
    sdPredicted := varianceQ (both.map (predictedSd s)) }

/-- A flag set (R114): counted; bits 1 to 6 and 9 logged, with vector 34 at most once per frame; bits 4 and 5 latch, and
an earlier acknowledgement no longer counts (R113). -/
def setGnssFlag (b : Nat) (s : State) : State :=
  if s.gnss.flags.testBit b then s else
    let s := { s with gnss.flags := s.gnss.flags ||| 2 ^ b, gnss.setCount := s.gnss.setCount.modify b (fun n => sat 32 (n + 1)) }
    let s := if b = 4 || b = 5 then
        { s with gnss.latched := s.gnss.latched ||| 2 ^ b, gnss.acked := s.gnss.acked &&& (0xFFFF - 2 ^ b) }
      else s
    if (1 ≤ b && b ≤ 6) || b = 9 then
      assertVecFrame 34 4 (logJ 4 1 (leBytes 1 b ++ leBytes 2 s.gnss.flags) s)
    else s

/-- A flag cleared; the clearing of bits 1 to 6 and 9 is logged (R114). -/
def clearGnssFlag (b : Nat) (s : State) : State :=
  if !s.gnss.flags.testBit b then s else
    let s := { s with gnss.flags := s.gnss.flags &&& (0xFFFF - 2 ^ b), gnss.latched := s.gnss.latched &&& (0xFFFF - 2 ^ b),
                      gnss.acked := s.gnss.acked &&& (0xFFFF - 2 ^ b) }
    if (1 ≤ b && b ≤ 6) || b = 9 then logJ 4 2 (leBytes 1 b ++ leBytes 2 s.gnss.flags) s else s

/-- The state of a condition noted: since when it has held, or has been absent, and for how many epochs in a row. -/
def noteCond (b : Nat) (present : Bool) (s : State) : State :=
  { s with
    gnss.presentSince := s.gnss.presentSince.modify b (fun t => onset s t present)
    gnss.absentSince := s.gnss.absentSince.modify b (fun t => onset s t (!present))
    gnss.streak := s.gnss.streak.modify b (fun n => if present then n + 1 else 0) }

/-- The condition of a bit has held for `ms`. -/
def presentFor (s : State) (b ms : Nat) : Bool := heldFor s (s.gnss.presentSince.getD b none) ms
/-- The condition of a bit has been absent for `ms`. -/
def absentFor (s : State) (b ms : Nat) : Bool := heldFor s (s.gnss.absentSince.getD b none) ms

/-- A flag that follows its condition at once. -/
def flagNow (b : Nat) (c : Bool) (s : State) : State := if c then setGnssFlag b s else clearGnssFlag b s

/-- A latched flag (R113): it clears once its condition has been absent for 60 s and ACK_SPOOF has taken effect. -/
def clearLatched (b : Nat) (s : State) : State :=
  if absentFor s b 60000 && s.gnss.acked.testBit b then clearGnssFlag b s else s

/-- Bit 0: it is set when excluding 1 or 2 satellites leaves at least 5 and a passing test, and cleared by the first epoch
with no exclusion (Table 4-7). -/
def flagExcluded (w : EpochWork) (s : State) : State :=
  if w.rangeOut.isEmpty then clearGnssFlag 0 s else if 5 ≤ w.used then setGnssFlag 0 s else s

/-- Bit 2: the clock against the holdover prediction (Table 4-7); an epoch without solution says nothing about it. -/
def flagClock (w : EpochWork) (s : State) : State :=
  if w.used < 5 then s
  else
    let off : Bool := 100 < absQ w.clkDev
    let s := { s with
      gnss.streak := s.gnss.streak.modify 2 (fun n => if off then n + 1 else 0)
      gnss.absentSince := s.gnss.absentSince.modify 2 (fun t => onset s t (!off && !w.rateOff))
      gnss.clkAcc := if off then s.gnss.clkAcc else some (w.clkOff, nowNs s)
      gnss.clkHist := (nowNs s, w.clkOff) :: s.gnss.clkHist.filter (fun x => decide (nowNs s ≤ x.1 + 11000000000)) }
    if 3 ≤ s.gnss.streak.getD 2 0 || w.rateOff then setGnssFlag 2 s
    else if absentFor s 2 30000 then clearGnssFlag 2 s else s

/-- Bit 3: the L1/L5 check, not available in COMPAT mode (Table 4-7). -/
def flagIono (w : EpochWork) (s : State) : State :=
  if s.gnss.mode = 1 then
    let n := w.ionoFails.length
    let s := noteCond 3 (3 ≤ n || (0 < n && 3 * w.dual ≤ 10 * n)) s
    if 3 ≤ s.gnss.streak.getD 3 0 then setGnssFlag 3 s
    else if absentFor s 3 30000 then clearGnssFlag 3 s else s
  else clearGnssFlag 3 { s with gnss.streak := s.gnss.streak.set 3 0, gnss.absentSince := s.gnss.absentSince.set 3 none }

/-- Flags 0 to 3 of Table 4-7. -/
def flagsRange (w : EpochWork) (s : State) : State := flagIono w (flagClock w (flagNow 1 (w.nx == 3) (flagExcluded w s)))

/-- Bit 4: single differences between the antennas too alike (Table 4-7). Both spreads are RMS about the mean, which takes off
the line bias and the receiver's term that all differences share (assumption 114). -/
def flagsSpread (w : EpochWork) (s : State) : State :=
  let s := noteCond 4 (!s.image.gnss.antBAbsent && 5 ≤ w.both.length && 1 < w.sdPredicted && w.sdVar < 1 / 400) s
  if presentFor s 4 3000 then setGnssFlag 4 s else clearLatched 4 s

/-- Bit 5: carrier-to-noise ratios too high, or too even (Table 4-7). -/
def flagsEven (w : EpochWork) (s : State) : State :=
  let loud := w.cn0s.any (fun v => 55 < v)
  let even : Bool := 5 ≤ w.cn0s.length && 48 < meanQ w.cn0s && spreadQ w.cn0s < 3
  let s := { s with
    gnss.presentSince := (s.gnss.presentSince.modify 5 (fun t => onset s t even)).modify 12 (fun t => onset s t loud)
    gnss.absentSince := s.gnss.absentSince.modify 5 (fun t => onset s t (!even && !loud)) }
  if presentFor s 5 5000 || presentFor s 12 2000 then setGnssFlag 5 s else clearLatched 5 s

/-- Bit 6: the gain of any antenna and band against its learned baseline, which goes on learning while the flag is not set
(Table 4-7). -/
def flagsGain (e : EpochIn) (w : EpochWork) (s : State) : State :=
  let low := w.agcDev.any (fun d => d < -6)
  let near := w.agcDev.all (fun d => absQ d ≤ 3)
  let s := { s with
    gnss.presentSince := s.gnss.presentSince.modify 6 (fun t => onset s t low)
    gnss.absentSince := s.gnss.absentSince.modify 6 (fun t => onset s t near) }
  let s := if presentFor s 6 2000 then setGnssFlag 6 s else if absentFor s 6 10000 then clearGnssFlag 6 s else s
  if s.gnss.flags.testBit 6 then s
  else { s with gnss.agcBase := s.gnss.agcBase.mapIdx (fun i b => match e.agc[i]? with
    | none => b
    | some g => some (Config.agcLearn b g)) }

/-- Flags 4 to 6 of Table 4-7. -/
def flagsSpoof (e : EpochIn) (w : EpochWork) (s : State) : State := flagsGain e w (flagsEven w (flagsSpread w s))

/-- The baseline's ambiguities (R106, R107): a fix is accepted with 5 satellites in TRACK on both antennas, a ratio of 3 and
a length within its tolerance; slips of 2 or more satellites start a new one. The line bias is estimated while they are
fixed, and held while they are not: what the differences, free of the bias known so far, still show is added to it. -/
def fixBaseline (w : EpochWork) (s : State) : State :=
  let g := s.image.gnss
  let accept := s.gnss.heading && !g.antBAbsent && 5 ≤ w.both.length && 3 ≤ w.base.ratio && absQ (w.base.len - g.baseLen) ≤ g.baseTol
  let fixed := decide (w.slips < 2) && s.gnss.heading && !g.antBAbsent && (s.gnss.ambFixed || accept)
  { s with gnss.ambFixed := fixed, gnss.lineBias := if fixed then s.gnss.lineBias + w.base.bias else s.gnss.lineBias }

/-- Flags 7 to 9 of Table 4-7. -/
def flagsRest (w : EpochWork) (s : State) : State :=
  let s := fixBaseline w (flagNow 7 (decide (w.used < 5)) s)
  let s := flagNow 8 (!s.gnss.ambFixed) s
  let normal := (List.range 2).all (fun i => !antFault s i && match s.gnss.antNormal.getD i none with
    | none => true
    | some t => decide (t + 10000 ≤ s.mono))
  if antFault s 0 || antFault s 1 then setGnssFlag 9 s else if normal then clearGnssFlag 9 s else s

/-- Effects of a set of flags on the position (Table 4-8): 0 USABLE, 1 DEGRADED, 2 WITHHELD. -/
def posEffect (flags : Nat) : Nat :=
  if flags &&& 0xBA ≠ 0 then 2 else if flags &&& 0x244 ≠ 0 then 1 else 0

/-- The baseline heading is withheld by a set of flags (Table 4-8): bits 4, 5, 8 and 9. -/
def blWithheld (flags : Nat) : Bool := flags &&& 0x330 != 0

/-- Corrections age in units of 0.1 s, 0xFFFF none: that of the newest observations or SSR clock held. Which age counts
where both are held the manual does not say (DESIGN CHOICE; assumption 103). -/
def corrAge (s : State) : Nat :=
  match (s.gnss.corr.filter (fun r => r.kind != 1)).map (·.at_) with
  | [] => 0xFFFF
  | x :: t => min 0xFFFE ((s.mono - t.foldl max x) / 100)

/-- The observation entries of an epoch (R120): one for each channel in PULL_IN, TRACK or CODE_ONLY, in channel order, with
its state and what the receiver itself decides. -/
def obsEntries (s : State) (e : EpochIn) (w : EpochWork) : List (ObsEntry × Nat) :=
  (List.range 160).filterMap (fun i =>
    let c := s.gnss.chans.getD i {}
    if c.state == .pullIn || c.state == .track || c.state == .codeOnly then
      let o := (e.obs.find? (fun o => o.channel == i)).getD {}
      let of' (l : List SatObs) : Bool := l.any (fun x => x.system == c.system && x.sv == c.sv)
      let slip := c.slip || e.sats.any (fun x => x.system == c.system && x.sv == c.sv && gfJump s c.antenna x)
      some ({ o with
        channel := i, system := c.system, sv := c.sv, band := c.band, antenna := c.antenna, k := c.k
        cp := if c.state == .track then o.cp else 0
        obsFlags := bitN (o.obsFlags.testBit 0) 0 + bitN slip 1 + bitN (of' w.rangeOut || of' w.ionoFails) 2 +
          bitN (hasPilot c.system c.band) 3
        svFlags := bitN (of' w.ionoFails) 0 + bitN (of' w.rangeOut) 1 }, c.state.code)
    else none)

/-- The epoch's result (Tables 4-10 and 4-12) once flags and solution type are known. The range test statistic reported is
that before any exclusion; the manual does not say which (DESIGN CHOICE; assumption 103). -/
def epochResult (s : State) (e : EpochIn) (w : EpochWork) : EpochRes :=
  let eff := posEffect s.gnss.flags
  let t := (s.gnss.chans.filter (fun c => c.state == .track)).map (fun c => (c.system, c.sv))
  { sec := s.time.sec, ns := s.time.ns, frac := s.time.frac, quality := qualityByte s, mode := s.gnss.mode,
    solution := w.solType, svUsed := w.used, svTracked := t.eraseDups.length,
    effect := if w.served then eff else 2, flags := s.gnss.flags, antenna := w.antenna,
    ned := Config.llToNed s.image.site w.sol.llh, llh := w.sol.llh, vel := w.sol.vel, sigmaN := w.sol.sigmaN,
    sigmaE := w.sol.sigmaE, rhoNE := w.sol.rhoNE, sigmaD := w.sol.sigmaD,
    blAzim := wrap360 w.base.azim, blSd := w.base.sd, blElev := w.base.elev,
    blOk := s.gnss.ambFixed && !blWithheld s.gnss.flags,
    epoch := s.gnss.epochCount, clkOff := w.clkOff, obs := obsEntries s e w,
    excluded := (w.rangeOut ++ w.ionoFails).map (fun x => (x.system, x.sv)),
    ionoFail := w.ionoFails.length, chi2 := w.test0, clkDev := w.clkDev, sdSpread := Config.sqrt w.sdVar,
    cn0Mean := meanQ w.cn0s, cn0Spread := spreadQ w.cn0s, agcDev := w.agcDev }

/-- Navigation data still at the egress voter. -/
def navVoting (v : Voting) : Bool :=
  match v.pkt.body with
  | .nav _ => !v.sent
  | _ => false

/-- The 15 bytes of an epoch's time. -/
def epochTimeBytes (r : EpochRes) : List Byte :=
  leBytes 8 r.sec ++ leBytes 4 r.ns ++ leBytes 2 r.frac ++ leBytes 1 r.quality

/-- One observation entry (Table 4-11); k is 0 outside GLONASS. -/
def obsBytes (x : ObsEntry × Nat) : List Byte :=
  let o := x.1
  leBytes 1 o.system ++ leBytes 1 o.sv ++ leBytes 1 o.band ++ leBytes 1 o.antenna ++ leBytes 1 o.channel ++ leBytes 1 x.2 ++
    leBytes 1 o.cn0 ++ leBytes 1 o.obsFlags ++ leBytes 8 o.pr ++ leBytes 8 o.cp ++ leBytes 4 o.doppler ++ leBytes 4 o.lockMs ++
    leInt 1 (if o.system = 3 then o.k else 0) ++ leBytes 1 o.svFlags ++ leInt 2 o.elev ++ leBytes 2 o.azim ++ zeros 2

/-- The epoch header (Table 4-10) of a part. -/
def epochHeader (r : EpochRes) (first count : Nat) : List Byte :=
  epochTimeBytes r ++ leBytes 1 r.mode ++ leBytes 2 r.obs.length ++ leBytes 1 first ++ leBytes 1 count ++ leBytes 2 r.flags ++
    leBytes 1 r.solution ++ zeros 1 ++ leBytes 4 r.epoch ++ leInt 4 r.clkOff

/-- Part `i` of an epoch as a raw datagram (R121): the header and up to 36 entries. -/
def rawDatagram (r : EpochRes) (i : Nat) : List Byte :=
  let es := (r.obs.drop (36 * i)).take 36
  epochHeader r (36 * i) es.length ++ (es.map obsBytes).flatten

/-- A raw datagram still at the egress voter. -/
def rawVoting (v : Voting) : Bool :=
  match v.pkt.body with
  | .raw _ _ => !v.sent
  | _ => false

/-- The datagrams of the epoch before that have not started, at the voter or behind their budget, are abandoned, and that epoch is
counted (R121). -/
def abandonRaw (port : Nat) (s : State) : State :=
  let waits (w : Waiting) : Bool := w.port == port && w.cls == 3
  if !s.tt.egressWait.any waits && !s.host.voting.any rawVoting then s
  else
    { s with tt.egressWait := s.tt.egressWait.filter (fun w => !waits w)
             host.voting := s.host.voting.filter (fun v => !rawVoting v)
             gnss.rawAbandoned := sat 32 (s.gnss.rawAbandoned + 1) }

/-- Raw output (R121): the Lead sends the epoch's datagrams through the egress voter (R329), charged to the GNSS raw class of the
port. -/
def rawOutput (r : EpochRes) (s : State) : State :=
  match s.image.gnss.rawPort with
  | none => s
  | some port =>
    if s.cons.role != .lead then s else
      (List.range (max 1 ((r.obs.length + 35) / 36))).foldl (fun s i => emitReply { body := .raw port (rawDatagram r i) } s)
        { abandonRaw port s with gnss.rawOut := [] }

/-- A leap second announced by the receiver and absent from the table is added to the working copy (R69); a working copy that already
holds 64 entries stays as it is (DESIGN CHOICE; assumption 113). -/
def leapAdded (l : Option (Nat × Int)) (s : State) : State :=
  match l with
  | none => s
  | some (sec, v) =>
    if s.time.leap.any (fun x => x.1 == sec) || 64 ≤ s.time.leap.length then s
    else
      let sign : Int := if v < taiUtc s sec then -1 else 1
      logJ 3 6 (leBytes 8 sec ++ leInt 1 sign) { s with time.leap := s.time.leap ++ [(sec, v)] }

/-- Frames between epochs at a rate (R103). -/
def epochFrames (rate : Nat) : Nat := 100 / max 1 rate

/-- The time solution of the epoch as time source 0 (R70, R112); while a time-affecting flag is set, GNSS is a lost source. -/
def epochTime (w : EpochWork) (s : State) : State :=
  let valid := decide (w.solType ≠ 0)
  let ok := valid && s.gnss.flags &&& timeAffecting == 0
  let s := { s with gnss.timeValid := valid
                    time.srcs := s.time.srcs.modify 0 (fun x => { x with since := onset s x.since ok }) }
  if ok then measureSource 0 w.clkOff (hearSource 0 s) else s

/-- Dual-band satellites of AUTO noted (R99). -/
def noteDual (w : EpochWork) (s : State) : State :=
  { s with gnss.dualLowSince := onset s s.gnss.dualLowSince (decide (w.dual < 5))
           gnss.dualOkSince := onset s s.gnss.dualOkSince (decide (6 ≤ w.dual)) }

/-- A piece of navigation data kept in the retained region of 256 KiB (R118, Table 1-11), with the arrival of each
satellite's ephemerides. The region keeps the 32 newest pieces (DESIGN CHOICE; assumption 114). -/
def keepNav (b : List Byte) (s : State) : State :=
  let sats := Config.navSats b
  { s with gnss.navData := (b :: s.gnss.navData).take 32
           gnss.navEph := sats.map (fun x => (x.1, x.2, s.mono)) ++
             s.gnss.navEph.filter (fun x => !(sats.contains (x.1, x.2.1))) }

/-- What an epoch leaves for the next: predicted satellites, geometry-free carriers and the slips reported. Satellites that
fell below the mask less 2° are released (R100). -/
def settleEpoch (e : EpochIn) (w : EpochWork) (s : State) : State :=
  let s := { s with gnss.visible := e.visible
                    gnss.gf := gfRows s e.sats
                    gnss.gfNs := nowNs s
                    gnss.hotfixFailed := s.gnss.hotfixFailed && w.solType == 0
                    gnss.rtkFloat := s.gnss.rtkFloat && w.solType != 3
                    gnss.pppFloat := s.gnss.pppFloat && w.solType != 5
                    gnss.epochCount := (s.gnss.epochCount + 1) % 2 ^ 32
                    gnss.epochFrame := some s.tt.frame }
  let low := fun (c : GnssChan) => belowMask s c.system c.sv ||
    e.sats.any (fun x => x.system == c.system && x.sv == c.sv && decide (x.elevation < (s.gnss.mask : Qty) - 2))
  { s with gnss.chans := s.gnss.chans.map (fun c =>
      let c := { c with slip := false }
      if c.state != .idle && low c then enterTrack s .idle c else c) }

/-- The epoch's flags, solution type and result; the block then goes on its way to the frame set (R104). -/
def takeEpoch (e : EpochIn) (s : State) : State :=
  let w := epochWork s e
  let s := noteDual w (flagsRest w (flagsSpoof e w (flagsRange w s)))
  let s := flagNow 11 (w.solType != w.ideal) s
  let r := epochResult { s with gnss.epochCount := (s.gnss.epochCount + 1) % 2 ^ 32 } e w
  let s := e.nav.foldl (fun s b => keepNav b s) (leapAdded e.leap (epochTime w (settleEpoch e w s)))
  if e.inTime then
    let at_ := nowNs s
    rawOutput r (addRecord { link := 47, quality := r.quality, stampNs := at_, doneNs := at_ + 4000000, length := 32 + 40 * r.obs.length,
                             data := .epoch e } { s with gnss.blocks := s.gnss.blocks ++ [(at_, r)] })
  else { s with gnss.blockOpen := true }

/-! ### Modes (R99) -/

/-- Satellites with a channel in descending order of predicted elevation, those without prediction last (R100). -/
def byElevation (s : State) : List (Nat × Nat) :=
  (admitted s).foldl (fun l x =>
    let el (y : Nat × Nat) : Qty := (predElev s y.1 y.2).getD (-91)
    l.takeWhile (fun y => decide (el x ≤ el y)) ++ x :: l.dropWhile (fun y => decide (el x ≤ el y))) []

/-- The running mode changed: channels whose signals it does not track, or whose satellites are more than it serves, are freed;
the L1 channels of GPS, Galileo and BeiDou keep tracking; their satellites get the channels that the mode adds (R96, R100); and
RTK or PPP restarts at float. -/
def enterGnssMode (m : Nat) (s : State) : State :=
  if s.gnss.mode = m then s else
    let s : State := { s with gnss.mode := m, gnss.rtkFloat := true, gnss.pppFloat := true }
    let s : State := { s with gnss.chans := s.gnss.chans.map (fun c =>
        if c.state == .idle || signalAllowed s c.system c.band c.antenna then c else enterTrack s .idle c) }
    let keep := (byElevation s).take (satLimit s)
    let s : State := { s with gnss.chans := s.gnss.chans.map (fun c =>
        if c.state == .idle || keep.contains (c.system, c.sv) then c else enterTrack s .idle c) }
    let k (x : Nat × Nat) : Int :=
      ((s.gnss.chans.find? (fun c => c.state != .idle && c.system == x.1 && c.sv == x.2)).map (·.k)).getD 0
    { s with gnss.chans := keep.foldl (fun chans x => giveSignals s x.1 x.2 (k x) chans) s.gnss.chans }

/-- A change of mode, commanded or automatic, takes effect at the next epoch (R99): AUTO in COMPAT has MODE_FALLBACK set.
OFF gives no time and no baseline. -/
def takeMode (s : State) : State :=
  match s.gnss.modeNext with
  | none => s
  | some m =>
    let s := enterGnssMode m { s with gnss.modeNext := none }
    let s := flagNow 10 (s.gnss.sel == 3 && m == 2) s
    if m = 0 then { s with gnss.timeValid := false, gnss.ambFixed := false } else s

/-- GNSS_EPOCH (R99, R103, R110, R121): at the tick 5 strobe of a frame whose number is a multiple of n. -/
def execGnssEpoch (e : EpochIn) (s : State) : Host.Outcome State Fault Refusal :=
  .next (if junctionUp s && s.time.running && s.tt.tick == 5
      && s.tt.frame % epochFrames s.gnss.rate == 0 && s.gnss.epochFrame != some s.tt.frame then
    let s := takeMode s
    if tracking s then takeEpoch e s else s
  else s)

/-- EPOCH_BLOCK_TIMEOUT (R104): the block is discarded, counted, and a missed update of the reference. -/
def execEpochBlockTimeout (s : State) : Host.Outcome State Fault Refusal :=
  .next (if s.gnss.blockOpen then
    (List.range 16).foldl (fun s i => match s.image.ref.refs.getD i none with
      | some c => if c.kind = 0 && (unitOf s false i).enabled then missUpdate false i s else s
      | none => s)
      { s with gnss.blockOpen := false, gnss.missed := sat 32 (s.gnss.missed + 1) }
  else s)

/-- MODE_FALLBACK (R99): fewer than 5 satellites usable on both bands for 10 s; COMPAT from the next epoch on. -/
def execModeFallback (s : State) : Host.Outcome State Fault Refusal :=
  .next (if s.gnss.sel = 3 && s.gnss.mode = 1 && heldFor s s.gnss.dualLowSince 10000 then
    { s with gnss.modeNext := some 2, gnss.dualOkSince := none } else s)

/-- MODE_RETURN (R99): at least 6 for 60 s; NATIVE from the next epoch on. -/
def execModeReturn (s : State) : Host.Outcome State Fault Refusal :=
  .next (if s.gnss.sel = 3 && s.gnss.mode = 2 && heldFor s s.gnss.dualOkSince 60000 then
    { s with gnss.modeNext := some 1, gnss.dualLowSince := none } else s)

/-! ### Corrections (R108, R109) -/

/-- CRC-24Q of bytes (polynomial 0x864CFB, from 0; assumption 55). -/
def crc24q (bs : List Byte) : Nat := crcLeft 24 0x864CFB 0 bs

/-- Big-endian number of bytes. -/
def beNat (bs : List Byte) : Nat := bs.foldl (fun n b => 256 * n + b.toNat) 0

/-- Message numbers of Table 4-6 in its order. -/
def rtcmNumbers : List Nat :=
  [1074, 1084, 1094, 1124, 1077, 1087, 1097, 1127, 1005, 1006, 1007, 1008, 1033, 1057, 1063, 1240, 1258, 1058, 1064, 1241,
   1259, 1060, 1066, 1243, 1261, 1062, 1068, 1245, 1263]

/-- A frame passes preamble, length and CRC (R108). -/
def rtcmOk (bs : List Byte) : Bool :=
  let n := beNat ((bs.drop 1).take 2)
  6 ≤ bs.length && (bs.getD 0 0).toNat == 0xD3 && n ≤ 1023 && bs.length == n + 6 &&
    beNat (bs.drop (n + 3)) == crc24q (bs.take (n + 3))

/-- The system of a message number of Table 4-6. -/
def rtcmSystem (n : Nat) : Nat :=
  if [1084, 1087, 1063, 1064, 1066, 1065, 1068].contains n then 3
  else if [1094, 1097, 1240, 1241, 1243, 1245].contains n then 1
  else if [1124, 1127, 1258, 1259, 1261, 1263].contains n then 2
  else 0

/-- Corrections of a message kept for its satellites (R109): they replace those of the same number, and a combined message
replaces orbit and clock. Their age counts from the arrival of the frame (DESIGN CHOICE; assumption 114). -/
def keepCorr (kinds : List Nat) (n : Nat) (pay : List Byte) (s : State) : State :=
  let sats := Config.rtcmSats pay
  let k := rtcmSystem n
  let gone := fun (r : CorrRow) => kinds.contains r.kind && r.system == k && (r.number == n || kinds.length == 2)
    && sats.contains (r.sv, r.band)
  let rows := (kinds.map (fun x => sats.map (fun b =>
    ({ kind := x, number := n, system := k, sv := b.1, band := b.2, at_ := s.mono, data := pay } : CorrRow)))).flatten
  { s with gnss.corr := rows ++ s.gnss.corr.filter (fun r => !gone r) }

/-- The use of a decoded message (R108, R109, Table 4-6): a station message gives the base antenna, and a new station restarts
RTK at float. GLONASS messages serve COMPAT only, GLONASS SSR nothing. SSR corrections
are part of the navigation data (R118). -/
def useMessage (n : Nat) (pay : List Byte) (s : State) : State :=
  if [1074, 1094, 1124, 1077, 1097, 1127].contains n || (s.gnss.mode = 2 && (n = 1084 || n = 1087)) then keepCorr [0] n pay s
  else if n = 1005 || n = 1006 then
    let id := beNat ((pay.drop 1).take 2) % 4096
    { s with gnss.station := id, gnss.base := some (Config.rtcmBase pay)
             gnss.rtkFloat := s.gnss.rtkFloat || (s.gnss.station != 0xFFFF && s.gnss.station != id) }
  else if n = 1033 then
    { s with gnss.descr := fitBytes 32 ((pay.drop 4).take (pay.getD 3 0).toNat) }
  else if [1057, 1240, 1258].contains n then keepNav pay (keepCorr [1] n pay s)
  else if [1058, 1241, 1259, 1062, 1245, 1263].contains n then keepNav pay (keepCorr [2] n pay s)
  else if [1060, 1243, 1261].contains n then keepNav pay (keepCorr [1, 2] n pay s)
  else s

/-- One frame taken by the receiver (R108). -/
def rtcmFrame (bs : List Byte) (s : State) : State :=
  if !rtcmOk bs then { s with gnss.crcDrops := sat 32 (s.gnss.crcDrops + 1) }
  else
    let pay := (bs.drop 3).take (bs.length - 6)
    let n := beNat (pay.take 2) / 16
    match rtcmNumbers.idxOf? n with
    | none => { s with
        gnss.ignored := sat 32 (s.gnss.ignored + 1)
        gnss.ignoredBy := if s.gnss.ignoredBy.any (fun x => x.1 == n)
          then s.gnss.ignoredBy.map (fun x => if x.1 == n then (n, sat 32 (x.2 + 1)) else x)
          else s.gnss.ignoredBy ++ [(n, 1)] }
    | some i => useMessage n pay { s with
        gnss.frames := sat 32 (s.gnss.frames + 1)
        gnss.msgCount := s.gnss.msgCount.modify i (fun c => sat 32 (c + 1)) }

/-- RTCM_FRAME (R108, R109): the lanes pass a whole frame to the baseband: the next of those that wait. -/
def execRtcmFrame (bytes : List Byte) (s : State) : Host.Outcome State Fault Refusal :=
  .next (match s.gnss.corrQ with
  | [] => s
  | f :: rest => if lanesRun s && f == bytes then rtcmFrame f { s with gnss.corrQ := rest } else s)

/-! ### Navigation data on the ring (R118) -/

/-- While a module is Layover, the Lead sends its navigation data piece by piece in the GNSS data class of the frame's ring
budget; what does not fit waits for the class (R56). -/
def sendNav (s : State) : State :=
  if s.cons.role != .lead || s.cons.layover = 0 || s.gnss.navData.isEmpty || s.tt.ringBudget.getD 3 0 = 0
      || s.tt.ringWait.any (fun w => w.cls == 3) || s.host.voting.any navVoting then s
  else
    let b := s.gnss.navData.getD (s.gnss.navNext % s.gnss.navData.length) []
    emitReply { body := .nav b } { s with gnss.navNext := s.gnss.navNext + 1 }

/-! ### Antennas (R115) -/

/-- The current of an antenna input noted: since when it is below 3 mA, and since when at its limit. A supply that is off
shows neither. -/
def noteAntenna (i microamps : Nat) (atLimit : Bool) (s : State) : State :=
  let on := (s.gnss.antOff.getD i none).isNone
  let ext := s.image.gnss.extPowered.getD i false
  { s with gnss.antLow := s.gnss.antLow.modify i (fun t => onset s t (on && !ext && decide (microamps < 3000)))
           gnss.antLimit := s.gnss.antLimit.modify i (fun t => onset s t (on && atLimit)) }

/-- ANTENNA_FAULT_DETECT (R115, R110): an input is open after 1 s below 3 mA and short after 100 ms at its limit; a short
switches the supply off. Open detection is not used on an externally powered input. -/
def execAntennaFaultDetect (antenna : Nat) (x : AntennaIn) (s : State) : Host.Outcome State Fault Refusal :=
  .next (if junctionUp s && antenna < 2 && !(s.image.gnss.antBAbsent && antenna = 1) then
    let s := noteAntenna antenna x.microamps x.atLimit s
    if heldFor s (s.gnss.antLimit.getD antenna none) 100 then
      setGnssFlag 9 { s with
        gnss.antShort := s.gnss.antShort.set antenna true, gnss.antOff := s.gnss.antOff.set antenna (some s.mono)
        gnss.antLow := s.gnss.antLow.set antenna none, gnss.antLimit := s.gnss.antLimit.set antenna none
        gnss.antNormal := s.gnss.antNormal.set antenna none }
    else if heldFor s (s.gnss.antLow.getD antenna none) 1000 then
      setGnssFlag 9 { s with gnss.antOpen := s.gnss.antOpen.set antenna true, gnss.antNormal := s.gnss.antNormal.set antenna none }
    else s
  else s)

/-- ANTENNA_RETRY (R115): the supply is tried again 10 s after a short; an open input is judged again at any time. -/
def execAntennaRetry (antenna : Nat) (normal : Bool) (s : State) : Host.Outcome State Fault Refusal :=
  let off := s.gnss.antOff.getD antenna none
  .next (if antenna < 2 && antFault s antenna && (off.isNone || heldFor s off 10000) then
    if normal then
      { s with gnss.antShort := s.gnss.antShort.set antenna false, gnss.antOpen := s.gnss.antOpen.set antenna false
               gnss.antOff := s.gnss.antOff.set antenna none, gnss.antNormal := s.gnss.antNormal.set antenna (some s.mono) }
    else { s with gnss.antOff := s.gnss.antOff.modify antenna (fun t => t.map (fun _ => s.mono)) }
  else s)

/-! ### Snapshots and the hot fix (R116 to R119) -/

/-- Bytes of the samples of one snapshot: 4 ms of 1-bit samples at 81.84 MHz on four paths (R116). -/
def snapBytes : Nat := 163680

/-- SNAPSHOT_CAPTURE (R116, R117): at a second boundary, in SNAPSHOT mode; the 8 newest are kept. -/
def execSnapshotCapture (c : CaptureIn) (s : State) : Host.Outcome State Fault Refusal :=
  .next (if s.gnss.mode = 3 && s.pow.state == .layover && decide (s.time.ns < 1000000)
      && s.gnss.snaps.head?.map (·.sec) != some s.time.sec then
    let b := fitBytes snapBytes c.samples
    let x : SnapShot := { sec := s.time.sec, ns := s.time.ns, frac := s.time.frac, quality := qualityByte s, at_ := s.mono,
                          seq := s.gnss.snapSeq, agc := c.agc, sampleCount := c.sampleCount, crc := crc32c b, samples := b }
    { s with gnss.snaps := (x :: s.gnss.snaps).take 8, gnss.snapSeq := (s.gnss.snapSeq + 1) % 2 ^ 32 }
  else s)

/-- The mode that the selection gives at start (R99). -/
def startMode (sel : Nat) : Nat := if sel = 0 then 0 else if sel = 2 then 2 else 1

/-- The snapshot a hot fix starts from (R117, R119): the newest of the last 2 s, with valid time. -/
def hotSnap (s : State) (at_ : Nat) : Option SnapShot :=
  match s.gnss.snaps with
  | [] => none
  | x :: _ => if at_ ≤ x.at_ + 2000 && x.quality % 4 ≠ 0 then some x else none

/-- A satellite of the hot fix (R119): above the mask, its ephemerides younger than 4 h since they arrived (DESIGN CHOICE;
assumption 114), found within 50 Hz of the predicted Doppler, and at 32 dB-Hz or more on both bands. -/
def hotKept (s : State) (x : HotSat) : Bool :=
  decide ((s.gnss.mask : Qty) ≤ x.obs.elevation) &&
    s.gnss.navEph.any (fun n => n.1 == x.obs.system && n.2.1 == x.obs.sv && decide (s.mono < n.2.2 + 14400000)) &&
    decide (absQ x.doppler ≤ 50) && decide (32 ≤ x.cn0L1) && decide (32 ≤ x.cn0L5)

/-- The epoch of a hot fix (R119): the ionosphere-free solution of position and clock of the satellites kept, at the snapshot's
time; none with fewer than 5 satellites or with RANGE_UNRESOLVED. -/
def hotSolve (h : HotfixIn) (x : SnapShot) (s : State) : Option EpochRes :=
  let kept := (h.sats.filter (hotKept s)).map (·.obs)
  let a := (posAntenna s).getD 0
  let (nx, r) := rangeTest { s with gnss.mode := 1 } a 7 (h.ggto, h.bdtGps) kept
  if kept.length < 5 || nx = 3 then none
  else some
    { sec := x.sec, ns := x.ns, frac := x.frac, quality := x.quality, mode := startMode s.gnss.sel, solution := 7
      svUsed := r.pool.length
      clkOff := clockOffset (x.sec * 1000000000 + x.ns) (clockPlan h.ggto h.bdtGps r.pool).ref r.sol
      effect := posEffect (s.gnss.flags &&& 0xFF7F), flags := s.gnss.flags, antenna := a
      ned := Config.llToNed s.image.site r.sol.llh, llh := r.sol.llh, vel := r.sol.vel, sigmaN := r.sol.sigmaN
      sigmaE := r.sol.sigmaE, rhoNE := r.sol.rhoNE, sigmaD := r.sol.sigmaD, epoch := s.gnss.epochCount, chi2 := r.sol.test
      excluded := r.out.map (fun y => (y.system, y.sv)) }

/-- The channels that follow a hot fix (R119): every signal of the satellites kept, in REACQ from its prediction, on the 160
channels of the mode; the others are idle. -/
def hotChans (h : HotfixIn) (s : State) : List GnssChan :=
  let sats := ((h.sats.filter (hotKept s)).map (·.obs)).take (satLimit s)
  let want := (sats.map (fun x => ([0, 1].map (fun a => [0, 1].map (fun b => (x, b, a)))).flatten)).flatten
  let go := want.filter (fun w => signalAllowed s w.1.system w.2.1 w.2.2)
  (List.range 160).map (fun i => match go[i]? with
    | none => {}
    | some w => { enterTrack s .reacq { system := w.1.system, sv := w.1.sv, band := w.2.1, antenna := w.2.2, k := w.1.k }
                    with slip := false })

/-- A receiver record of the frame set, with the quality that its instant was captured with (R92). -/
def epochRecord (s : State) (at_ : Nat) (r : EpochRes) : InRecord :=
  { link := 47, quality := r.quality, stampNs := at_, doneNs := nowNs s, length := 32, data := .epoch {} }

/-- HOTFIX_COMPLETE (R119): a successful hot fix waits for the first frame set of the new Lead, or joins the present one;
the receiver enters its mode. After a failure it starts hot or warm, and gives no position until its first solution. -/
def execHotfixComplete (h : HotfixIn) (s : State) : Host.Outcome State Fault Refusal :=
  .next (match s.gnss.hotfix with
  | none => s
  | some t0 =>
    let res := match hotSnap s t0 with
      | none => none
      | some x => hotSolve h x s
    let s := enterGnssMode (startMode s.gnss.sel) { s with gnss.hotfix := none }
    match res with
    | none => { s with gnss.hotfixFailed := true }
    | some r =>
      let s := { s with gnss.hotfixFailed := false, gnss.chans := hotChans h s }
      let at_ := r.sec * 1000000000 + r.ns
      if s.cons.role == .lead then
        addRecord (epochRecord s at_ r) { s with gnss.blocks := s.gnss.blocks ++ [(at_, r)] }
      else { s with gnss.hotRes := some (at_, r) })

/-- The hot fix's record in the first frame set of the new Lead (R119). -/
def deliverHotfix (s : State) : State :=
  match s.gnss.hotRes with
  | none => s
  | some (at_, r) =>
    let set := insertRec (epochRecord s at_ r) s.inp.fcur
    { s with inp.fcur := set, inp.fdig := crc64 (Config.setBytes set), gnss.hotRes := none
             gnss.blocks := s.gnss.blocks ++ [(at_, r)] }

/-- The start signal starts the hot fix (R119). -/
def startHotfix (s : State) : State :=
  { s with gnss.hotfix := some s.mono, gnss.hotfixFailed := false, gnss.hotRes := none }

/-- Layover: tracking stops, the receiver captures snapshots whatever mode is selected (R116, R122). -/
def gnssLayover (s : State) : State :=
  { s with gnss.mode := 3, gnss.modeNext := none, gnss.chans := s.gnss.chans.map (enterTrack s .idle),
           gnss.blockOpen := false, gnss.held := [], gnss.timeValid := false, gnss.ambFixed := false }

/-- The settings that GNSS_MODE can write, in force (R122). -/
def gnssSettings (g : ImageGnss) (s : State) : State :=
  { s with gnss.sel := g.mode, gnss.solMax := g.solutionMax, gnss.rate := g.rate, gnss.rateNew := none,
           gnss.mask := g.mask, gnss.heading := g.heading }

/-- Receiver settings of the image (R99, R103, R122): the receiver of a module in Boot starts in its mode; afterwards a change
of mode takes effect at the next epoch. -/
def gnssFromImage (s : State) : State :=
  let g := s.image.gnss
  let s := gnssSettings g s
  if s.pow.state == .layover then s
  else if s.pow.state == .boot && s.gnss.mode = 0 then enterGnssMode (startMode g.mode) { s with gnss.modeNext := none }
  else { s with gnss.modeNext := some (startMode g.mode) }

/-- Boot: latched flags are cleared and the clearing logged (R113); the receiver starts afresh. -/
def gnssBoot (s : State) : State :=
  let s := if s.gnss.latched = 0 then s else logJ 4 3 (leBytes 2 s.gnss.latched) s
  { s with gnss := { navData := s.gnss.navData, snaps := s.gnss.snaps, snapSeq := s.gnss.snapSeq,
                     navEph := s.gnss.navEph, agcBase := s.gnss.agcBase,
                     antOpen := s.gnss.antOpen, antShort := s.gnss.antShort, antOff := s.gnss.antOff } }

/-! ### Opcodes (R122) -/

/-- GNSS_STATUS result (Table 4-12). -/
def gnssStatusResult (s : State) : List Byte :=
  let r := s.gnss.held.headD { mode := s.gnss.mode }
  epochTimeBytes r ++ leBytes 1 r.mode ++ leBytes 1 r.solution ++ leBytes 1 r.svUsed ++ leBytes 1 r.svTracked ++
    leBytes 1 r.effect ++ leBytes 2 r.flags ++ leBytes 1 r.antenna ++ zeros 1 ++
    f64Bytes r.ned.x ++ f64Bytes r.ned.y ++ f64Bytes r.ned.z ++ f64Bytes r.llh.x ++ f64Bytes r.llh.y ++ f64Bytes r.llh.z ++
    f32Bytes r.vel.x ++ f32Bytes r.vel.y ++ f32Bytes r.vel.z ++
    f32Bytes r.sigmaN ++ f32Bytes r.sigmaE ++ f32Bytes r.rhoNE ++ f32Bytes r.sigmaD ++
    f32Bytes r.blAzim ++ f32Bytes r.blSd ++ f32Bytes r.blElev ++ leBytes 2 (corrAge s) ++ zeros 2 ++ leBytes 4 r.epoch

/-- GNSS_STATUS (0x0801). -/
def gnssStatusSpec : OpSpec := { run := fun _ _ s => { status := 0, result := gnssStatusResult s, state := s } }

/-- GNSS_STATUS (R122). -/
def execGnssStatus (p : Packet) (s : State) : Host.Outcome State Fault Refusal :=
  .next (processPacket (some gnssStatusSpec) { p with opcode := 0x0801 } s)

/-- GNSS_RAW (0x0802): entries of the selected antennas from an index of the whole epoch on. -/
def gnssRawSpec : OpSpec :=
  { len := fun _ p => p.payload.length == 8
    run := fun _ p s =>
      let ep := fieldNat p.payload 0 4
      let first := fieldByte p.payload 4
      let cnt := fieldByte p.payload 5
      let mask := fieldByte p.payload 6
      let r := if ep = 0 then s.gnss.held.head? else s.gnss.held.find? (fun r => r.epoch == ep)
      if cnt < 1 || 101 < cnt then fail 0x0014 s
      else match r with
        | none => fail 0x0014 s
        | some r =>
          if r.obs.length < first then fail 0x0014 s
          else
            let es := ((r.obs.drop first).filter (fun o => mask.testBit o.1.antenna)).take cnt
            { status := 0, result := epochHeader r first es.length ++ (es.map obsBytes).flatten, state := s } }

/-- GNSS_RAW (R122). -/
def execGnssRaw (p : Packet) (s : State) : Host.Outcome State Fault Refusal :=
  .next (processPacket (some gnssRawSpec) { p with opcode := 0x0802 } s)

/-- The RTCM frames in a push, by their length fields; what is left over is passed on as it stands. -/
def rtcmSplit : Nat → List Byte → List (List Byte)
  | 0, _ => []
  | _, [] => []
  | n + 1, bs =>
    let len := beNat ((bs.drop 1).take 2) + 6
    bs.take len :: rtcmSplit n (bs.drop len)

/-- GNSS_CORRECTIONS result. -/
def correctionsResult (s : State) : List Byte :=
  leBytes 4 s.gnss.frames ++ leBytes 4 s.gnss.crcDrops ++ leBytes 4 s.gnss.ignored ++ leBytes 2 s.gnss.station ++
    leBytes 2 (corrAge s) ++ fitBytes 32 s.gnss.descr ++
    ((List.range 29).map (fun i => leBytes 2 (rtcmNumbers.getD i 0) ++ leBytes 4 (s.gnss.msgCount.getD i 0))).flatten

/-- GNSS_CORRECTIONS (0x0803). -/
def gnssCorrectionsSpec : OpSpec :=
  { auth := fun p => if fieldByte p.payload 0 = 1 then 1 else 0
    len := fun _ p => if fieldByte p.payload 0 = 1 then 5 ≤ p.payload.length && p.payload.length ≤ 4080
      else p.payload.length == 4
    run := fun _ p s =>
      let op := fieldByte p.payload 0
      if 1 < op then fail 0x0013 s
      else
        let s := if op = 1 then { s with gnss.corrQ := s.gnss.corrQ ++ rtcmSplit 4076 (p.payload.drop 4) } else s
        { status := 0, result := correctionsResult s, state := s } }

/-- GNSS_CORRECTIONS (R122). -/
def execGnssCorrections (p : Packet) (s : State) : Host.Outcome State Fault Refusal :=
  .next (processPacket (some gnssCorrectionsSpec) { p with opcode := 0x0803 } s)

/-- GNSS_MODE result (Table 4-13): the active values. -/
def gnssModeResult (op : Nat) (s : State) : List Byte :=
  leBytes 1 op ++ leBytes 1 s.gnss.sel ++ leBytes 1 s.gnss.solMax ++ leBytes 1 s.gnss.rate ++ leBytes 1 s.gnss.mask ++
    leBytes 1 (bitN s.gnss.heading 1) ++ zeros 2

/-- A write in which only ACK_SPOOF is set: read as one whose every other field repeats the active value (DEDUCED; assumption
114). -/
def ackOnly (s : State) (p : Packet) : Bool :=
  let b := p.payload
  fieldByte b 1 == s.gnss.sel && fieldByte b 2 == s.gnss.solMax && fieldByte b 3 == s.gnss.rate && fieldByte b 4 == s.gnss.mask
    && (fieldByte b 5).testBit 0 && (fieldByte b 5).testBit 1 == s.gnss.heading

/-- GNSS_MODE (0x0804). -/
def gnssModeSpec : OpSpec :=
  { authNow := fun s p => if fieldByte p.payload 0 = 0 then 0 else if ackOnly s p then 1 else 2
    len := fun _ p => p.payload.length == 8
    run := fun _ p s =>
      let b := p.payload
      let op := fieldByte b 0
      if 1 < op then fail 0x0013 s
      else if op = 0 then { status := 0, result := gnssModeResult 0 s, state := s }
      else if 3 < fieldByte b 1 || fieldByte b 2 < 1 || 6 < fieldByte b 2 || !([1, 2, 5, 10, 20].contains (fieldByte b 3)) || 30 < fieldByte b 4 then
        fail 0x0014 s
      else { status := 1, result := gnssModeResult 1 s
             state := defer (.gnssMode (fieldByte b 1) (fieldByte b 2) (fieldByte b 3) (fieldByte b 4) (fieldByte b 5)) s } }

/-- GNSS_MODE (R122). -/
def execGnssMode (p : Packet) (s : State) : Host.Outcome State Fault Refusal :=
  .next (processPacket (some gnssModeSpec) { p with opcode := 0x0804 } s)

/-- A new rate at a frame boundary whose number is a multiple of its n (R122). -/
def rateAtBoundary (s : State) : State :=
  match s.gnss.rateNew with
  | none => s
  | some r => if s.tt.frame % epochFrames r = 0 then { s with gnss.rate := r, gnss.rateNew := none } else s

/-- A GNSS_MODE write takes effect (R99, R113, R122); the mode itself changes at the next epoch, and OFF withholds the
reference at once. -/
def applyGnssMode (mode solMax rate mask flags : Nat) (s : State) : State :=
  let s := { s with gnss.solMax := solMax, gnss.mask := mask, gnss.heading := flags.testBit 1
                    gnss.rateNew := if rate = s.gnss.rate then none else some rate
                    gnss.acked := if flags.testBit 0 then s.gnss.acked ||| s.gnss.latched else s.gnss.acked }
  let s := rateAtBoundary s
  if mode = s.gnss.sel then s
  else
    let s := { s with gnss.sel := mode, gnss.dualLowSince := none, gnss.dualOkSince := none }
    if s.gnss.mode = 3 then s else { s with gnss.modeNext := some (startMode mode) }

/-- INTEGRITY_REPORT result (Table 4-14). -/
def integrityResult (s : State) : List Byte :=
  let r := s.gnss.held.headD {}
  let ex := (r.excluded.take 16).map (fun x => leBytes 1 x.1 ++ leBytes 1 x.2)
  leBytes 2 s.gnss.flags ++ leBytes 2 s.gnss.latched ++ leBytes 2 s.gnss.acked ++ leBytes 1 r.effect ++
    leBytes 1 r.excluded.length ++ ((List.range 4).map (fun i => leInt 1 (roundEven (r.agcDev.getD i 0 * 2)))).flatten ++
    f32Bytes r.chi2 ++ f32Bytes r.clkDev ++ f32Bytes r.sdSpread ++ leBytes 2 (roundEven (r.cn0Mean * 100)).toNat ++
    leBytes 2 (roundEven (r.cn0Spread * 100)).toNat ++ leBytes 1 r.ionoFail ++ zeros 3 ++
    ((List.range 12).map (fun i => leBytes 4 (s.gnss.setCount.getD i 0))).flatten ++
    ex.flatten ++ List.replicate (32 - 2 * ex.length) 0xFF

/-- INTEGRITY_REPORT (0x0805). -/
def integrityReportSpec : OpSpec := { run := fun _ _ s => { status := 0, result := integrityResult s, state := s } }

/-- INTEGRITY_REPORT (R122). -/
def execIntegrityReport (p : Packet) (s : State) : Host.Outcome State Fault Refusal :=
  .next (processPacket (some integrityReportSpec) { p with opcode := 0x0805 } s)

end Sys2Proof.Machine
end

