-- ==== Sys2Proof/Machine/SignalBox.lean ====
section
/-! DEFINITION. The signal box (chapter 10): command sets and limiting, safety inputs, discrepancy, states and stop
causes, proof opening, reset, the SAFE contacts, the Springbok path, the status mirror and the three opcodes. -/

namespace Sys2Proof.Machine

/-! ### Medians (R306) -/

/-- The circular median in degrees, values in lane order (R306). -/
def circMedian (l : List Qty) : Qty :=
  match l with
  | [] => 0
  | [x] => x
  | x :: _ =>
    let arcs := l.map (fun a => (a, l.map (fun v => wrap360 (v - a))))
    let span := fun (d : List Qty) => d.foldl max 0
    let best := arcs.foldl (fun (b : Option (Qty × List Qty)) a => match b with
      | none => some a
      | some y => if span a.2 < span y.2 then some a else some y) none
    match best with
    | none => x
    | some (a, d) => if l.length = 2 && span d = 180 then wrap360 x else wrap360 (a + medianQ d)

/-! ### Limiting (R305 to R308) -/

/-- The command that a thrust channel's code gives: c = x one-way, 2x − 1 signed (R305). -/
def sbCmd (t : SbThr) (code : Nat) : Qty :=
  let x := divQ ((code : Qty) - t.iLo) ((t.iHi : Qty) - t.iLo)
  if t.signed then 2 * x - 1 else x

/-- The code of a command, rounding half to even (R305). -/
def sbCode (t : SbThr) (c : Qty) : Nat :=
  let x := if t.signed then (c + 1) / 2 else c
  (roundEven (t.iLo + x * ((t.iHi : Qty) - t.iLo))).toNat

/-- The thrust of a command through the model copy (R305). -/
def sbThrust (t : SbThr) (c : Qty) : Qty :=
  if 0 ≤ c then t.tMax * Config.rpow c t.gamma else -(t.tRev * Config.rpow (-c) t.gamma)

/-- The direction of a thruster (R305, R306): α of a FIXED one, the circular median of the present lanes' delivered azimuths. -/
def sbAzimuth (azim : List (List Qty)) (t : SbThr) : Qty :=
  if t.azimuth then circMedian (azim.map (fun l => l.getD t.thruster 0)) else t.alpha

/-- k_dir of a resultant magnitude and earth direction; no heading: every direction is excluded (R306, R307). -/
def kDir (l : Limits) (heading : Option Qty) (mag dir : Qty) : Qty :=
  let armed := l.sectors.filter (·.armed)
  match heading with
  | none => match armed with
    | [] => 1
    | a :: r =>
      let f := r.foldl (fun m x => min m x.fSec) a.fSec
      if f < mag then f / mag else 1
  | some _ => armed.foldl (fun k x => if absQ (wrap180 (dir - x.centre)) ≤ x.half && x.fSec < mag then min k (x.fSec / mag) else k) 1

/-- k_yaw (R306, R308). -/
def kYaw (l : Limits) (yaw : Option Qty) (n : Qty) : Qty :=
  if l.rLim = 0 || absQ n ≤ l.nHold then 1
  else match yaw with
    | none => l.nHold / absQ n
    | some r => if l.rLim ≤ absQ r && 0 < n * r then l.nHold / absQ n else 1

/-- What limiting one lane's set gives: codes, clamped thrusters, changed channels, factors, resultant after limiting. -/
structure LimOut where
  codes : List Nat := []
  clamped : List Nat := []
  changed : List Nat := []
  kd : Qty := 1
  ky : Qty := 1
  mag : Qty := 0
  dir : Qty := 0
deriving DecidableEq, Repr, Inhabited

/-- One lane's set limited (R305). -/
def limitSet (s : State) (heading yaw : Option Qty) (azim : List (List Qty)) (codes : List Nat) : LimOut :=
  let l := s.sb.limits
  let on := l.thrusters.filter (fun t => codes.getD t.channel 0xFFFF ≠ 0xFFFF)
  let cl := fun (t : SbThr) => max t.codeLo (min t.codeHi (codes.getD t.channel 0xFFFF))
  let cs := on.map (fun t => (t, cl t))
  let f := cs.map (fun x =>
    let v := sbThrust x.1 (sbCmd x.1 x.2)
    let a := sbAzimuth azim x.1
    (x.1, v * Config.cosDeg a, v * Config.sinDeg a))
  let fx := f.foldl (fun r x => r + x.2.1) 0
  let fy := f.foldl (fun r x => r + x.2.2) 0
  let n := f.foldl (fun r x => r + x.1.x * x.2.2 - x.1.y * x.2.1) 0
  let mag := Config.sqrt (fx * fx + fy * fy)
  let dir := wrap360 (heading.getD (s.sb.heading.getD 0) + Config.atan2Deg fy fx)
  let kd := kDir l heading mag dir
  let ky := kYaw l yaw n
  let k := min 1 (min kd ky)
  let fin := cs.map (fun x => (x.1.channel, if k < 1 then sbCode x.1 (sbCmd x.1 x.2 * Config.rpow k (1 / x.1.gamma)) else x.2))
  { codes := fin.foldl (fun c x => c.set x.1 x.2) codes
    clamped := (cs.filter (fun x => x.2 ≠ codes.getD x.1.channel 0xFFFF)).map (·.1.thruster)
    changed := (fin.filter (fun x => x.2 ≠ codes.getD x.1 0xFFFF)).map (·.1)
    kd, ky, mag := k * mag, dir }

/-! ### Navigation (R306) -/

/-- An annex as its angles stand in a command set: BAM32 (R11). -/
def bamAnnex (a : Annex) : Annex := { a with heading := bamRound a.heading, azim := a.azim.map bamRound }

/-- The annexes of the present lanes, in lane order; a faulty lane sends its own. -/
def annexes (s : State) (x : SbTickIn) (ls : List Lane) : List Annex :=
  ls.map (fun l => match x.annex.get l with
    | some a => bamAnnex a
    | none => { heading := s.ctl.released.heading, yaw := s.ctl.released.yaw, azim := s.ctl.released.azim })

/-- The lanes that qualify: some other present lane agrees in heading and yaw rate (R306). -/
def qualified (v : List (Qty × Qty)) : List (Qty × Qty) :=
  ((v.zipIdx).filter (fun a => (v.zipIdx).any (fun b =>
    a.2 ≠ b.2 && decide (absQ (wrap180 (a.1.1 - b.1.1)) ≤ 2) && decide (absQ (a.1.2 - b.1.2) * 5 ≤ 1)))).map (·.1)

/-- Heading and yaw rate in use; none without a majority (R306). -/
def navOf (v : List (Qty × Qty)) : Option (Qty × Qty) :=
  let q := qualified v
  if q.length < 2 then none else some (circMedian (q.map (·.1)), medianQ (q.map (·.2)))

/-! ### States and stop causes (R316, Table 10-4) -/

/-- A Springbok line asserted drives every island that regulates to its safe value (R321, R322). -/
def springAssert (s : State) : State :=
  { s with sb.springA := true, sb.springB := true, sb.releaseAt := none, isl := s.isl.mapIdx (fun ch i => enterSafe s ch i) }

/-- A record of the signal box for the next tick strobe (R326, Table 10-7). -/
def sbRecord (code : Nat) (data : List Byte) (s : State) : State :=
  { s with sb.events := s.sb.events ++ [(code, data, s.time.sec, s.time.ns, qualityByte s)] }

/-- The causes that hold, by their codes (Table 10-5). -/
def sbCauses (b : SbSt) : List Nat :=
  (if !(b.esd.a && b.esd.b) then [1] else []) ++ (if !(b.en.a && b.en.b) then [2] else []) ++
    (if b.esd.discrepancy || b.en.discrepancy then [3] else []) ++ (if b.yawHeld then [4] else [])

/-- A stop under PROOF_DUE: the proof is dropped, and PROOF_PENDING follows (R320). -/
def dropProof (s : State) : State :=
  if s.sb.proofDue then { s with sb.proofDone := false, sb.esd.proven := false, sb.en.proven := false } else s

/-- A change of signal box state: recorded, and the exit from RUN stops the outputs (R314, R316, R321). -/
def sbGoto (target : SbState) (cause : Nat) (s : State) : State :=
  let old := s.sb.state
  let cause' := match target with
    | .stopped | .fault => cause
    | .run => 0
    | _ => s.sb.cause
  let s := sbRecord 1 (leBytes 1 old.code ++ leBytes 1 target.code ++ leBytes 1 cause') { s with sb.state := target, sb.cause := cause' }
  let s := if target == .stopped then dropProof s else s
  if old == .run then
    springAssert { dropProof s with
      sb.cmdA := false
      sb.cmdB := false
      sb.safeA := false
      sb.safeB := false
      sb.openCmdAt := some s.mono
      sb.stops := sat 32 (s.sb.stops + 1)
      sb.stopSec := s.time.sec
      sb.stopNs := s.time.ns }
  else s

/-- The proof is complete (R320): both pairs proven, both contacts tested. -/
def proofAll (b : SbSt) : Bool := b.esd.proven && b.en.proven && b.testA && b.testB

/-- The proof completes, or completes anew once both pairs have been proven again (R320). -/
def proofStep (s : State) : State :=
  let b := s.sb
  let later := fun (p : PairSt) => match p.provenAt, b.proofAt with
    | some t, some u => decide (u < t)
    | _, _ => true
  if proofAll b && (!b.proofDone || (later b.esd && later b.en)) then
    { s with sb.proofDone := true, sb.proofAt := some s.mono, sb.proofDue := false }
  else s

/-- Later causes logged (R316). -/
def laterCauses (cs : List Nat) (s : State) : State := cs.foldl (fun s c => sbRecord 2 (leBytes 1 c) s) s

/-- The signal box after an input, a latch or the proof has changed; `prev` are the causes that held before (R316,
R320, Table 10-4). -/
def sbEval (prev : List Nat) (s : State) : State :=
  let s := proofStep s
  let s := if s.sb.state == .proofPending && s.sb.proofDone then sbGoto .resetWait 0 s else s
  let cur := sbCauses s.sb
  let new := cur.filter (fun c => !(prev.contains c))
  match s.sb.state with
  | .run | .resetWait =>
    match (if new.isEmpty then cur else new) with
    | [] => s
    | c :: _ => laterCauses (cur.filter (· ≠ c)) (sbGoto .stopped c s)
  | .stopped =>
    let s := laterCauses new s
    if !cur.isEmpty then s else if s.sb.proofDone then sbGoto .resetWait 0 s else sbGoto .proofPending 0 s
  | _ => s

/-- FAULT, from any state (R316). -/
def sbFault (cause : Nat) (s : State) : State :=
  if !s.sb.powered || s.sb.state == .fault then s else springAssert (sbGoto .fault cause s)

/-! ### Command sets in a tick (R304 to R311) -/

/-- Codes of a lane's set, a faulty lane's own codes in place (R304). -/
def laneCodes (s : State) (x : SbTickIn) (l : Lane) : List Nat :=
  (x.wrong.get l).foldl (fun c w => c.set w.1 w.2) s.ctl.released.codes

/-- A lane's set is present (R304). -/
def setPresent (s : State) (x : SbTickIn) (l : Lane) : Bool :=
  ((inService s l && runState s) || (s.pow.resetLanes && (laneOf s l).powered)) && !(x.bad.get l) && s.ctl.released.tick == s.tt.ticks

/-- The yaw rate against the stop rate (Table 10-5): since when at or above r_stop, and whether the cause still holds. -/
def yawWatch (s : State) (yaw : Option Qty) : State :=
  let l := s.sb.limits
  if l.rLim = 0 then s
  else match yaw with
    | none => { s with sb.yawSince := none }
    | some r =>
      let since := onset s s.sb.yawSince (decide (l.rStop ≤ absQ r))
      let held := s.sb.yawHeld && decide (l.rLim ≤ absQ r)
      if held = s.sb.yawHeld then { s with sb.yawSince := since }
      else sbEval (sbCauses s.sb) { s with sb.yawSince := since, sb.yawHeld := held }

/-- The limited code of a lane and channel: 0xFFFF from an absent lane (R304). -/
def limitedCode (outs : List (Lane × LimOut)) (l : Lane) (ch : Nat) : Nat :=
  match outs.find? (fun o => o.1 == l) with
  | some o => o.2.codes.getD ch 0xFFFF
  | none => 0xFFFF

/-- Channel 2's own result for a setpoint (R309). -/
def channel2Code (x : SbTickIn) (codeAt : Lane → Nat → Nat) (l : Lane) (ch : Nat) : Nat :=
  match (x.ch2.get l).find? (fun w => w.1 == ch) with
  | some w => w.2
  | none => codeAt l ch

/-- Two codes are more than 2 apart (R309). -/
def codesApart (a b : Nat) : Bool := decide (a + 2 < b) || decide (b + 2 < a)

/-- The channels of the setpoints on which the two channels disagree, one entry for each setpoint (R309). -/
def disagreeing (x : SbTickIn) (codeAt : Lane → Nat → Nat) : List Nat :=
  ((List.range 128).map (fun ch =>
    (lanesAll.filter (fun l => codesApart (codeAt l ch) (channel2Code x codeAt l ch))).map (fun _ => ch))).flatten

/-- The present lanes' sets limited, signed and reported (R304 to R311): a field is signed where channel 2's code of no lane is more than
2 codes from channel 1's, and each setpoint that is counts a channel disagreement (R309). -/
def sbTick (s : State) (x : SbTickIn) : State :=
  let ls := lanesAll.filter (setPresent s x)
  let an := annexes s x ls
  let nav := navOf (an.map (fun a => (a.heading, a.yaw)))
  let h := nav.map (·.1)
  let r := nav.map (·.2)
  let outs := ls.map (fun l => (l, limitSet s h r (an.map (·.azim)) (laneCodes s x l)))
  let codeAt := limitedCode outs
  let differ := disagreeing x codeAt
  let changed := ((outs.map (·.2.changed)).flatten).eraseDups
  let kd := outs.foldl (fun m o => min m o.2.kd) 1
  let ky := outs.foldl (fun m o => min m o.2.ky) 1
  let top := outs.foldl (fun (b : Qty × Qty) o => if b.1 ≤ o.2.mag then (o.2.mag, o.2.dir) else b) (0, 0)
  let s := { s with
    sb.present := ⟨ls.contains .a, ls.contains .b, ls.contains .c⟩
    sb.repeats := ⟨ls.contains .a && s.ctl.released.isRepeat, ls.contains .b && s.ctl.released.isRepeat, ls.contains .c && s.ctl.released.isRepeat⟩
    sb.heading := if h.isSome then h else s.sb.heading
    sb.yaw := r.getD s.sb.yaw
    sb.noMajority := nav.isNone
    sb.slt := maskOf ((outs.map (·.2.clamped)).flatten)
    sb.kDir := kd
    sb.kYaw := ky
    sb.kMin := min kd ky
    sb.resMag := top.1
    sb.resDir := top.2
    sb.limited := changed
    sb.outs := (List.range 128).map (fun ch => ⟨codeAt .a ch, codeAt .b ch, codeAt .c ch⟩)
    sb.signed := (List.range 128).map (fun ch => !(differ.contains ch))
    sb.signTick := s.tt.ticks
    sb.disagree := !differ.isEmpty
    sb.disagreeRun := if differ.isEmpty then 0 else s.sb.disagreeRun + 1
    sb.disagreements := sat 16 (s.sb.disagreements + differ.length) }
  addRecord { link := 192, quality := qualityByte s, stampNs := nowNs s, doneNs := nowNs s, length := 32, data := .sbReport changed s.sb.repeats } (yawWatch s r)

/-- SB_COMMAND_SET (R304 to R311): the sets released at this tick's strobe. -/
def execSbCommandSet (x : SbTickIn) (s : State) : Host.Outcome State Fault Refusal :=
  .next (if s.sb.powered then sbTick s x else s)

/-- SB_INTERNAL (Table 10-5). -/
def execSbInternal (cause : SbFaultKind) (s : State) : Host.Outcome State Fault Refusal :=
  let due := match cause with
    | .channelDisagreement => decide (3 ≤ s.sb.disagreeRun)
    | .selfTest => s.sb.testFail
    | .springbokLine => decide (2 ≤ s.sb.missA) || decide (2 ≤ s.sb.missB)
  .next (if due then sbFault 5 s else s)

/-! ### Safety inputs (R312 to R314, R320) -/

/-- One channel of a pair changed: openings timed, the sequence of R313 and R320 followed. -/
def pairChange (s : State) (chB closed : Bool) (p : PairSt) : PairSt :=
  let long := match p.bothOpenSince with
    | some t => !p.a && !p.b && decide (t + 50 ≤ s.mono)
    | none => false
  let dur := fun (o : Option Nat) => sat 16 (s.mono - o.getD s.mono)
  let p := if chB then
      { p with b := closed, openB := if closed then none else some s.mono, secB := if closed then p.secB else s.time.sec,
               lastB := if closed then (p.secB % 2 ^ 32, dur p.openB) else p.lastB }
    else
      { p with a := closed, openA := if closed then none else some s.mono, secA := if closed then p.secA else s.time.sec,
               lastA := if closed then (p.secA % 2 ^ 32, dur p.openA) else p.lastA }
  let p := { p with differSince := if p.a = p.b then none else some (p.differSince.getD s.mono) }
  if !p.a && !p.b then { p with bothOpenSince := some s.mono, firstClose := none, armed := false }
  else if p.a != p.b then { p with bothOpenSince := none, armed := long && closed, firstClose := if long && closed then some s.mono else none }
  else
    match p.firstClose with
    | some t =>
      if s.mono ≤ t + s.sb.limits.tDiscMs then
        { p with bothOpenSince := none, firstClose := none, armed := false, proven := true, provenAt := some s.mono, discrepancy := false }
      else { p with bothOpenSince := none, firstClose := none, armed := false }
    | none => { p with bothOpenSince := none, armed := false }

/-- RST-ACK changed (R317, R318): a falling edge leaves the width of the pulse for RESET_PULSE. -/
def rstChange (high : Bool) (s : State) : State :=
  if high then { s with sb.rstHigh := true, sb.rstAt := s.mono, sb.rstWhileStuck := s.sb.rstStuck }
  else { s with sb.rstHigh := false, sb.rstFell := s.mono, sb.pulseEnd := some (s.mono - s.sb.rstAt) }

/-- SAFETY_INPUT_CHANGE (R312, R313, R316, R318, R320 to R323): a change that has passed the input filter. -/
def execSafetyInputChange (pin : SafetyPin) (closed : Bool) (s : State) : Host.Outcome State Fault Refusal :=
  let now := match pin with
    | .esdA => s.sb.esd.a
    | .esdB => s.sb.esd.b
    | .enA => s.sb.en.a
    | .enB => s.sb.en.b
    | .rstAck => s.sb.rstHigh
  let prev := sbCauses s.sb
  .next (if !s.sb.powered || now = closed then s
  else match pin with
    | .esdA => sbEval prev { s with sb.esd := pairChange s false closed s.sb.esd }
    | .esdB => sbEval prev { s with sb.esd := pairChange s true closed s.sb.esd }
    | .enA => sbEval prev { s with sb.en := pairChange s false closed s.sb.en }
    | .enB => sbEval prev { s with sb.en := pairChange s true closed s.sb.en }
    | .rstAck => rstChange closed s)

/-- The channels of a pair have differed for longer than t_disc. -/
def differsLong (s : State) (p : PairSt) : Bool :=
  match p.differSince with
  | some t => decide (t + s.sb.limits.tDiscMs < s.mono)
  | none => false

/-- DISCREPANCY (R313). -/
def execDiscrepancy (pair : SafetyPair) (s : State) : Host.Outcome State Fault Refusal :=
  let prev := sbCauses s.sb
  .next (if !s.sb.powered then s
  else match pair with
    | .esd => if differsLong s s.sb.esd && !s.sb.esd.discrepancy then sbEval prev { s with sb.esd.discrepancy := true } else s
    | .en => if differsLong s s.sb.en && !s.sb.en.discrepancy then sbEval prev { s with sb.en.discrepancy := true } else s)

/-- SAFE_CONTACT_TIMEOUT (R314): a contact reads back closed 1 ms after its command to open. -/
def execSafeContactTimeout (contactB : Bool) (s : State) : Host.Outcome State Fault Refusal :=
  .next (if s.sb.powered && heldFor s s.sb.openCmdAt 1 then
    sbFault 6 { s with sb.safeA := s.sb.safeA || !contactB, sb.safeB := s.sb.safeB || contactB, sb.openCmdAt := none }
  else s)

/-- The contacts have read back open for longer than 1 ms after their command: they are tested (R314, R320). -/
def contactsTested (s : State) : State :=
  if s.sb.powered && heldFor s s.sb.openCmdAt 2 then
    sbEval (sbCauses s.sb) { s with sb.testA := true, sb.testB := true, sb.openCmdAt := none }
  else s

/-- YAW_RATE_STOP (Table 10-5): |r| at or above r_stop for t_stop. -/
def execYawRateStop (s : State) : Host.Outcome State Fault Refusal :=
  let due := match s.sb.yawSince with
    | some t => decide (s.sb.limits.tStop * 1000 ≤ ((s.mono - t : Nat) : Qty))
    | none => false
  .next (if s.sb.powered && due && !s.sb.yawHeld && decide (s.sb.limits.rLim ≠ 0) then
    sbEval (sbCauses s.sb) { s with sb.yawHeld := true }
  else s)

/-- SB_SELF_TEST_END (Tables 10-4, 15-8): the end of INIT; a failure leaves the signal box to SB_INTERNAL. -/
def execSbSelfTestEnd (passed openA openB : Bool) (s : State) : Host.Outcome State Fault Refusal :=
  .next (if !s.sb.powered || s.sb.state != .init || s.sb.testFail then s
  else if !(passed && openA && openB) then { s with sb.testFail := true, sb.testA := openA, sb.testB := openB }
  else
    let s := proofStep { s with sb.testA := true, sb.testB := true }
    sbEval (sbCauses s.sb) (sbGoto (if s.sb.proofDone then .resetWait else .proofPending) 0 s))

/-- PROOF_DUE (R320): the proof is older than its validity. A STOPPED signal box then needs a new one. -/
def execProofDue (s : State) : Host.Outcome State Fault Refusal :=
  let old := match s.sb.proofAt with
    | some t => decide (t + s.sb.limits.proofH * 3600000 < s.mono)
    | none => false
  .next (if s.sb.powered && decide (s.sb.limits.proofH ≠ 0) && s.sb.proofDone && old && !s.sb.proofDue then
    if s.sb.state == .stopped then dropProof { s with sb.proofDue := true } else { s with sb.proofDue := true }
  else s)

/-! ### Reset (R317, R318, R324) -/

/-- Why a reset pulse of a width is refused, 0 when it is valid (R317, R318). -/
def resetReason (s : State) (width : Nat) : Nat :=
  let b := s.sb
  if b.rstWhileStuck || b.rstStuck || 2000 < width then 7
  else if width < 100 then 8
  else if b.state != .resetWait then 6
  else if !(b.esd.a && b.esd.b && b.en.a && b.en.b) then 1
  else if b.esd.discrepancy || b.en.discrepancy then 2
  else if !b.proofDone then 3
  else if !b.limitsOk then 4
  else if b.signTick ≠ s.tt.ticks || decide ((b.present.list.filter (· == true)).length < 2) then 5
  else 0

/-- RESET_PULSE (R317 to R319, R324): the falling edge of RST-ACK. -/
def execResetPulse (s : State) : Host.Outcome State Fault Refusal :=
  .next (match s.sb.pulseEnd with
  | none => s
  | some w =>
    if !s.sb.powered then s
    else
      let r := resetReason s w
      let s := { s with sb.pulseEnd := none, sb.rstStuck := s.sb.rstStuck || decide (2000 < w) }
      if r ≠ 0 then logJ 10 3 (leBytes 1 r) { s with sb.refused := sat 16 (s.sb.refused + 1) }
      else
        sbGoto .run 0 { s with
          sb.cmdA := true
          sb.cmdB := true
          sb.safeA := true
          sb.safeB := true
          sb.openCmdAt := none
          sb.releaseAt := some s.tt.ticks })

/-- RST_STUCK (R318). -/
def execRstStuck (s : State) : Host.Outcome State Fault Refusal :=
  .next (if s.sb.powered && s.sb.rstHigh && decide (s.sb.rstAt + 2000 < s.mono) then { s with sb.rstStuck := true } else s)

/-- RST_STUCK_CLEAR (R318). -/
def execRstStuckClear (s : State) : Host.Outcome State Fault Refusal :=
  .next (if s.sb.powered && s.sb.rstStuck && !s.sb.rstHigh && decide (s.sb.rstFell + 1000 ≤ s.mono) then { s with sb.rstStuck := false } else s)

/-- SPRINGBOK_RELEASE (R324): the tick strobe after a valid reset. -/
def execSpringbokRelease (s : State) : Host.Outcome State Fault Refusal :=
  .next (match s.sb.releaseAt with
  | some t =>
    if s.sb.state == .run && s.tt.ticks ≠ t then { s with sb.springA := false, sb.springB := false, sb.releaseAt := none } else s
  | none => s)

/-- SPRINGBOK_TEST (R321): whether each line's test was seen at the loop-back. -/
def execSpringbokTest (seenA seenB : Bool) (s : State) : Host.Outcome State Fault Refusal :=
  .next (if s.sb.powered then
    { s with sb.missA := if seenA then 0 else s.sb.missA + 1, sb.missB := if seenB then 0 else s.sb.missB + 1 }
  else s)

/-! ### Status mirror (R325, R326) -/

/-- SB_PROOF (Table 10-8). -/
def sbProofBits (b : SbSt) : Nat := bitN b.esd.proven 0 + bitN b.en.proven 1 + bitN b.testA 2 + bitN b.testB 3 + bitN b.proofDone 8

/-- The entry of the tick whose command sets were judged last, as it reaches the mirror at the strobe that ends that tick
(Table 10-7, Table 10-8). -/
def mirrorOf (s : State) : SbMirror :=
  let b := s.sb
  { seq := (b.mirror.seq + 1) % 2 ^ 32
    state := b.state.code + b.cause * 256 + bitN (b.springA || b.springB) 16 + bitN b.safeA 17 + bitN b.safeB 18 + bitN b.proofDue 19 +
      bitN b.rstStuck 20
    inputs := bitN b.esd.a 0 + bitN b.esd.b 1 + bitN b.en.a 2 + bitN b.en.b 3 + bitN b.rstHigh 4 + bitN b.esd.discrepancy 8 +
      bitN b.en.discrepancy 9
    proof := sbProofBits b
    slt := b.slt
    func := bitN (decide (b.kDir < 1)) 0 + bitN (decide (b.kYaw < 1)) 1 + bitN b.noMajority 2 + bitN b.disagree 3 +
      (roundEven (b.kMin * 65535)).toNat * 65536
    heading := bam32 (b.heading.getD 0)
    yaw := ieeeBits 8 23 b.yaw
    resMag := ieeeBits 8 23 b.resMag
    resDir := bam32 b.resDir
    stops := b.stops
    refused := b.refused + b.disagreements * 65536
    stopSec := b.stopSec
    stopNs := b.stopNs
    limitsCrc := b.limits.crc
    present := b.present
    tick := b.signTick % 2 ^ 32 }

/-- What the signal box does at a tick strobe (R303, R314, R325, R326): a waiting limits block takes effect in both channels, which
verify its CRC-32C, contacts that
have read back open count as tested, records are logged with vector 32, and the status mirror is written. -/
def sbStrobe (s : State) : State :=
  if !s.sb.powered then s
  else
    let s := match s.sb.limitsNext with
      | some l => { s with sb.limits := l, sb.limitsNext := none, sb.limitsOk := crc32c l.bytes == l.crc }
      | none => s
    let s := contactsTested s
    let evs := s.sb.events
    let s := evs.foldl (fun s e => logAt 10 e.1 (laneMask s) e.2.2.1 e.2.2.2.1 e.2.2.2.2 e.2.1 s) { s with sb.events := [] }
    let s := if evs.isEmpty then s else assertVec 32 s
    { s with sb.mirror := mirrorOf s }

/-- The seventeen mirror registers in offset order. -/
def mirrorRegs (m : SbMirror) : List Nat :=
  [m.seq, m.state, m.inputs, m.proof, m.slt, m.func, m.heading, m.yaw, m.resMag, m.resDir, m.stops, m.refused, m.stopSec % 2 ^ 32,
   m.stopSec / 2 ^ 32 % 2 ^ 32, m.stopNs, m.limitsCrc, m.tick]

/-! ### Opcodes (R328) -/

/-- SAFETY_STATUS (0x0A01). -/
def safetyStatusSpec : OpSpec :=
  { without := fun _ => true
    run := fun _ _ s =>
      { status := 0, result := ((mirrorRegs s.sb.mirror).map (leBytes 4)).flatten ++ leBytes 1 (maskBools s.sb.mirror.present.list) ++ zeros 3,
        state := s } }

/-- SAFETY_STATUS (R328). -/
def execSafetyStatus (p : Packet) (s : State) : Host.Outcome State Fault Refusal :=
  .next (processPacket (some safetyStatusSpec) { p with opcode := 0x0A01 } s)

/-- Global limits entry (Table 10-10). -/
def limitsEntry (s : State) : List Byte :=
  let l := s.sb.limits
  leBytes 4 l.crc ++ leBytes 4 l.filterNs ++ leBytes 2 l.tDiscMs ++ leBytes 2 l.proofH ++ f32Bytes l.rLim ++ f32Bytes l.rStop ++
    f32Bytes l.tStop ++ f32Bytes l.nHold ++ leBytes 1 l.thrusters.length ++ leBytes 1 l.sectors.length ++ leBytes 1 l.safe.length ++ zeros 1 ++
    leBytes 8 (imageDigest64 s)

/-- Thruster limits entry (Table 10-11). -/
def sbThrEntry (t : SbThr) : List Byte :=
  leBytes 1 t.thruster ++ leBytes 1 (if t.azimuth then 0 else 1) ++ leBytes 1 t.channel ++ leBytes 1 (bitN t.signed 0) ++
    leBytes 2 t.codeLo ++ leBytes 2 t.codeHi ++ f32Bytes t.sltAhead ++ f32Bytes t.sltRev ++ f32Bytes t.x ++ f32Bytes t.y ++
    leBytes 4 (if t.azimuth then 0 else bam32 t.alpha) ++ f32Bytes t.tMax ++ f32Bytes t.tRev ++ f32Bytes t.gamma

/-- Sector entry of SAFETY_LIMITS_GET. -/
def sbSectorEntry (i : Nat) (x : SbSector) : List Byte :=
  leBytes 1 i ++ leBytes 1 (bitN x.armed 0) ++ zeros 2 ++ leBytes 4 (bam32 x.centre) ++ f32Bytes x.half ++ f32Bytes x.fSec

/-- The safe code that SAFETY_LIMITS_GET shows for a channel: 0xFFFF for HOLD. -/
def safeShown (s : State) (x : Nat × Nat × Nat) : Nat := if x.2.1 = 1 then 0xFFFF else safeCode s x.1 0 (chanOf s x.1).cfg

/-- The entries of sections 1 to 3. -/
def limitsSection (s : State) (sec : Nat) : List (List Byte) :=
  match sec with
  | 1 => s.sb.limits.thrusters.map sbThrEntry
  | 2 => (s.sb.limits.sectors.zipIdx).map (fun x => sbSectorEntry x.2 x.1)
  | _ => s.sb.limits.safe.map (fun x => leBytes 1 x.1 ++ leBytes 1 x.2.1 ++ leBytes 2 (safeShown s x))

/-- SAFETY_LIMITS_GET (0x0A02). -/
def safetyLimitsGetSpec : OpSpec :=
  { without := fun _ => true
    len := fun _ p => p.payload.length == 4
    run := fun _ p s =>
      let sec := fieldByte p.payload 0
      let first := fieldByte p.payload 1
      let cnt := fieldByte p.payload 2
      let es := limitsSection s sec
      if 3 < sec then fail 0x0013 s
      else if cnt = 0 || 128 < cnt then fail 0x0014 s
      else if sec = 0 then { status := 0, result := limitsEntry s, state := s }
      else if es.length < first + cnt then fail 0x0014 s
      else { status := 0, result := leBytes 1 cnt ++ zeros 3 ++ ((es.drop first).take cnt).flatten, state := s } }

/-- SAFETY_LIMITS_GET (R328). -/
def execSafetyLimitsGet (p : Packet) (s : State) : Host.Outcome State Fault Refusal :=
  .next (processPacket (some safetyLimitsGetSpec) { p with opcode := 0x0A02 } s)

/-- Seconds and duration of a channel's last opening, running if it is open now. -/
def openingBytes (s : State) (o : Option Nat) (sec : Nat) (last : Nat × Nat) : List Byte :=
  match o with
  | some t => leBytes 4 sec ++ leBytes 2 (sat 16 (s.mono - t))
  | none => leBytes 4 last.1 ++ leBytes 2 last.2

/-- PROOF_STATUS (0x0A03). -/
def proofStatusSpec : OpSpec :=
  { without := fun _ => true
    run := fun _ _ s =>
      let b := s.sb
      let since := if b.proofDone then b.proofAt.map (fun t => (s.mono - t) / 3600000) else none
      let left := if b.limits.proofH = 0 then 0xFFFFFFFF else match since with
        | some h => b.limits.proofH - h
        | none => 0
      { status := 0
        result := leBytes 4 (sbProofBits b) ++ leBytes 4 (since.getD 0xFFFFFFFF) ++ leBytes 4 left ++
          openingBytes s b.esd.openA b.esd.secA b.esd.lastA ++ openingBytes s b.esd.openB b.esd.secB b.esd.lastB ++
          openingBytes s b.en.openA b.en.secA b.en.lastA ++ openingBytes s b.en.openB b.en.secB b.en.lastB ++ zeros 4
        state := s } }

/-- PROOF_STATUS (R328). -/
def execProofStatus (p : Packet) (s : State) : Host.Outcome State Fault Refusal :=
  .next (processPacket (some proofStatusSpec) { p with opcode := 0x0A03 } s)

end Sys2Proof.Machine
end

