-- ==== Sys2Proof/Machine/Lanes.lean ====
section
/-! DEFINITION. Lanes and junction die (chapter 11): the egress voter, exclusion and reintegration of lanes, junction
self-checking, the checkpoint activity with its state digests, and the lane opcodes. The lanes compute bit-identical
results (R15), so State holds one agreed state; a lane's own error reaches a command as an operand. -/

namespace Sys2Proof.Machine

/-! ### Egress voter (R330) -/

/-- One packet at the voter changed or taken out. -/
def onVoting (id : Nat) (f : Voting → Voting) (s : State) : State :=
  { s with host.voting := s.host.voting.map (fun v => if v.pkt.id == id then f v else v) }

/-- A packet leaves the voter. -/
def dropVoting (id : Nat) (s : State) : State :=
  { s with host.voting := s.host.voting.filter (fun v => v.pkt.id != id) }

/-- An egress miscompare charged to a lane (R330, R331). -/
def chargeEgressErr (l : Lane) (s : State) : State :=
  if !inService s l then s
  else laneFault l 4 (setLane s l { laneOf s l with egress := sat 32 ((laneOf s l).egress + 1) })

/-- The status of a packet sent while a copy that differs is at hand: a command reply carries LANE_SPLIT (R330). -/
def splitStatus (split : Bool) (o : OutPkt) : OutPkt := if split && o.body == .reply then { o with status := 0x0040 } else o

/-- What the voter does once a copy has arrived: identical copies (error 0; a lane's error never repeats another's,
assumption 56) are sent; the copies that differ from the one sent are charged; no majority is a lane-set fault. -/
def judgeEgress (v : Voting) (s : State) : State :=
  let n := nServing s
  let copies := v.copies.filter (fun c => inService s c.1)
  let good := copies.filter (fun c => c.2 == 0)
  let badLanes := (copies.filter (fun c => c.2 != 0)).map (·.1)
  let need := if n = 1 then 1 else 2
  if v.sent then
    let s := if copies.length == n then dropVoting v.pkt.id s else s
    badLanes.foldl (fun s l => chargeEgressErr l s) s
  else if need ≤ good.length then
    let s := sendOut (splitStatus (!badLanes.isEmpty) v.pkt) s
    let s := if copies.length == n then dropVoting v.pkt.id s else onVoting v.pkt.id (fun x => { x with sent := true }) s
    badLanes.foldl (fun s l => chargeEgressErr l s) s
  else if n = 1 && copies.length = 1 then dropVoting v.pkt.id (sendOut v.pkt s)
  else if copies.length == n && 2 ≤ n then fallSilent s
  else s

/-- EGRESS_COPY (R330): a lane's copy of a packet reaches the voter. -/
def execEgressCopy (lane : Lane) (id : Nat) (err : Nat) (s : State) : Host.Outcome State Fault Refusal :=
  .next (match s.host.voting.find? (fun v => v.pkt.id == id) with
  | none => s
  | some v =>
    if !inService s lane || v.copies.any (fun c => c.1 == lane) then s
    else
      let v := { v with copies := v.copies ++ [(lane, err)], first := if v.copies.isEmpty then s.mono else v.first }
      judgeEgress v (onVoting id (fun _ => v) s))

/-- EGRESS_TIMEOUT (R330): 500 µs after the first copy. A missing copy of a packet sent is a miscompare; a packet without
two identical copies is a lane-set fault; a lane left alone in service sends its single copy (R333). -/
def execEgressTimeout (id : Nat) (s : State) : Host.Outcome State Fault Refusal :=
  .next (match s.host.voting.find? (fun v => v.pkt.id == id) with
  | none => s
  | some v =>
    if v.copies.isEmpty then s
    else if !v.sent then (if 2 ≤ nServing s then fallSilent s else judgeEgress v s)
    else
      let missing := (serving s).filter (fun l => !v.copies.any (fun c => c.1 == l))
      missing.foldl (fun s l => chargeEgressErr l s) (dropVoting id s))

/-! ### Exclusion and reintegration (R331 to R334) -/

/-- The module's lanes have power and an image to run (R334 needs both). -/
def lanesPowered (s : State) : Bool := runState s || s.pow.resetLanes

/-- Reintegration begins (R334 steps 1 to 3): the lane is powered, tests itself and loads its image. -/
def beginReint (l : Lane) (s : State) : State :=
  setLane s l { laneOf s l with
    state := .reintegrating, powered := true, reintAt := s.mono, shadowRun := 0, shadowFull := false, copied := false,
    changed := frame32 s }

/-- REINTEGRATION_START (R334): under AUTO, 1 s after the exclusion. -/
def execReintegrationStart (lane : Lane) (s : State) : Host.Outcome State Fault Refusal :=
  let x := laneOf s lane
  .next (if s.image.consist.autoReintegrate && x.state == .excluded && !x.noRetry && runState s && heldFor s x.exclAt 1000
    then beginReint lane s else s)

/-- LANE_ENTER_SERVICE (R334 step 6): at a frame boundary, after 10 consecutive matching SHADOW frames with a full-image
digest among them. -/
def execLaneEnterService (lane : Lane) (s : State) : Host.Outcome State Fault Refusal :=
  let x := laneOf s lane
  .next (if x.state == .shadow && 10 ≤ x.shadowRun && x.shadowFull && s.tt.nextAct == 0 && lanesRun s then
    let s := setLane s lane { x with state := .inService, changed := frame32 s, devRun := 0 }
    assertVec 36 (logAt 11 1 (2 ^ lane.num) s.time.sec s.time.ns (qualityByte s) (leBytes 1 2 ++ leBytes 1 x.cause) s)
  else s)

/-- LANE_MONITOR_FAULT (R331): clock or regulator out of tolerance, whatever the number of lanes in service. -/
def execLaneMonitorFault (lane : Lane) (supply : Bool) (s : State) : Host.Outcome State Fault Refusal :=
  let cause := if supply then 9 else 8
  .next (if !junctionUp s then s
  else match (laneOf s lane).state with
    | .inService => laneFault lane cause s
    | .reintegrating | .shadow => excludeLane lane cause s
    | _ => s)

/-- TICK_STROBE_MISSING (Table 11-3): the module falls silent. -/
def execTickStrobeMissing (s : State) : Host.Outcome State Fault Refusal :=
  .next (if lanesRun s then fallSilent s else s)

/-! ### Junction self-checking (R335, R336) -/

/-- The entry of a block's unit. -/
def blockEntry (s : State) (block unit : Nat) : Option BlockFault :=
  s.jx.blocks.find? (fun b => b.block == block && b.unit == unit)

/-- The entry of a block's unit replaced. -/
def setBlock (b : BlockFault) (s : State) : State :=
  { s with jx.blocks := b :: s.jx.blocks.filter (fun x => !(x.block == b.block && x.unit == b.unit)) }

/-- A TAKEOVER_READY Layover is present (R335 row 6, R333). -/
def layoverReady (s : State) : Bool :=
  s.cons.layover != 0 && (s.cons.peers.getD (s.cons.layover - 1) {}).hb.flags.testBit 0

/-- What a scrub of junction SRAM finds (R336, Table 11-3, R402): a single-bit error is corrected and counted; a double-bit error
loses the checkpoints held, or the first records of staging, and silences the module anywhere else. -/
def scrubFound (err : ScrubFind) (s : State) : State :=
  match err with
  | .clean => s
  | .single => { s with jx.eccCount := sat 32 (s.jx.eccCount + 1) }
  | .doubleElsewhere => fallSilent s
  | .doubleCheckpoint =>
    { s with cons.deltas := [], cons.full := none, cons.pieces := [], cons.fullWait := none
             cons.asm := if s.cons.sending = 0 then none else s.cons.asm }
  | .doubleStaging n =>
    let gone := s.log.staged.take n
    let k := gone.length
    stageLost { s with
      log.staged := s.log.staged.drop n
      log.eccLost := sat 32 (s.log.eccLost + k)
      log.lost := sat 32 (s.log.lost + k)
      log.lostSeqs := gone.map (·.1) ++ s.log.lostSeqs
      log.lostNow := sat 16 (s.log.lostNow + k)
      log.lostMask := gone.foldl (fun m x => m ||| 2 ^ x.2.source) s.log.lostMask
      log.lostCause := if k = 0 then s.log.lostCause else 1 }

/-- RETAINED_REGION_SCRUB (R336, R402): in Layover the junction die scrubs the retained regions. -/
def execRetainedRegionScrub (err : ScrubFind) (s : State) : Host.Outcome State Fault Refusal :=
  .next (if s.pow.state == .layover then scrubFound err s else s)

/-! ### Checkpoints (R351, R352) -/

/-- What a delta carries of a channel (Table 11-7). -/
def chanFast (i : Isl) : ChanFast :=
  { state := i.state, driven := i.driven, alarm := i.alarm, compliance := i.compliance, faulted := i.faulted }

/-- What a delta carries of the HART state of a channel (Table 11-7). -/
def hartFast (i : Isl) : HartFast := { md := i.md, mdNext := i.mdNext, bursts := i.bursts, errors := i.hartErrors }

/-- What a delta carries of a reference (Table 11-7). -/
def fastOf (u : RefUnit) : RefFast :=
  { state := u.state, fusion := u.fusion, probation := u.probation, proven := u.proven, excluded := u.excluded }

/-- The time settings in force, those written by command among them (R94, Table 11-7). -/
def timeWrites (s : State) : ImageTime :=
  { s.image.time with
    order := s.time.order, ext10m := s.time.extEnabled, clock := s.time.ptpClock, ports := s.time.ptp.map (·.cfg)
    ppsIn := s.time.ppsInCfg, ppsA := (s.time.ppsOut.getD 0 {}).cfg, ppsB := (s.time.ppsOut.getD 1 {}).cfg }

/-- The GNSS settings in force, those written by command among them (R122, Table 11-7). -/
def gnssWrites (s : State) : ImageGnss :=
  { s.image.gnss with
    mode := s.gnss.sel, solutionMax := s.gnss.solMax, rate := s.gnss.rateNew.getD s.gnss.rate, mask := s.gnss.mask, heading := s.gnss.heading }

/-- The fast state of this frame (Table 11-7). -/
def captureFast (s : State) : Fast :=
  { frame := frame32 s, sec := s.tt.bSec, ns := s.tt.bNs, epoch := s.cons.epoch, digest := imageDigest64 s, release := Config.fwRelease, lanes := laneMask s,
    modState := s.pow.state.code, set := s.set, obs := s.obs, fus := s.fus, refs := s.ref.refs.map fastOf, integ := s.ctl.axes.map (·.integ),
    phi := s.ctl.axes.map (·.phi), loops := s.ctl.loops, alloc := s.alloc,
    chans := s.isl.map chanFast, hart := s.isl.map hartFast }

/-- The slow state of this frame (Table 11-7). -/
def captureSlow (s : State) : Slow :=
  { ref := s.ref, axes := s.ctl.axes, banks := s.ctl.banks, active := s.ctl.active, cfgs := s.isl.map (·.cfg),
    traj := s.obs.traj, time := timeWrites s, gnss := gnssWrites s }

/-- Pieces a frame carries (R352). -/
def piecesPerFrame (s : State) : Nat :=
  min (s.tt.ringBudget.getD 1 0 / 8192 - 1) (s.tt.mramBudget.getD 0 0 / 8192)

/-- `k` pieces of the full image in transit put on the ring and into the MRAM slot (R352, R39). -/
def sendPieces (verified : Bool) : Nat → State → State
  | 0, s => s
  | k + 1, s =>
    if s.cons.sending = 0 then s else
      let i := 32 - s.cons.sending
      let f := s.cons.asm.getD {}
      let data := Config.pieceBytes f i
      let s := sendRing { cls := 1, bytes := 8192, cargo := .ring (.piece i f.fast.frame f.fast.epoch true data) 0xFF false } s
      sendPieces verified k (putPiece i data verified { s with cons.sending := s.cons.sending - 1 })

/-- A full image assembled in every tenth frame (R351); while the previous one is in transit it is skipped and counted (R59). -/
def assembleFull (d : Fast) (s : State) : State :=
  if s.tt.frame % 10 ≠ 0 then s
  else if s.cons.sending = 0 && s.cons.asm.isNone then
    { s with cons.sending := 32, cons.asm := some { fast := d, slow := captureSlow s } }
  else { s with tt.ckptSkip := sat 32 (s.tt.ckptSkip + 1) }

/-- The lanes' copies of this frame's checkpoint messages at the egress voter (R329, R330, R351): `err` is 0 for a copy that is the
majority's. A copy that differs is charged to its lane; without two identical copies of two or three lanes nothing is sent, which
is a lane-set fault. Answers whether the messages go out. -/
def voteCheckpoint (err : Lane3 Nat) (s : State) : Bool × State :=
  let bad := (serving s).filter (fun l => err.get l != 0)
  if nServing s ≤ 1 || bad.isEmpty then (true, s)
  else if nServing s - bad.length < 2 then (false, fallSilent s)
  else (true, bad.foldl (fun s l => chargeEgressErr l s) s)

/-- Checkpoints assembled and sent by the Lead (R351, R352): a delta in every frame before any piece of a full image. -/
def sendCheckpoints (copyErr : Lane3 Nat) (verified : Bool) (s : State) : State :=
  if s.cons.role != .lead then s else
    let r := voteCheckpoint copyErr s
    if !r.1 then r.2
    else
      let s := r.2
      let d := captureFast s
      let s := { s with cons.deltas := (d :: s.cons.deltas).take 10, cons.deltaFrame := d.frame }
      let s := sendRing { cls := 1, bytes := 8192, cargo := .ring (.delta d.frame d.epoch true (Config.deltaBytes d)) 0xFF false } s
      sendPieces verified (piecesPerFrame s) (assembleFull d s)

/-- The outcome of the state digests (R329, R331): the one that differs from two that agree is excluded; no two that
agree, or two lanes that differ, are a lane-set fault. -/
def judgeDigests (err : Lane3 Nat) (s : State) : State :=
  let bad := (serving s).filter (fun l => err.get l != 0)
  let s := bad.foldl (fun s l => setLane s l { laneOf s l with digest := sat 32 ((laneOf s l).digest + 1) }) s
  match bad with
  | [] => s
  | [l] => if nServing s = 1 then s else laneFault l 2 s
  | _ => fallSilent s

/-- What a checkpoint does for one lane out of service (R334): a reintegrating lane takes the copy at the end of a full
image, or fails its self-test; a SHADOW lane whose digest matches comes a frame nearer to service, or fails. -/
def reintegrateAt (full : Bool) (err : Lane3 Nat) (l : Lane) (s : State) : State :=
  let x := laneOf s l
  match x.state with
  | .reintegrating =>
    if full && x.reintAt + 160 + (if x.cause = 8 || x.cause = 9 then 10 else 0) ≤ s.mono then
      if err.get l = 0 then setLane s l { x with state := .shadow, copied := true, shadowRun := 0, changed := frame32 s }
      else excludeLane l 10 s
    else s
  | .shadow =>
    if err.get l = 0 then setLane s l { x with shadowRun := x.shadowRun + 1, shadowFull := x.shadowFull || full }
    else excludeLane l 11 s
  | _ => s

/-- CHECKPOINT (R351, R329, R330, R334, R39): activity 9. -/
def execCheckpoint (x : CkptIn) (s : State) : Host.Outcome State Fault Refusal :=
  .next (if mayRun 9 s then
    let full := s.tt.frame % 10 == 0
    let s := completeAct 9 (if works s then sendCheckpoints x.copyErr x.verified s else s)
    let s := if lanesRun s then judgeDigests x.digErr s else s
    if runState s then lanesAll.foldl (fun s l => reintegrateAt full x.digErr l s) s else s
  else s)

/-! ### Opcodes (R360) -/

/-- State byte of a lane (LANE_STATUS). -/
def LaneState.code : LaneState → Nat
  | .inService => 0
  | .excluded => 1
  | .reintegrating => 2
  | .shadow => 3
  | .lockedOut => 4
  | .unpowered => 5

/-- One entry of LANE_STATUS. -/
def laneEntry (s : State) (l : Lane) : List Byte :=
  let x := laneOf s l
  leBytes 1 l.num ++ leBytes 1 x.state.code ++ leBytes 1 x.cause ++
    leBytes 1 (sat 8 ((x.exclTimes.filter (fun t => decide (s.mono < t + 3600000))).length)) ++
    leBytes 4 x.excl ++ leBytes 4 x.egress ++ leBytes 4 x.digest ++ leBytes 4 x.deviating ++ leBytes 8 x.exclSec ++
    leBytes 4 x.changed

/-- LANE_STATUS (0x0B04). -/
def laneStatusSpec : OpSpec :=
  { without := fun _ => true, run := fun _ _ s => { status := 0, result := (lanesAll.map (laneEntry s)).flatten, state := s } }

/-- LANE_STATUS (R360). -/
def execLaneStatus (p : Packet) (s : State) : Host.Outcome State Fault Refusal :=
  .next (processPacket (some laneStatusSpec) { p with opcode := 0x0B04 } s)

/-- The state preconditions of LANE_REINTEGRATE. -/
def laneOpLocked (s : State) (mask op : Nat) : Bool :=
  let named := lanesAll.filter (fun l => mask.testBit l.num)
  !lanesPowered s || nServing s = 0 ||
    (if op = 2 then decide (nServing s < 2 + (named.filter (inService s)).length)
     else named.any (fun l => match (laneOf s l).state with
      | .inService | .reintegrating | .shadow => true
      | .lockedOut => op != 1
      | _ => false))

/-- LANE_REINTEGRATE (0x0B05). -/
def laneReintegrateSpec : OpSpec :=
  { auth := fun _ => 2
    without := fun _ => true
    len := fun _ p => p.payload.length == 4
    run := fun _ p s =>
      let mask := fieldByte p.payload 0
      let op := fieldByte p.payload 1
      if 2 < op then fail 0x0013 s
      else if mask = 0 || 7 < mask then fail 0x0014 s
      else if laneOpLocked s mask op then fail 0x0021 s
      else
        { status := 1
          result := leBytes 1 (laneMask s) ++ leBytes 1 mask ++ zeros 2 ++ leBytes 4 (effectFrame s)
          state := defer (.lane mask op) s } }

/-- LANE_REINTEGRATE (R360). -/
def execLaneReintegrate (p : Packet) (s : State) : Host.Outcome State Fault Refusal :=
  .next (processPacket (some laneReintegrateSpec) { p with opcode := 0x0B05 } s)

/-- The action of LANE_REINTEGRATE at its boundary: reintegrate, clear the lock-out and reintegrate, or exclude with cause
COMMAND. -/
def applyLane (mask op : Nat) (s : State) : State :=
  lanesAll.foldl (fun s l =>
    if !mask.testBit l.num then s
    else if op = 2 then (if inService s l then excludeLane l 12 s else s)
    else
      let s := if op = 1 then setLane s l { laneOf s l with exclTimes := [] } else s
      match (laneOf s l).state with
      | .excluded => beginReint l s
      | .lockedOut => if op = 1 then beginReint l s else s
      | _ => s) s

end Sys2Proof.Machine
end

