-- ==== Sys2Proof/Machine/Consist.lean ====
section
/-! DEFINITION. The ring and the consist (chapter 11): links, roll call, roles, heartbeats on four carriers, losses and
arbitration, SPLIT_VIEW, and the opcodes CONSIST_STATUS, ROLL_CALL and TRANSFER_LEAD. Ring messages as such stand in
Ring.lean, takeover and transfer in Takeover.lean. -/

namespace Sys2Proof.Machine

/-! ### Presence (R339) -/

/-- What is known of the module at an address, 1 to 4. -/
def peerAt (s : State) (k : Nat) : Peer := if k = 0 then {} else s.cons.peers.getD (k - 1) {}

/-- One peer changed. -/
def onPeer (k : Nat) (f : Peer → Peer) (s : State) : State :=
  if k = 0 then s else { s with cons.peers := s.cons.peers.modify (k - 1) f }

/-- A heartbeat of the module was heard on a carrier within the last `ms`. -/
def heardIn (s : State) (k c ms : Nat) : Bool :=
  match (peerAt s k).heard.getD c none with
  | none => false
  | some t => decide (s.mono ≤ t + ms)

/-- Heard on any carrier within the last `ms`. -/
def heardAny (s : State) (k ms : Nat) : Bool := (List.range 4).any (fun c => heardIn s k c ms)

/-- The module with an address is present (R339): itself, or heard within 17 ms and not declared lost. -/
def present (s : State) (k : Nat) : Bool :=
  if k = 0 then false else if k = s.cons.addr then true else heardAny s k 17 && !(peerAt s k).lost

/-- Addresses present. -/
def presentList (s : State) : List Nat := [1, 2, 3, 4].filter (present s)

/-- The module is lead-eligible by the image. -/
def eligible (s : State) (k : Nat) : Bool := s.image.consist.eligible.contains k

/-- The newest instant at which a module was heard on any carrier. -/
def newestHeard (s : State) (k : Nat) : Option Nat :=
  (peerAt s k).heard.foldl (fun m t => match m, t with
    | none, x => x
    | some a, none => some a
    | some a, some b => some (max a b)) none

/-- The ring state (R339): 0 CLOSED, 1 OPEN, 2 SPLIT, 3 ALONE. A present module that is heard on neither ring direction is
unreachable; a link whose block is being reset or out of service is down (Table 11-2). -/
def ringStateOf (s : State) : Nat :=
  let e := (s.cons.links.getD 0 {}).up && !blockDown s 5 0
  let w := (s.cons.links.getD 1 {}).up && !blockDown s 5 1
  let others := (presentList s).filter (fun k => k != s.cons.addr)
  if !e && !w then 3
  else if others.any (fun k => !(heardIn s k 0 17) && !(heardIn s k 1 17)) then 2
  else if e && w && others.all (fun k => heardIn s k 0 17 && heardIn s k 1 17) then 0
  else 1

/-- The ring state judged again; a change is logged and asserts vector 36 (R339). -/
def updateRing (s : State) : State :=
  let r := ringStateOf s
  if r = s.cons.ringState then s
  else assertVec 36 (logJ 11 3 (leBytes 1 s.cons.ringState ++ leBytes 1 r) { s with cons.ringState := r })

/-! ### Junction self-checking (R335) -/

/-- JUNCTION_PAIR_DIFFERENCE (R335, Table 11-2): a ring link in reset or out of service opens the ring. -/
def execJunctionPairDifference (block unit : Nat) (s : State) : Host.Outcome State Fault Refusal :=
  .next (if !junctionUp s || block < 1 || 13 < block then s
  else
    let old := blockEntry s block unit
    let second := match old with
      | none => false
      | some b => b.out || decide (s.mono < b.at_ + 10000)
    let silent := 8 ≤ block || (block == 6 && (second || (s.cons.role == .lead && layoverReady s)))
    let s := { s with jx.diffs := sat 16 (s.jx.diffs + 1), jx.lastBlock := block }
    let code := if silent then 3 else if second then 2 else 1
    let s := assertVec 36 (logJ 11 2 (leBytes 1 block ++ leBytes 1 code) s)
    if silent then fallSilent s
    else
      let s := setBlock { block, unit, at_ := s.mono, resetting := !second, out := second } s
      if block = 5 then updateRing s else s)

/-- JUNCTION_BLOCK_RECOVERED (R335): a block reset once works again within 1 ms. -/
def execJunctionBlockRecovered (block unit : Nat) (s : State) : Host.Outcome State Fault Refusal :=
  .next (match blockEntry s block unit with
  | none => s
  | some b =>
    if b.resetting then
      let s := setBlock { b with resetting := false } s
      if block = 5 && junctionUp s then updateRing s else s
    else s)

/-! ### Readiness (R345) -/

/-- The heartbeat of the Lead as last received. -/
def leadHb (s : State) : Heartbeat := (peerAt s s.cons.lead).hb

/-- The NOT_READY reason of a Layover (R345, Table 11-9), 0 ready. Ages of checkpoints are counted against the Lead's
newest delta. -/
def notReady (s : State) : Nat :=
  if s.cons.role != .layover then 0
  else if imageDigest64 s != (leadHb s).digest then 1
  else if Config.fwRelease != (leadHb s).release then 2
  else if s.cons.full.isNone || (leadHb s).delta > s.cons.fullFrame + 20 then 3
  else if s.cons.deltas.isEmpty || (leadHb s).delta > s.cons.deltaFrame + 3 then 4
  else if s.time.selected != some 3 then 5
  else if !s.cons.bootOk || s.sb.testFail then 6
  else 0

/-- TAKEOVER_READY (R345). -/
def takeoverReady (s : State) : Bool := s.cons.role == .layover && notReady s == 0

/-! ### Heartbeats sent (R346, R347, R349) -/

/-- The ring heartbeat of this module (Table 11-5). -/
def hbOf (s : State) : Heartbeat :=
  { address := s.cons.addr, role := s.cons.role.code, state := s.pow.state.code,
    flags := bitN (takeoverReady s) 0 + bitN s.cons.leadLostAt.isSome 1 + bitN s.cons.alarm 2 + bitN (s.cons.phase != 0) 3 +
      bitN (s.sb.state == .run) 4 + bitN s.cons.captured 5,
    epoch := s.cons.epoch, tick := s.tt.ticks, lanes := laneMask s, ready := notReady s, timeQuality := qualityByte s,
    digest := imageDigest64 s, release := Config.fwRelease, full := s.cons.fullFrame, delta := s.cons.deltaFrame,
    serial := Config.serial }

/-- A heartbeat word (R347). -/
def hbWord (addr tick : Nat) (lead bit3 : Bool) : Nat :=
  let low := (addr - 1) % 4 + bitN lead 2 + bitN bit3 3 + 16 * (tick % 16)
  low + 256 * crc8 low

/-- The word of this module. -/
def ownWord (s : State) : Nat :=
  hbWord s.cons.addr s.tt.ticks (s.cons.role == .lead)
    (match s.cons.role with
    | .layover => takeoverReady s
    | .witness => s.cons.leadLostAt.isSome
    | _ => false)

/-- Heartbeats of a tick (R346, R347, R349): a module with an address sends its own, one without only relays words, Isolated and a
silent module send none; none enters the ring while both its blocks are down (R16). The Lead's is a time message with its transmission
time (Table 11-4). Under EXTERNAL the Lead toggles ARB-OUT. -/
def sendHeartbeats (s : State) : State :=
  let relayed := s.cons.nowWords
  let s := { s with cons.relayWords := relayed, cons.nowWords := [none, none, none, none] }
  if !junctionUp s || s.cons.role == .isolated then
    { s with cons.hbSent := none, cons.sentWords := [none, none, none, none] }
  else if s.cons.addr = 0 then { s with cons.hbSent := none, cons.sentWords := relayed }
  else
    let h := hbOf s
    let s := { s with cons.hbSent := none }
    let s := if ringUp s then sendRing { cls := 0, bytes := 64, cargo := .ring (.heartbeat h) 0xFF (s.cons.role == .lead) } s else s
    { s with
      cons.sentWords := relayed.set (s.cons.addr - 1) (some (ownWord s))
      cons.arbOut := if s.cons.role == .lead && s.image.consist.arbitration = 2 then !s.cons.arbOut else s.cons.arbOut }

/-! ### Roles (R343, R344) -/

/-- A role taken: logged, vector 36; the time source is selected anew, since a Lead does not follow CONSIST (R71). -/
def setRole (r : Role) (s : State) : State :=
  if s.cons.role == r then s
  else roleSource <| assertVec 36 (logJ 11 5 (leBytes 1 s.cons.role.code ++ leBytes 1 r.code ++ leBytes 4 s.cons.epoch) { s with cons.role := r })

/-- The present Lead that this module sees, other than itself. -/
def leadSeen (s : State) : Option Nat := [1, 2, 3, 4].find? (fun k => k != s.cons.addr && present s k && (peerAt s k).isLead)

/-- A present Layover other than this module. -/
def layoverSeen (s : State) : Option Nat :=
  [1, 2, 3, 4].find? (fun k => k != s.cons.addr && present s k && (peerAt s k).hb.role == 2)

/-- The lowest eligible present address after the Lead, counting east (R344). -/
def layoverAfter (s : State) (lead : Nat) : Option Nat :=
  (([1, 2, 3].map (fun i => (lead - 1 + i) % 4 + 1)).filter (fun k => k != lead)).find? (fun k => eligible s k && present s k)

/-- The highest Lead epoch known (R344). -/
def knownEpoch (s : State) : Nat :=
  let hbs := s.cons.peers.map (fun p => if p.ringAt.isSome then p.hb.epoch else 0)
  let cks := s.cons.deltas.map (·.epoch) ++ (s.cons.full.toList ++ (s.cons.mramFull.filterMap id)).map (·.fast.epoch)
  (hbs ++ cks).foldl max s.cons.epoch

/-- The role of a module that sees a Lead (R344): Layover when the rule names it and no other Layover is present, else
Witness. -/
def followLead (k : Nat) (s : State) : State :=
  let e := if (peerAt s k).ringAt.isSome then (peerAt s k).hb.epoch else s.cons.epoch
  let s := { s with cons.lead := k, cons.epoch := e, cons.leadLostAt := none }
  match layoverSeen s with
  | some j => setRole .witness { s with cons.layover := j }
  | none =>
    match layoverAfter s k with
    | some j => setRole (if j = s.cons.addr then .layover else .witness) { s with cons.layover := j }
    | none => setRole .witness { s with cons.layover := 0 }

/-- The Lead chosen where none exists (R344). -/
def chosenLead (s : State) : Option Nat :=
  let c := s.image.consist
  if present s c.preferred && eligible s c.preferred then some c.preferred
  else [1, 2, 3, 4].find? (fun k => eligible s k && present s k)

/-- All declared modules are present, or 10 s have passed (R344). -/
def waitOver (s : State) : Bool :=
  decide (s.image.consist.size ≤ (presentList s).length) || decide (s.cons.waitAt + 10000 ≤ s.mono)

/-- The first roles of a module in Ready without one (R343, R344). Where another module is to be the Lead, its epoch is the one of
its first heartbeat (R350). -/
def firstRole (s : State) : State :=
  if s.image.consist.size = 1 then setRole .isolated s
  else if s.cons.addr = 0 || s.cons.alarm || !(s.cons.rollDone || s.cons.noHome) then s
  else match leadSeen s with
    | some k => followLead k s
    | none =>
      if !waitOver s then s
      else match chosenLead s with
        | none => s
        | some k =>
          if k = s.cons.addr then
            let s := { s with cons.lead := k, cons.epoch := knownEpoch s + 1, cons.layover := (layoverAfter s k).getD 0 }
            setRole .lead s
          else
            let j := (layoverAfter s k).getD 0
            setRole (if j = s.cons.addr then .layover else .witness) { s with cons.lead := k, cons.layover := j, cons.epochOpen := true }

/-- A module in Layover that a STORE has freed of the consist alarm follows the Lead it sees (R342, R344). -/
def rejoin (s : State) : State :=
  match leadSeen s with
  | some k => followLead k s
  | none => s

/-- ROLE_ASSIGNMENT (R343, R344): the first role of a module in Ready with an image, or a Witness that becomes Layover. -/
def execRoleAssignment (s : State) : Host.Outcome State Fault Refusal :=
  .next (if !junctionUp s || !imageActive s then s
  else match s.cons.role with
    | .none =>
      if s.pow.state == .ready then firstRole s
      else if s.pow.state == .layover && !s.cons.alarm then rejoin s
      else s
    | .witness =>
      let rivals := [1, 2, 3, 4].filter (fun k => eligible s k && present s k && (k == s.cons.addr || (peerAt s k).hb.role == 3))
      if (layoverSeen s).isNone && rivals.head? == some s.cons.addr then
        setRole .layover { s with cons.layover := s.cons.addr }
      else s
    | _ => s)

/-! ### Links (R339, R340) -/

/-- RING_LINK_UP (R339): three consecutive valid messages. -/
def execRingLinkUp (east : Bool) (s : State) : Host.Outcome State Fault Refusal :=
  let l := s.cons.links.getD (linkNum east) {}
  .next (if junctionUp s && !l.up && 3 ≤ l.good && !blockDown s 5 (linkNum east) then
    updateRing { s with cons.links := s.cons.links.modify (linkNum east) (fun l => { l with up := true, upAt := some s.mono, crcErr := 0 }) }
  else s)

/-- RING_LINK_DOWN (R339): 1 ms without a valid message or idle word, or 8 CRC failures. -/
def execRingLinkDown (east : Bool) (s : State) : Host.Outcome State Fault Refusal :=
  let l := s.cons.links.getD (linkNum east) {}
  .next (if junctionUp s && l.up && (decide (l.lastAt + 1 ≤ s.mono) || decide (8 ≤ l.crcErr) || blockDown s 5 (linkNum east)) then
    updateRing { s with cons.links := s.cons.links.modify (linkNum east) (fun l => { l with up := false, good := 0, crcErr := 0, upAt := none }) }
  else s)

/-- LINK_DELAY_MEASURE (R340): half of the round trip less the peer's turnaround time. -/
def execLinkDelayMeasure (east : Bool) (roundTripPs turnPs : Int) (s : State) : Host.Outcome State Fault Refusal :=
  .next (if junctionUp s && (s.cons.links.getD (linkNum east) {}).up then
    { s with cons.links := s.cons.links.modify (linkNum east) (fun l => { l with delayPs := (roundTripPs - turnPs) / 2 }) }
  else s)

/-! ### Roll call (R341 to R343) -/

/-- Payload bytes of a roll call message (the manual gives no layout; assumption 111). -/
def rollBytes : RingBody → Nat
  | .rollResult _ _ => 36
  | _ => 8

/-- A roll call message of this module, in the consist control class (R338, R341). -/
def sendRoll (body : RingBody) (dst : Nat) (s : State) : State :=
  sendRing { cls := 0, bytes := rollBytes body, cargo := .ring body dst false } s

/-- A roll call runs: it ends within 200 ms (R341). -/
def rollRuns (s : State) : Bool :=
  match s.cons.rollAt with
  | none => false
  | some t => decide (s.mono < t + 200)

/-- HOME begins a roll call (R341): it takes address 1, but in a CHECK (R360), writes it to its factory record in a STORE, and
sends the call east. -/
def beginRoll (op : Nat) (s : State) : State :=
  let s := if op = 0 then s else { s with cons.addr := 1 }
  let s := if op = 1 then writeFactory (some 1) s else s
  sendRoll (.rollCall op 1 Config.serial true) 0xFF
    { s with
      cons.rollAt := some s.mono, cons.rollOp := op, cons.rollGiven := 1, cons.rollReq := none, cons.rollCount := 0
      cons.rollWest := false
      cons.rollAnswers := [{ assigned := 1, stored := s.cons.stored, serial := Config.serial }] }

/-- ROLL_CALL_START (R341): the HOME module sends a roll call when its links come up after Boot, or on ROLL_CALL. -/
def execRollCallStart (s : State) : Host.Outcome State Fault Refusal :=
  .next (if junctionUp s && s.cons.home && s.cons.links.any (·.up)
      && ((s.cons.rollAt.isNone && !s.cons.rollDone) || s.cons.rollReq.isSome) then beginRoll (s.cons.rollReq.getD 2) s
  else s)

/-- A roll call that has not come back within 100 ms goes west as well, from the declared size downward (R341; the time is a DESIGN
CHOICE, assumption 111). -/
def rollWest (s : State) : State :=
  if s.cons.home && !s.cons.rollAnswers.isEmpty && s.cons.rollCount = 0 && !s.cons.rollWest && heldFor s s.cons.rollAt 100 then
    sendRoll (.rollCall s.cons.rollOp (s.image.consist.size + 1) Config.serial false) 0xFF { s with cons.rollWest := true }
  else s

/-- This module has already been given an address in the roll call that runs, so that a call from the east finds it taken (R341). -/
def rollTaken (s : State) : Bool := rollRuns s && s.cons.rollGiven != 0

/-- The address that a roll call gives a module (R341): the next one eastward, the next lower one westward. -/
def rollAddress (address : Nat) (east : Bool) : Nat := if east then address + 1 else address - 1

/-- A roll call as this module sends it on (R341, R338). -/
def rollOnward (m : RingMsg) (s : State) : RingMsg :=
  match m.body with
  | .rollCall op address serial east =>
    if s.cons.home || (!east && rollTaken s) then m
    else { m with body := .rollCall op (rollAddress address east) serial east }
  | _ => m

/-- A module under the consist alarm has no role (R342): one in Ready or Layover gives its role up. Table 15-5 takes no module in
another state to Ready, and one that drives goes on (R434; assumption 111). -/
def dropRole (s : State) : State :=
  if s.pow.state == .ready || s.pow.state == .layover then setRole .none s else s

/-- A second HOME strap (R341, R342). -/
def secondHome (op : Nat) (s : State) : State :=
  let s := { s with cons.rollHomes := 2, cons.homeConflict := true }
  if op = 0 then s else dropRole { s with cons.alarm := true }

/-- A roll call reaches this module (R341): it takes the address, but in a CHECK, writes it in a STORE (R360), and answers with its
serial number and stored address. -/
def takeRoll (op address : Nat) (east : Bool) (src : Nat) (s : State) : State :=
  if s.cons.home then secondHome op s
  else if !east && rollTaken s then s
  else
    let given := rollAddress address east
    let s := { s with
      cons.rollAt := some s.mono, cons.rollOp := op, cons.rollGiven := given
      cons.addr := if op = 0 then s.cons.addr else given }
    let s := if op = 1 then writeFactory (some given) s else s
    sendRoll (.rollAnswer given s.cons.stored Config.serial) src s

/-- HOME's own roll call has come round: the ring is closed, and the count is the number of modules (R341). -/
def rollBack (address : Nat) (s : State) : State :=
  if s.cons.rollAnswers.isEmpty then s else { s with cons.rollCount := address }

/-- An answer put in its place by address. -/
def insertAnswer (e : RollEntry) (l : List RollEntry) : List RollEntry :=
  l.filter (fun x => decide (x.assigned < e.assigned)) ++ [e] ++ l.filter (fun x => decide (e.assigned < x.assigned))

/-- An answer to the roll call that HOME runs (R341). -/
def takeAnswer (e : RollEntry) (s : State) : State :=
  if s.cons.home && !s.cons.rollAnswers.isEmpty then { s with cons.rollAnswers := insertAnswer e s.cons.rollAnswers } else s

/-- ROLL_CALL result (R360). -/
def rollResult (r : RollOutcome) (size : Nat) (noHome : Bool) : List Byte :=
  leBytes 1 r.found ++
    leBytes 1 (bitN r.ringClosed 0 + bitN (decide (2 ≤ r.homes)) 1 + bitN (decide (size < r.found)) 2 + bitN noHome 3) ++
    zeros 2 ++
    ((List.range 4).map (fun i => match r.entries[i]? with
      | none => zeros 8
      | some e =>
        leBytes 1 e.assigned ++ leBytes 1 e.stored ++ leBytes 1 (if e.stored = e.assigned then 1 else 0) ++ zeros 1 ++
          leBytes 4 e.serial)).flatten

/-- The conditions that a roll call sets (R341). -/
def rollConditions (r : RollOutcome) (s : State) : State :=
  { s with
    cons.found := r.found
    cons.homeConflict := decide (2 ≤ r.homes)
    cons.oversize := decide (s.image.consist.size < r.found)
    cons.incomplete := decide (r.found < s.image.consist.size)
    cons.roll := r }

/-- The address assigned is compared with the stored one (R342): the alarm, once raised, ends with a STORE that finds nothing
wrong. -/
def applyRoll (op : Nat) (s : State) : State :=
  let bad := s.cons.stored != s.cons.rollGiven
  let s := { s with
    cons.mismatch := bad
    cons.noHome := false
    cons.alarm := bad || s.cons.homeConflict || s.cons.oversize || (op != 1 && s.cons.alarm)
    cons.rollDone := true
    cons.waitAt := s.mono }
  if s.cons.alarm then dropRole s else s

/-- The task of a ROLL_CALL ends with the result of its own operation (R360). -/
def answerRoll (op : Nat) (r : RollOutcome) (s : State) : State :=
  match s.cons.rollTask with
  | some (t, store) =>
    if (store && op = 1) || (!store && op = 0) then
      completeSlot t 0 (rollResult r s.image.consist.size s.cons.noHome) { s with cons.rollTask := none }
    else s
  | none => s

/-- The end of a roll call (R341, R342, R360): CHECK changes no role and no address. -/
def endRoll (op : Nat) (r : RollOutcome) (s : State) : State :=
  let s := answerRoll op r (rollConditions r { s with cons.rollAt := none, cons.rollAnswers := [], cons.rollHomes := 1 })
  if op = 0 || s.cons.rollGiven = 0 then s else applyRoll op s

/-- The result as HOME has gathered it (R341). -/
def rollOutcome (s : State) : RollOutcome :=
  { found := if s.cons.rollCount = 0 then s.cons.rollAnswers.length else s.cons.rollCount
    entries := s.cons.rollAnswers, ringClosed := s.cons.rollCount != 0, homes := s.cons.rollHomes }

/-- Every module counted has answered (R341). -/
def rollComplete (s : State) : Bool := s.cons.rollCount != 0 && decide (s.cons.rollCount ≤ s.cons.rollAnswers.length)

/-- ROLL_CALL_END (R341): within 200 ms; HOME broadcasts the result. A module that no result has reached by then ends its own part,
and a ROLL_CALL that it was asked for finds no module (DESIGN CHOICE; assumption 111). -/
def execRollCallEnd (_unit : Unit) (s : State) : Host.Outcome State Fault Refusal :=
  .next (if !junctionUp s then s
  else if !s.cons.rollAnswers.isEmpty && (rollComplete s || heldFor s s.cons.rollAt 200) then
    let r := rollOutcome s
    endRoll s.cons.rollOp r (sendRoll (.rollResult s.cons.rollOp r) 0xFF s)
  else if heldFor s s.cons.rollAt 200 then
    match s.cons.rollTask with
    | some (t, _) =>
      completeSlot t 0 (rollResult {} s.image.consist.size s.cons.noHome) { s with cons.rollTask := none, cons.rollAt := none, cons.rollReq := none }
    | none => { s with cons.rollAt := none }
  else s)

/-- NO_HOME (R343): no roll call within 5 s after a link came up, or no link within 5 s after Boot. -/
def execNoHome (s : State) : Host.Outcome State Fault Refusal :=
  let linkDue := s.cons.links.any (fun l => heldFor s l.upAt 5000)
  let none' := s.cons.links.all (fun l => !l.up) && decide (1 < s.image.consist.size) && decide (s.cons.bootEnd + 5000 ≤ s.mono)
  .next (if junctionUp s && runState s && !s.cons.rollDone && s.cons.rollAt.isNone && !s.cons.noHome && (linkDue || none') then
    updateRing { s with
      cons.addr := s.cons.stored
      cons.noHome := true
      cons.alarm := s.cons.alarm || s.cons.stored == 0
      cons.waitAt := s.mono }
  else s)

/-! ### Heartbeats heard (R347, R350) -/

/-- The Lead is heard again: LEAD_LOST ends, and a Layover gives its request up, with ARB-OUT low (R349). -/
def leadBack (s : State) : State :=
  { s with cons.leadLostAt := none, cons.arbOut := if s.cons.role == .layover then false else s.cons.arbOut }

/-- A heartbeat heard on a carrier: the module is no longer lost, and the carrier's fault ends once every present module
is heard on it. -/
def heard (k c : Nat) (s : State) : State :=
  let s := onPeer k (fun p => { p with heard := p.heard.set c (some s.mono), lost := false }) s
  let s := if k = s.cons.lead && (peerAt s k).isLead then leadBack s else s
  let all := ((presentList s).filter (fun j => j != s.cons.addr)).all (fun j => heardIn s j c 17)
  if s.cons.carrierFault.getD c false && all then { s with cons.carrierFault := s.cons.carrierFault.set c false } else s

/-- A Lead heartbeat of another module against this module's own Lead (R350); `lost`: LEAD_LOST had been declared before it was
heard. The first heartbeat of a Lead whose epoch this module does not know yet tells it (R344). -/
def hearLead (k e : Nat) (lost : Bool) (s : State) : State :=
  let split (s : State) : State :=
    let s' := { s with cons.splitView := true, cons.splitAt := s.mono }
    if s.cons.splitView then s' else logJ 11 7 (leBytes 1 k ++ leBytes 4 e) s'
  match s.cons.role with
  | .lead =>
    let s := if e = s.cons.epoch then s else split s
    if s.cons.epoch < e || (s.cons.epoch = e && k < s.cons.addr) then fallSilent s else s
  | .transferring =>
    if s.cons.epoch < e then { s with cons.lead := k, cons.epoch := e } else s
  | .none => s
  | _ =>
    if s.cons.lead = 0 || (s.cons.epochOpen && k = s.cons.lead) then { s with cons.lead := k, cons.epoch := e, cons.epochOpen := false }
    else if s.cons.epoch < e && (lost || (peerAt s s.cons.lead).hb.role == 5) then
      { s with cons.lead := k, cons.epoch := e, cons.epochOpen := false, cons.leadLostAt := none, cons.arbOut := false, cons.startAt := none }
    else if e != s.cons.epoch then (if present s s.cons.lead || k = s.cons.lead then split s else s)
    else if k = s.cons.lead then leadBack s else s

/-- What a heartbeat tells about a planned transfer (R357): the outgoing Lead follows the Layover's phases and becomes
TRANSFERRING when the Layover has taken the Lead; the new Lead is done when the other has become Layover. -/
def hearTransfer (h : Heartbeat) (s : State) : State :=
  if s.cons.outgoing && h.address = s.cons.layover then
    if h.role = 1 && s.cons.epoch < h.epoch && s.cons.phase != 0 then
      setRole .transferring { s with cons.phase := 3, cons.lead := h.address, cons.epoch := h.epoch }
    else if s.cons.phase = 1 && h.flags.testBit 3 && h.state = 3 then { s with cons.phase := 2 }
    else s
  else if s.cons.role == .lead && s.cons.phase = 3 && h.role = 2 && s.cons.captured then
    logJ 11 8 (leBytes 1 1 ++ leBytes 1 0) { s with cons.phase := 0, cons.captured := false, cons.layover := h.address }
  else s

/-- A ring heartbeat received on a carrier (R346 to R348). -/
def hearHeartbeat (c : Nat) (h : Heartbeat) (s : State) : State :=
  let k := h.address
  if k = 0 || 4 < k || k = s.cons.addr then s
  else
    let lost := s.cons.leadLostAt.isSome
    let s := hearTransfer h s
    let s := onPeer k (fun p => { p with
      hb := h, ringAt := some s.mono, offset := some ((h.tick + 16 - s.tt.ticks % 16) % 16), fromWord := false,
      isLead := h.role == 1, bit3 := if h.role = 3 then h.flags.testBit 1 else h.flags.testBit 0 }) s
    let s := heard k c s
    let s := if h.role = 2 && s.cons.role == .lead then { s with cons.layover := k } else s
    updateRing (if h.role = 1 then hearLead k h.epoch lost s else s)

/-- HEARTBEAT_WORD (R347): a word with a good CRC and an age of 0 to 3 ticks is accepted and relayed in the next tick. -/
def execHeartbeatWord (hbB : Bool) (slot : Nat) (word : Nat) (s : State) : Host.Outcome State Fault Refusal :=
  let k := slot + 1
  let f := word / 16 % 16
  .next (if !junctionUp s || 4 ≤ slot || k = s.cons.addr || word / 256 % 256 != crc8 (word % 256) || word % 4 != slot then s
  else
    let p := peerAt s k
    let own := s.tt.ticks % 16
    let ringFresh := match p.ringAt with
      | none => false
      | some t => decide (s.mono ≤ t + 1000)
    let est := (own + p.offset.getD 0) % 16
    let ahead := (f + 16 - est) % 16
    let (o, w, age) :=
      if ringFresh then (p.offset, p.fromWord, (est + 16 - f) % 16)
      else if p.offset.isNone || !p.fromWord then (some ((f + 16 - own) % 16), true, 0)
      else if 1 ≤ ahead && ahead ≤ 3 then (some ((f + 16 - own) % 16), true, 0)
      else (p.offset, p.fromWord, (est + 16 - f) % 16)
    let s := onPeer k (fun p => { p with offset := o, fromWord := w }) s
    if 3 < age then s
    else
      heard k (if hbB then 3 else 2) (onPeer k (fun p => { p with isLead := word.testBit 2, bit3 := word.testBit 3 })
        { s with cons.nowWords := s.cons.nowWords.set slot (some word) }))

/-! ### Losses and arbitration (R348 to R350) -/

/-- What the loss of the Lead starts (R349, R358): a Layover asks for confirmation, or starts under NONE; an outgoing Lead
takes the Lead back from the new one. -/
def onLeadLost (s : State) : State :=
  let s := { s with cons.leadLostAt := some s.mono, cons.arbAt := s.mono }
  match s.cons.role with
  | .layover =>
    if s.image.consist.arbitration = 0 then
      if s.cons.startAt.isNone && s.pow.state == .layover && imageDigest64 s == (leadHb s).digest then
        { s with cons.startAt := some s.mono, cons.startSec := s.time.sec } else s
    else if s.image.consist.arbitration = 2 then { s with cons.arbOut := true } else s
  | .transferring =>
    setRole .lead { s with cons.lead := s.cons.addr, cons.epoch := s.cons.epoch + 1, cons.phase := 0, cons.outgoing := false,
                           cons.leadLostAt := none }
  | _ => s

/-- LEAD_LOST (R348): the newest valid heartbeat of the Lead, on any carrier, is more than 17 ms old; the same for the
Layover and a Witness. -/
def execLeadLost (addr : Nat) (s : State) : Host.Outcome State Fault Refusal :=
  .next (match newestHeard s addr with
  | none => s
  | some t =>
    if !junctionUp s || addr = s.cons.addr || (peerAt s addr).lost || s.mono ≤ t + 17 then s
    else
      let kind := if addr = s.cons.lead then 1 else if addr = s.cons.layover then 2 else 3
      let s := onPeer addr (fun p => { p with lost := true, isLead := false }) s
      let s := assertVec 36 (logJ 11 4 (leBytes 1 kind ++ leBytes 1 addr ++ leBytes 1 15) s)
      updateRing (if kind = 1 then onLeadLost s else if kind = 2 then { s with cons.layover := 0 } else s))

/-- CARRIER_FAULT (R348): no valid heartbeat of a module on a carrier for 17 ms while another carrier has one. -/
def execCarrierFault (carrier addr : Nat) (s : State) : Host.Outcome State Fault Refusal :=
  .next (if junctionUp s && carrier < 4 && addr != s.cons.addr && !(heardIn s addr carrier 17) && heardAny s addr 17
      && !(s.cons.carrierFault.getD carrier false) then
    assertVec 36 (logJ 11 4 (leBytes 1 4 ++ leBytes 1 addr ++ leBytes 1 (2 ^ carrier))
      { s with cons.carrierFault := s.cons.carrierFault.set carrier true })
  else s)

/-- A confirmation is awaited: a Layover in LEAD_LOST whose image equals the Lead's (R345, R349). -/
def awaiting (s : State) : Bool :=
  s.cons.role == .layover && s.pow.state == .layover && s.cons.leadLostAt.isSome && s.cons.startAt.isNone
    && imageDigest64 s == (leadHb s).digest

/-- ARB_CONFIRMED (R349, Table 11-6): a Witness in LEAD_LOST, or ARB-IN high for 1 ms, gives the start signal S. -/
def execArbConfirmed (s : State) : Host.Outcome State Fault Refusal :=
  let wit := [1, 2, 3, 4].any (fun k => present s k && k != s.cons.addr && k != s.cons.lead && (peerAt s k).bit3)
  let ok := (s.image.consist.arbitration = 1 && wit) || (s.image.consist.arbitration = 2 && s.cons.arbOut)
  .next (if awaiting s && s.mono ≤ s.cons.arbAt + 1000 && ok then
    { s with cons.startAt := some s.mono, cons.startSec := s.time.sec, cons.arbRefused := false
             cons.arbIn := if s.image.consist.arbitration = 2 then true else s.cons.arbIn
             cons.arbInSince := s.mono - 1 }
  else s)

/-- ARB_REFUSED (R349): no confirmation within 1 s; the request is repeated every 1 s. -/
def execArbRefused (s : State) : Host.Outcome State Fault Refusal :=
  .next (if awaiting s && s.image.consist.arbitration != 0 && s.cons.arbAt + 1000 ≤ s.mono then
    { s with cons.arbRefused := true, cons.arbAt := s.mono } else s)

/-- LEAD_YIELD (R349, Table 11-6): a Lead that hears no other module for 100 ms under WITNESS, or whose ARB-IN has been low
for 20 ms meanwhile under EXTERNAL, falls silent. -/
def execLeadYield (s : State) : Host.Outcome State Fault Refusal :=
  let quiet (ms : Nat) := [1, 2, 3, 4].all (fun k => k == s.cons.addr || !(heardAny s k ms))
  .next (if s.cons.role == .lead && ((s.image.consist.arbitration = 1 && quiet 100)
      || (s.image.consist.arbitration = 2 && quiet 20)) then
    fallSilent (if s.image.consist.arbitration = 2 then { s with cons.arbIn := false, cons.arbInSince := s.mono - 20 } else s)
  else s)

/-- SPLIT_VIEW_CLEAR (R350): 60 s after the last such heartbeat. -/
def execSplitViewClear (s : State) : Host.Outcome State Fault Refusal :=
  .next (if s.cons.splitView && s.cons.splitAt + 60000 ≤ s.mono then { s with cons.splitView := false } else s)

/-! ### Opcodes (R360) -/

/-- Bits 20 to 14 of CS_ROLE. -/
def roleFlags (s : State) : Nat :=
  bitN s.cons.mismatch 0 + bitN s.cons.homeConflict 1 + bitN s.cons.noHome 2 + bitN s.cons.incomplete 3 +
    bitN s.cons.oversize 4 + bitN s.cons.splitView 5 + bitN (takeoverReady s) 6

/-- One entry of CONSIST_STATUS. -/
def consistEntry (s : State) (k : Nat) : List Byte :=
  let h := if k = s.cons.addr then hbOf s else (peerAt s k).hb
  let carriers := maskOf ((List.range 4).filter (fun c => heardIn s k c 17))
  let age := if k = s.cons.addr then 0 else match newestHeard s k with
    | none => 0xFFFFFFFF
    | some t => sat 32 (1000 * (s.mono - t))
  leBytes 1 k ++ leBytes 1 (if present s k then 1 else 0) ++ leBytes 1 h.role ++ leBytes 1 h.flags ++ leBytes 1 carriers ++
    leBytes 1 h.lanes ++ zeros 2 ++ leBytes 4 age ++ leBytes 4 h.serial ++ leBytes 8 h.digest ++ leBytes 4 h.full ++
    leBytes 4 h.delta

/-- CONSIST_STATUS result. -/
def consistResult (s : State) : List Byte :=
  leBytes 1 s.cons.addr ++ leBytes 1 s.cons.role.code ++ leBytes 1 s.cons.lead ++ leBytes 1 s.cons.layover ++
    leBytes 4 s.cons.epoch ++ leBytes 1 s.image.consist.size ++ leBytes 1 s.cons.found ++ leBytes 1 s.cons.ringState ++
    leBytes 1 s.image.consist.arbitration ++ leBytes 2 (roleFlags s) ++ leBytes 1 s.cons.phase ++ zeros 1 ++
    leBytes 4 s.cons.takeMs ++ leBytes 8 s.cons.startSec ++ leBytes 4 (frame32 s) ++
    ([1, 2, 3, 4].map (consistEntry s)).flatten

/-- CONSIST_STATUS (0x0B01). -/
def consistStatusSpec : OpSpec :=
  { without := fun _ => true, run := fun _ _ s => { status := 0, result := consistResult s, state := s } }

/-- CONSIST_STATUS (R360). -/
def execConsistStatus (p : Packet) (s : State) : Host.Outcome State Fault Refusal :=
  .next (processPacket (some consistStatusSpec) { p with opcode := 0x0B01 } s)

/-- ROLL_CALL (0x0B02). -/
def rollCallSpec : OpSpec :=
  { auth := fun _ => 2
    without := fun _ => true
    len := fun _ p => p.payload.length == 4
    run := fun k p s =>
      let op := fieldByte p.payload 0
      let anyActive := s.pow.state == .active || [1, 2, 3, 4].any (fun j => j != s.cons.addr && present s j && (peerAt s j).hb.state == 6)
      if 1 < op then fail 0x0013 s
      else if op = 1 && anyActive then fail 0x0021 s
      else if s.cons.rollTask.isSome then fail 0x0022 s
      else
        let s := { s with cons.rollTask := some (taskOf k p, op == 1), cons.rollAt := some s.mono }
        { status := 2, state := if s.cons.home then { s with cons.rollReq := some op } else sendRoll (.rollAsk op) 0xFF s } }

/-- ROLL_CALL (R360). -/
def execRollCall (p : Packet) (s : State) : Host.Outcome State Fault Refusal :=
  .next (processPacket (some rollCallSpec) { p with opcode := 0x0B02 } s)

/-- A planned transfer that has not reached T ends at the outgoing Lead (R358): logged. -/
def abortTransfer (s : State) : State :=
  if s.cons.outgoing && (s.cons.phase = 1 || s.cons.phase = 2) then
    assertVec 36 (logJ 11 8 (leBytes 1 2 ++ leBytes 1 s.cons.phase) { s with cons.phase := 0, cons.outgoing := false })
  else s

/-- Both signal boxes are in RUN, as far as this Lead knows (R358, R360). -/
def bothRun (s : State) : Bool := s.sb.state == .run && (peerAt s s.cons.layover).hb.flags.testBit 4

/-- TRANSFER_LEAD (0x0B03). -/
def transferLeadSpec : OpSpec :=
  { auth := fun _ => 1
    without := fun _ => false
    role := fun s _ => s.cons.role == .lead
    len := fun _ p => p.payload.length == 4
    run := fun _ p s =>
      let target := fieldByte p.payload 0
      let op := fieldByte p.payload 1
      if 1 < op then fail 0x0013 s
      else if 4 < target then fail 0x0014 s
      else
        let t := if target = 0 then s.cons.layover else target
        let res (ph f : Nat) : List Byte := leBytes 1 t ++ leBytes 1 ph ++ zeros 2 ++ leBytes 4 f
        if op = 1 then { status := 0, result := res 0 0, state := abortTransfer s }
        else if s.cons.phase != 0 || s.host.deferred.contains .transfer then fail 0x0022 s
        else if t != s.cons.layover || !layoverReady s || !bothRun s || s.pow.state != .active then fail 0x0021 s
        else { status := 1, result := res 1 (effectFrame s), state := defer .transfer s } }

/-- TRANSFER_LEAD (R357, R360). -/
def execTransferLead (p : Packet) (s : State) : Host.Outcome State Fault Refusal :=
  .next (processPacket (some transferLeadSpec) { p with opcode := 0x0B03 } s)

/-- PREPARE begins at the boundary at which the command takes effect (R357). -/
def applyTransfer (s : State) : State :=
  if s.cons.role == .lead && s.cons.phase = 0 && layoverReady s && bothRun s && s.pow.state == .active then
    { s with cons.phase := 1, cons.outgoing := true, cons.prepFrame := frame32 s, cons.captured := false }
  else s

end Sys2Proof.Machine
end

