-- ==== Sys2Proof/Machine/Recorder.lean ====
section
/-! DEFINITION. The event recorder (chapter 13): the fill in the MRAM, START, CLEARED and FULL, the recorder's writes, the
BAR0 window, the logging activity, and the recorder opcodes. Staging itself stands in Ops.lean, because every chapter
stages records. -/

namespace Sys2Proof.Machine

/-! ### The fill (R403 to R406) -/

/-- MRAM offset of a slot of the region (R404). -/
def slotAddr (i : Nat) : Nat := 64 * i

/-- The sequence field of a slot. -/
def slotSeq (m : List Host.Cell) (i : Nat) : Nat := leNat (memReadAll m (slotAddr i) 4)

/-- Slot 0 holds a START or CLEARED record of the recorder (R404, R405). -/
def fillValid (m : List Host.Cell) : Bool :=
  let code := leNat (memReadAll m 26 2)
  memRead m 25 == 0 && (code == 1 || code == 2)

/-- A slot belongs to the fill (R404). -/
def belongs (m : List Host.Cell) (i : Nat) : Bool := slotSeq m i == (slotSeq m 0 + i) % 2 ^ 32

/-- Binary search for the first slot from `lo` to `hi` that does not belong (R404). -/
def fillSearch (m : List Host.Cell) : Nat → Nat → Nat → Nat
  | 0, lo, _ => lo
  | n + 1, lo, hi =>
    if hi ≤ lo then lo
    else
      let mid := (lo + hi) / 2
      if belongs m mid then fillSearch m n (mid + 1) hi else fillSearch m n lo mid

/-- Records in the fill, as the scan at Boot finds them. -/
def fillCount (m : List Host.Cell) : Nat := if fillValid m then fillSearch m 20 0 recSlots else 0

/-- A sequence number lies before another (R401): they are compared as numbers no more than 2^31 apart. -/
def seqBefore (a b : Nat) : Bool := decide (2 ^ 31 ≤ (a + 2 ^ 32 - b % 2 ^ 32) % 2 ^ 32)

/-- A record's bytes put into its slot; REC_HELD and REC_MRAM_LAST follow (R403). -/
def putRecord (q : Nat) (r : Rec) (s : State) : State :=
  let i := (q + 2 ^ 32 - s.log.first) % 2 ^ 32
  { s with mram := memWriteAll s.mram (slotAddr i) (recBytes q r), log.held := i + 1, log.mramLast := q }

/-- NEAR_FULL staged at seven eighths of the region (R406). -/
def nearFullAt (s : State) : State :=
  if !s.log.nearFull && 458752 ≤ s.log.held then
    assertVecFrame 35 1 (stageRec (ownRec s 3 (leBytes 4 s.log.held)) { s with log.nearFull := true })
  else s

/-- The next staged record may be written: the fill goes on, or the record comes before FULL (R406). -/
def nextWritable (s : State) : Option (Nat × Rec) :=
  match s.log.staged with
  | [] => none
  | (q, r) :: _ =>
    if !s.log.full then some (q, r)
    else match s.log.fullRec with
      | none => none
      | some (f, _) => if seqBefore q f then some (q, r) else none

/-- One staged record written, outside or inside a budget. -/
def writeOne (s : State) : Option State :=
  match nextWritable s with
  | none =>
    match s.log.fullRec with
    | none => none
    | some (q, r) => some (putRecord q r { s with log.fullRec := none })
  | some (q, r) => some (nearFullAt (putRecord q r { s with log.staged := s.log.staged.drop 1 }))

/-- Records, or the CLEARED of a clear, are still to be written (R56, R411). -/
def recordsWait (s : State) : Bool := (nextWritable s).isSome || s.log.fullRec.isSome || s.log.clear.isSome

/-- Up to `n` records written. -/
def writeMany : Nat → State → State
  | 0, s => s
  | n + 1, s => match writeOne s with
    | none => s
    | some s' => writeMany n s'

/-- The second failed readback of a record (R403): FULL with REC_FAULT takes its slot and its sequence, unless that write
fails too; the record counts as lost, and so does every record with a later sequence, for no further record is written. -/
def faultFill (third : Bool) (s : State) : State :=
  match s.log.staged with
  | [] => s
  | (q, _) :: rest =>
    let s := { s with log.staged := rest, log.full := true, log.fault := true, log.fullRec := none
                      log.lost := sat 32 (s.log.lost + 1 + rest.length)
                      log.lostSeqs := q :: rest.map (·.1) ++ s.log.lostSeqs }
    let s := if third then s else putRecord q (ownRec s 4 (leBytes 4 ((q + 1) % 2 ^ 32) ++ [1])) s
    assertVecFrame 35 1 s

/-- CLEARED written into slot 0 with the next sequence (R411): records that did not fit are discarded and counted, the
counts restart, and the command completes. -/
def writeCleared (c : Clear) (s : State) : State :=
  let q := s.log.seqNext
  let lost := s.log.staged.length
  let name := match s.host.sessions.getD c.task.session none with
    | none => zeros 16
    | some x => fitBytes 16 x.name
  let r := ownRec s 2 (leBytes 4 s.log.first ++ leBytes 4 ((q + 2 ^ 32 - 1) % 2 ^ 32) ++ leBytes 4 lost ++
    leBytes 1 c.task.session ++ name)
  let res := leBytes 4 q ++ leBytes 4 s.log.first ++ leBytes 4 ((q + 2 ^ 32 - 1) % 2 ^ 32) ++ leBytes 4 lost
  let s := { s with
    log.staged := [], log.seqNext := (q + 1) % 2 ^ 32, log.first := q, log.nearFull := false, log.full := false
    log.fault := false, log.fullRec := none, log.clear := none, log.lost := 0, log.drop := 0, log.lostSeqs := []
    log.dropPer := List.replicate 15 0
    log.clearSec := s.time.sec, log.clearSeq := q }
  completeSlot c.task 0 res (assertVecFrame 35 1 (putRecord q r s))

/-- RECORDER_WRITE (R403, R406, R411): staged records in sequence order within the class budget. `fails` counts the failed
readbacks of the first record. -/
def execRecorderWrite (fails : Nat) (s : State) : Host.Outcome State Fault Refusal :=
  let n := s.tt.mramLeft.getD 1 0 / 64
  .next (if !junctionUp s || !s.log.started then s
  else if n = 0 then { s with tt.recWait := recordsWait s }
  else if 2 ≤ fails && !s.log.staged.isEmpty && !s.log.full then
    faultFill (3 ≤ fails) { s with tt.mramLeft := s.tt.mramLeft.modify 1 (· - 64 * min n (fails + 1)) }
  else
    let before := s.log.staged.length + (if s.log.fullRec.isSome then 1 else 0)
    let s := writeMany (n - fails) s
    let after := s.log.staged.length + (if s.log.fullRec.isSome then 1 else 0)
    let s := stageLost { s with tt.mramLeft := s.tt.mramLeft.modify 1 (· - 64 * (before - after + fails)) }
    let s := match s.log.clear with
      | none => s
      | some c =>
        if (nextWritable s).isNone && s.log.fullRec.isNone && 64 ≤ s.tt.mramLeft.getD 1 0 then
          { writeCleared c s with tt.mramLeft := s.tt.mramLeft.modify 1 (· - 64) }
        else s
    { s with tt.recWait := recordsWait s })

/-- Every staged record written outside the class budget, at power fail (R407). -/
def flushAll (s : State) : State := writeMany 258 s

/-! ### Boot (R404, R405) -/

/-- Records written at Boot are charged to the event recorder class of the frame (R41). A Boot lasts many frames: what exceeds this
frame's budget belongs to the next ones, whose budgets nothing else of the class uses before Boot ends (assumption 107). -/
def chargeBoot (n : Nat) (s : State) : State := { s with tt.mramLeft := s.tt.mramLeft.modify 1 (· - 64 * n) }

/-- START sequenced and written, then the records that waited, in the order in which they were staged (R404). -/
def writeStart (recovered kind : Nat) (s : State) : State :=
  let q := s.log.seqNext
  let r := ownRec s 1 (leBytes 4 s.log.first ++ leBytes 4 s.log.held ++ leBytes 2 recovered ++ leBytes 1 kind)
  let early := s.log.early
  let s := { s with log.seqNext := (q + 1) % 2 ^ 32, log.started := true, log.early := [] }
  let s := if s.log.full then { s with log.lost := sat 32 (s.log.lost + 1), log.lostSeqs := q :: s.log.lostSeqs }
    else composeFull (putRecord q r (chargeBoot 1 s))
  early.foldl (fun s r => if stageCap ≤ s.log.staged.length && !s.log.full then { s with log := refuseRec r.source 0 s.log }
    else sequenceRec r s) s

/-- The recorder at a Boot (R404, R405): it finds the end of the fill, or begins the first one, writes what staging still
holds, and then START. -/
def bootRecorder (kind : Nat) (s : State) : State :=
  if fillValid s.mram then
    let n := fillCount s.mram
    let first := slotSeq s.mram 0
    let last := (first + n - 1) % 2 ^ 32
    let ended := leNat (memReadAll s.mram (slotAddr (n - 1) + 26) 2) == 4 && memRead s.mram (slotAddr (n - 1) + 25) == 0 && 1 < n
    let k := s.log.staged.length
    let s := { s with
      log.first := first, log.held := n, log.mramLast := last
      log.full := ended || decide (recSlots ≤ n) || s.log.fullRec.isSome
      log.fault := ended && memRead s.mram (slotAddr (n - 1) + 33) == 1
      log.nearFull := decide (458752 ≤ n)
      log.seqNext :=
        let q := match s.log.staged.getLast? with
          | some (q, _) => q
          | none => last
        match s.log.fullRec with
        | some (f, _) => ((if seqBefore q f then f else q) + 1) % 2 ^ 32
        | none => (q + 1) % 2 ^ 32 }
    writeStart k kind (writeMany 257 (chargeBoot k s))
  else
    let q := match s.pow.facRecLast with
      | none => 0
      | some x => (x + 1) % 2 ^ 32
    writeStart 0 0 { s with log.first := q, log.seqNext := q, log.held := 0, log.staged := [], log.full := false,
                            log.fault := false, log.nearFull := false }

/-! ### The window (R408, R409) -/

/-- Bytes and kind of a record by sequence: 0 MRAM, 1 STAGED, 2 GONE, 3 NOT_YET (R409). -/
def findRec (s : State) (q : Nat) : Nat × List Byte :=
  match s.log.staged.find? (fun x => x.1 == q) with
  | some (_, r) => (1, recBytes q r)
  | none =>
    if seqBefore q s.log.first then (2, zeros 64)
    else if seqBefore (recLast s) q || !s.log.started then (3, zeros 64)
    else if s.log.lostSeqs.contains q && !(s.log.fault && s.log.mramLast == q) then (2, zeros 64)
    else if s.log.held != 0 && !seqBefore s.log.mramLast q then
      (0, memReadAll s.mram (slotAddr ((q + 2 ^ 32 - s.log.first) % 2 ^ 32)) 64)
    else match s.log.fullRec with
      | some (f, r) => if f = q then (1, recBytes q r) else (2, zeros 64)
      | none => (2, zeros 64)

/-- A load begins (R409): ignored while one is running. -/
def beginLoad (cursor : Nat → Nat) (s : State) : State :=
  if !junctionUp s || s.log.loading then s
  else { s with log.loading := true, log.cursor := cursor s.log.cursor % 2 ^ 32 }

/-- REC_LOAD (R409): the record at REC_CURSOR. -/
def execRecLoad (s : State) : Host.Outcome State Fault Refusal := .next (beginLoad (fun c => c) s)

/-- REC_NEXT (R409): 1 added to REC_CURSOR, then a load. -/
def execRecNext (s : State) : Host.Outcome State Fault Refusal := .next (beginLoad (fun c => c + 1) s)

/-- REC_PREV (R409): 1 subtracted from REC_CURSOR, then a load. -/
def execRecPrev (s : State) : Host.Outcome State Fault Refusal := .next (beginLoad (fun c => c + (2 ^ 32 - 1)) s)

/-- REC_LOAD_COMPLETE (R409). -/
def execRecLoadComplete (s : State) : Host.Outcome State Fault Refusal :=
  .next (if s.log.loading then
    let (k, b) := findRec s s.log.cursor
    { s with log.loading := false, log.result := k, log.window := b, log.loads := (s.log.loads + 1) % 2 ^ 16 }
  else s)

/-- REC_STATE (Table 13-4). -/
def recState (s : State) : Nat :=
  bitN s.log.nearFull 0 + bitN s.log.full 1 + bitN s.log.fault 2 + bitN s.log.clear.isSome 3 +
    65536 * min 256 s.log.staged.length

/-- The registers 0x100C to 0x1024 as they stand. -/
def recRegs (s : State) : List Nat :=
  [s.log.first, recLast s, s.log.mramLast, recState s, s.log.lost, s.log.drop, s.log.held]

/-- The registers brought up to date, at most once per tick (R408). -/
def updateRecRegs (s : State) : State :=
  let r := recRegs s
  if r == s.log.regs || !s.log.started then s
  else { s with log.regs := r, log.updSeq := (s.log.updSeq + 1) % 2 ^ 32 }

/-! ### The logging activity (R400, R52) -/

/-- The agreed number of lane records staged, oldest first. -/
def stagePending (n : Nat) (s : State) : State :=
  let now := s.log.lanePend.take n
  now.foldl (fun s r => stageRec { r with lanes := r.lanes } s) { s with log.lanePend := s.log.lanePend.drop n }

/-- LOGGING (R52, R400): activity 11. -/
def execLogging (rep : Lane3 ItemReport) (s : State) : Host.Outcome State Fault Refusal :=
  .next (if mayRun 11 s then endItems 11 rep (stagePending (agreedItems rep s) s) else s)

/-! ### Opcodes (R410 to R413) -/

/-- Records examined for REC_READ_BLOCK: at most `fuel` sequences from `q` on, until `want` are found or REC_LAST is
passed. Answers the records, the sequence after the last one examined, and whether one came from staging. -/
def examine (s : State) (mask : Nat) : Nat → Nat → Nat → List (List Byte) → Bool → List (List Byte) × Nat × Bool
  | 0, q, _, acc, st => (acc, q, st)
  | fuel + 1, q, want, acc, st =>
    if want = 0 || seqBefore (recLast s) q then (acc, q, st)
    else
      let (k, b) := findRec s q
      let hit := k < 2 && (mask = 0 || mask.testBit (b.getD 25 0).toNat)
      if hit then examine s mask fuel ((q + 1) % 2 ^ 32) (want - 1) (acc ++ [b]) (st || k == 1)
      else examine s mask fuel ((q + 1) % 2 ^ 32) want acc st

/-- REC_READ_BLOCK (0x0C01). -/
def recReadBlockSpec : OpSpec :=
  { without := fun _ => true
    len := fun _ p => p.payload.length == 12
    run := fun _ p s =>
      let q0 := fieldNat p.payload 0 4
      let cnt := fieldByte p.payload 4
      let mask := fieldNat p.payload 8 4
      if cnt < 1 || 63 < cnt then fail 0x0014 s
      else
        let early := seqBefore q0 s.log.first
        let (rs, next, st) := examine s mask 1024 (if early then s.log.first else q0) cnt [] false
        { status := 0
          result := leBytes 4 s.log.first ++ leBytes 4 next ++ leBytes 4 (recLast s) ++ leBytes 1 rs.length ++
            leBytes 1 (bitN early 0 + bitN (seqBefore (recLast s) next) 1 + bitN st 2) ++ zeros 2 ++ rs.flatten
          state := s } }

/-- REC_READ_BLOCK (R410). -/
def execRecReadBlock (p : Packet) (s : State) : Host.Outcome State Fault Refusal :=
  .next (processPacket (some recReadBlockSpec) { p with opcode := 0x0C01 } s)

/-- REC_INFO result (Table 13-6). -/
def recInfoResult (s : State) : List Byte :=
  leBytes 4 s.log.first ++ leBytes 4 (recLast s) ++ leBytes 4 s.log.mramLast ++ leBytes 4 s.log.held ++
    leBytes 2 s.log.staged.length ++ leBytes 1 (recState s % 16) ++ zeros 1 ++ leBytes 4 s.log.lost ++ leBytes 4 s.log.drop ++
    leBytes 4 s.log.eccLost ++ leBytes 8 s.log.clearSec ++ leBytes 4 s.log.clearSeq ++ leBytes 4 s.log.sinceBoot ++
    ((List.range 15).map (fun i => leBytes 4 (s.log.perSource.getD i 0))).flatten

/-- REC_INFO (0x0C02). -/
def recInfoSpec : OpSpec :=
  { without := fun _ => true, run := fun _ _ s => { status := 0, result := recInfoResult s, state := s } }

/-- REC_INFO (R413). -/
def execRecInfo (p : Packet) (s : State) : Host.Outcome State Fault Refusal :=
  .next (processPacket (some recInfoSpec) { p with opcode := 0x0C02 } s)

/-- REC_CLEAR (0x0C03). -/
def recClearSpec : OpSpec :=
  { auth := fun _ => 2
    without := fun _ => true
    len := fun _ p => p.payload.length == 4
    run := fun k p s =>
      if seqBefore (fieldNat p.payload 0 4) (recLast s) then fail 0x0014 s
      else if !(s.pow.state == .ready || s.pow.state == .commissioning || s.pow.state == .layover) then fail 0x0021 s
      else if s.log.clear.isSome then fail 0x0022 s
      else { status := 2, state := { s with log.clear := some { task := taskOf k p, first := s.log.first, last := recLast s } } } }

/-- REC_CLEAR (R411). -/
def execRecClear (p : Packet) (s : State) : Host.Outcome State Fault Refusal :=
  .next (processPacket (some recClearSpec) { p with opcode := 0x0C03 } s)

/-- REC_MARK (0x0C04). -/
def recMarkSpec : OpSpec :=
  { auth := fun _ => 1
    without := fun _ => true
    len := fun _ p => p.payload.length == 36
    run := fun k p s =>
      let marks := match s.host.sessions.getD k none with
        | none => []
        | some x => x.marks.filter (fun f => decide (s.tt.frame < f + 100))
      if 4 ≤ marks.length then fail 0x0022 s
      else if stageCap ≤ s.log.staged.length + s.log.early.length && !s.log.full then fail 0x0022 s
      else
        let res := leBytes 4 s.log.seqNext ++ leBytes 8 s.time.sec ++ leBytes 4 s.time.ns
        let s := logJ 14 1 (leBytes 1 k ++ leBytes 2 (fieldNat p.payload 0 2) ++ (p.payload.drop 4).take 32) s
        { status := 0, result := res, state := onSession k (fun x => { x with marks := s.tt.frame :: marks }) s } }

/-- REC_MARK (R412). -/
def execRecMark (p : Packet) (s : State) : Host.Outcome State Fault Refusal :=
  .next (processPacket (some recMarkSpec) { p with opcode := 0x0C04 } s)

end Sys2Proof.Machine
end

