-- ==== Sys2Proof/Machine/Image.lean ====
section
/-! DEFINITION. Vessel images (chapter 12, Vessel image load and signature): the header in the MRAM, trust, the checks of
IMAGE_COMMIT, activation and reload, and how the settings of an image come into force. The image opcodes stand in
Host.lean. -/

namespace Sys2Proof.Machine

/-! ### Header (Table 12-13) and trust (R389) -/

/-- `n` bytes at offset `o` of image slot `k`. -/
def imgBytes (s : State) (k o n : Nat) : List Byte := memReadAll s.mram (imgBase k + o) n

/-- A header field as a number. -/
def imgField (s : State) (k o n : Nat) : Nat := leNat (imgBytes s k o n)

/-- The length field of the header. -/
def imgLen (s : State) (k : Nat) : Nat := imgField s k 8 4

/-- The settings that the body of slot `k` spells (assumption 6). -/
def imgBody (s : State) (k : Nat) : Image :=
  let body := imgBytes s k 512 (imgLen s k - 512)
  let img := Config.imageBody body
  let sec := Config.limitsSection body
  { img with sb := { img.sb with bytes := sec, crc := crc32c sec } }

/-- The header's magic, format and length (R387). -/
def headerOk (s : State) (k len : Nat) : Bool :=
  imgField s k 0 4 == 0x49565A45 && imgField s k 4 2 == 1 && imgField s k 6 2 == 512 && imgLen s k == len &&
    decide (4096 ≤ len) && decide (len ≤ 8388608)

/-- SHA-256 of the body equals the header digest. -/
def digestOk (s : State) (k : Nat) : Bool :=
  Config.sha256 (imgBytes s k 512 (imgLen s k - 512)) == imgBytes s k 64 32

/-- The key's validity period is checked: module time is not INVALID (R389). -/
def keyChecked (s : State) : Bool := s.time.state != 0

/-- An image is trusted (R389). -/
def trusted (s : State) (k : Nat) : Bool :=
  Config.ecdsaP256 Config.glengarumKey (imgBytes s k 96 88) (imgBytes s k 184 64) &&
    Config.ecdsaP256 (imgBytes s k 120 64) (imgBytes s k 0 248) (imgBytes s k 248 64) &&
    (!keyChecked s || (decide (imgField s k 104 8 ≤ s.time.sec) && decide (s.time.sec ≤ imgField s k 112 8)))

/-- min_release does not lie above the running firmware release. -/
def releaseOk (s : State) (k : Nat) : Bool := decide (imgField s k 12 4 ≤ Config.fwRelease)

/-! ### Content structure (Table 12-14, check 5) -/

/-- A value lies in a range. -/
def within (lo hi x : Qty) : Bool := decide (lo ≤ x) && decide (x ≤ hi)

/-- An input binding in its ranges (R129, R133, R135): latencies of 0 to 500 ms, a field map of at most 16 fields. -/
def bindingOk (b : Binding) : Bool :=
  within 0 500000000 b.latencyNs && within 0 500000000 b.lambdaMinNs && decide (b.map.length ≤ 16)

/-- A reference in its ranges (R123, R138, R145, R146, R148, R150, R154, R155, R168, Table 6-1); the internal GNSS reference takes
its input from the receiver. -/
def refOk (c : RefCfg) : Bool :=
  decide (c.kind ≤ 4) && within 10000000 10000000000 c.periodNs && (c.kind == 0 || !c.bindings.isEmpty) && c.bindings.all bindingOk &&
    within 100000000 10000000000 c.maxAgeNs && decide (c.catalogue.length ≤ 32) && within (1 / 100) (1 / 2) c.sigmaConv &&
    within 0 2 c.refineLimit && within 6 30 c.assocGate && within (1 / 10) 2 c.anchorDist && within 2 100 c.deleteCount &&
    within 256 4095 c.cap &&
    (match c.tableKernel with
     | some (l, scale, pitch) => l.length == 1024 && l.all (fun x => decide (x ≤ 255)) && within 1 16 scale && within 1 8 pitch
     | none => true)

/-- A sensor in its ranges (R123, R138). -/
def senOk (c : SenCfg) : Bool :=
  decide (c.kind ≤ 2) && within 10000000 10000000000 c.periodNs && !c.bindings.isEmpty && c.bindings.all bindingOk &&
    within 100000000 10000000000 c.maxAgeNs

/-- References and sensors (R123, R127, R139, R148). -/
def refsOk (g : ImageRef) : Bool :=
  decide (g.refs.length ≤ 16) && decide (g.sensors.length ≤ 24) && (g.refs.filterMap id).all refOk && (g.sensors.filterMap id).all senOk &&
    decide (((g.refs.filterMap id).map (fun c => c.catalogue.length)).foldl (· + ·) 0 ≤ 96) && within 0 100000000 g.voteDelayNs &&
    g.ports.all (fun p => decide (p.talkers.length ≤ 4) && decide (p.formatters.length ≤ 16))

/-- Settings of a PPS pin in their ranges (Table 3-12). -/
def ppsCfgOk (c : PpsCfg) : Bool :=
  decide (c.polarity ≤ 1) && within 1000 500000000 c.width && within (-1000) 1000 c.offset &&
    (decide (c.labelPort ≤ 23) || c.labelPort == 255)

/-- Settings of a PTP port in their ranges (Table 3-11). -/
def ptpCfgOk (c : PtpPort) : Bool :=
  decide (c.transport ≤ 1) && decide (c.delay ≤ 1) && decide (c.oneStep ≤ 1) && within (-4) 1 c.logSync && within (-3) 3 c.logAnnounce &&
    within (-4) 5 c.logDelay && within 2 10 c.timeout && decide (c.ingress ≤ 2000) && decide (c.egress ≤ 2000)

/-- Time settings (R69, R71, R75, R76, Tables 3-11 and 3-12). -/
def timeOk (t : ImageTime) : Bool :=
  decide (t.leap.length ≤ 64) && orderOk t.order && within 10 1000 t.tau && ppsCfgOk t.ppsA && ppsCfgOk t.ppsB && ppsCfgOk t.ppsIn &&
    decide (t.clock.clockType ≤ 3) && decide (t.clock.domain ≤ 127) && decide (t.ports.length ≤ 12) && t.ports.all ptpCfgOk

/-- GNSS settings (R99, R100, R103, R107). -/
def gnssOk (g : ImageGnss) : Bool :=
  decide (g.mode ≤ 3) && decide (g.mask ≤ 30) && [1, 2, 5, 10, 20].contains g.rate && within (5 / 1000) (1 / 10) g.baseTol

/-- Fusion, observer and setpoint settings (R169, R172, R173, R182, R191, Table 6-8, move limit). -/
def fusionOk (f : ImageFusion) : Bool :=
  within 10 80 f.exclCells && within 32 1024 f.supportThr && within 0 16 f.ringTerms && within 6 30 f.gObs && within 10000 600000 f.conflictMs &&
    within 4 20 f.waveTw && within (5 / 100) (3 / 10) f.waveDamping && within 100 2000 f.envTau && within 1 4 f.redundancy &&
    within 1000 60000 f.drLimitMs && within (1 / 2) 20 f.lostLimit && within (1 / 10) 2 f.vMax && within (1 / 100) (2 / 10) f.aMax &&
    within (1 / 10) 5 f.rMax && within 1 500 f.moveLimit

/-- The radii form a convex polygon around the origin (R232): vertices at equal angles, each on or outside the line
through its neighbours. -/
def polygonOk (c : ThrCfg) : Bool :=
  !c.azimuth ||
    (let k := c.radii.length
     let d := Config.cosDeg (360 / (k : Qty))
     let r := fun i => c.radii.getD (i % k) 0
     decide (3 ≤ k) && (List.range k).all (fun i =>
       decide (0 < r i) && decide (2 * d * r i * r (i + 2) ≤ r (i + 1) * (r i + r (i + 2)))))

/-- A thruster record in its ranges (Table 8-1, R232). -/
def thrOk (c : ThrCfg) : Bool :=
  polygonOk c && (!c.azimuth || ([6, 8, 12, 16].contains c.radii.length && c.radii.all (fun r => decide (r ≤ c.tMax)))) &&
    within 1 2 c.gamma && within 1 2 c.beta && within 1 4 c.switchboard && within (1 / 10) 10 c.weight && decide (c.sectors.length ≤ 4) &&
    c.sectors.all (fun x => within 1 90 x.half && decide (x.group ≤ 8)) && within (2 / 10) 1 c.kDeg &&
    (c.azimuth || (decide (0 ≤ c.alpha) && decide (c.alpha < 360)))

/-- Allocation settings (R229, R230, R235, R238, R241, R243, R253, R257, Table 8-3). -/
def allocOk (a : ImageAlloc) : Bool :=
  decide (numVars a ≤ 80) && decide (numRows a ≤ 200) && (a.thrusters.filterMap id).all thrOk && within 8 256 a.iterations &&
    within (1 / 1000) 10 a.rho && within (1 / 1000000000) (1 / 1000) a.sigma && within 1 (18 / 10) a.relax && within (1 / 1000) (5 / 100) a.tol &&
    decide (a.policy ≤ 1) && within 1 60 a.tauD && within (1 / 100) 1 a.horizon && within (2 / 100) (1 / 2) a.fTan && within 0 (5 / 100) a.lowHold &&
    (a.escapeMs == 0 || within 1000 60000 a.escapeMs) && decide (a.ties.length ≤ 3) && decide (a.bodies.length ≤ 2) &&
    a.bodies.all (fun b => decide (b.joints.length ≤ 6) && within (1 / 10) 5 b.vTol) &&
    within 0 10 a.kc && within 10 1000000 a.ks && within 10 200 a.lRef

/-- Channels: values in the ranges of Table 9-12; at most 15 polling addresses, none twice (R291); an output characteristic is not
SQRT, and an output TABLE rises strictly, and the cut-off (R278); capture limit and handover rate (R277); depth and the time constant
of the blocker (R292, R295). -/
def chansOk (l : List ChanCfg) : Bool :=
  l.all (fun c => !(cfgRangeBad c c.mdAddr.length) && decide (c.mdAddr.length ≤ 15) && decide (c.mdAddr.eraseDups.length = c.mdAddr.length) &&
    within (1 / 10) 1000 c.tauDc && decide (c.depth ≤ 8) && within 100 5000 c.captureMs && within 1 100 c.handoverRate &&
    decide (c.charac.kind ≤ 2) && within 0 (rnd32 (1 / 10)) c.charac.cutoff && (!isOut c || outChar c.charac))

/-- An armed sector or an enabled yaw function needs LINEAR thrust channels (R302). -/
def limitsContentOk (img : Image) : Bool :=
  !(img.sb.sectors.any (·.armed) || decide (img.sb.rLim ≠ 0)) ||
    img.sb.thrusters.all (fun t => (img.chans.getD t.channel {}).charac.kind == 0)

/-- The safety limits in the ranges of Table 10-2. -/
def limitsOk (l : Limits) : Bool :=
  within 250 1000000 l.filterNs && within 10 500 l.tDiscMs && (l.proofH == 0 || within 1 8760 l.proofH) && decide (l.sectors.length ≤ 4) &&
    l.sectors.all (fun x => within 5 90 x.half && decide (0 ≤ x.fSec)) && (l.rLim == 0 || within (1 / 2) 20 l.rLim) && within 0 50000 l.nHold &&
    (l.rLim == 0 || decide (l.rLim < l.rStop)) && within (1 / 10) 10 l.tStop &&
    l.thrusters.all (fun t => within 0 t.tMax t.sltAhead && within 0 t.tRev t.sltRev) &&
    l.safe.all (fun x => decide (x.1 < 128) && decide (x.2.1 ≤ 2) && (x.2.1 != 2 || decide (x.2.2 ≤ 48000)))

/-- Command interface, consist and display settings (R343, R344, R362, R372, R416, R419, R423, credentials). -/
def serviceOk (img : Image) : Bool :=
  decide (img.cmd.creds.length ≤ 8) && within 1024 65535 img.cmd.udpPort && within 5 3600 img.cmd.timeoutS &&
    img.cmd.ports.all (fun p => decide (p.ranges.length ≤ 8)) && within 100 5000 img.disp.crackLimit && within (-20) 20 img.disp.tempOffset &&
    decide (img.disp.regions.length ≤ 16) && img.disp.regions.all (fun r => decide (r.segments.length ≤ 640)) &&
    decide (img.disp.bandMv.length ≤ 8)

/-- Content structure (Table 12-14, detail 5). That every setting outside the range its chapter states is refused here is the model's
reading of "and the owning chapters" (DEDUCED, assumption 104). -/
def contentOk (img : Image) : Bool :=
  refsOk img.ref && timeOk img.time && gnssOk img.gnss && fusionOk img.fusion && allocOk img.alloc && chansOk img.chans &&
    limitsOk img.sb && limitsContentOk img && serviceOk img

/-! ### Budgets (Table 12-14, check 6) -/

/-- Lowest and highest budget of each activity, µs (Table 2-1). -/
def budgetRange : List (Nat × Nat) :=
  [(150, 600), (80, 400), (200, 900), (600, 1600), (200, 600), (150, 500), (600, 1500), (100, 300), (40, 80), (300, 800),
   (1000, 4000), (150, 800), (200, 800)]

/-- Activity budgets (R46). -/
def activityBudgetsOk (b : List Nat) : Bool :=
  b.length == 13 && (List.zipWith (fun (x : Nat) (r : Nat × Nat) => decide (r.1 ≤ x) && decide (x ≤ r.2) && x % 10 == 0) b budgetRange).all id &&
    decide ((b.take 8).foldl (· + ·) 0 + 4 * b.getD 8 0 ≤ 3900) &&
    decide ((b.take 8).foldl (· + ·) 0 + 10 * b.getD 8 0 + (b.drop 9).foldl (· + ·) 0 ≤ 9500)

/-- A class budget of `lo` to `hi` KiB; `zero` allows 0 as well. -/
def classOk (zero : Bool) (lo hi v : Nat) : Bool := (zero && v == 0) || (decide (lo * 1024 ≤ v) && decide (v ≤ hi * 1024))

/-- The budgets in force under an image (R46, Table 2-3), µs and bytes. -/
structure Budgets where
  act : List Nat
  mram : List Nat
  ring : List Nat
  egress : List Nat
deriving DecidableEq, Repr

/-- Each entry that an image gives, and the default where it gives none (R46). -/
def orDefault (dflt : List Nat) (given : List (Option Nat)) : List Nat := dflt.mapIdx (fun i d => (given.getD i none).getD d)

/-- The budgets that an image puts into force (R46). -/
def budgetsOf (t : ImageTt) : Budgets :=
  { act := orDefault [250, 150, 450, 1050, 350, 250, 1000, 150, 60, 500, 2000, 300, 300] t.budget
    mram := orDefault [40960, 16384, 32768, 1024] t.mram
    ring := orDefault [4096, 49152, 65536, 32768, 262144] t.ring
    egress := orDefault [4096, 32768, 262144, 65536, 65536, 16384] t.egress }

/-- The image gives a budget of its own (Table 2-4, flags bit 0). -/
def ownBudgets (t : ImageTt) : Bool := (t.budget ++ t.mram ++ t.ring ++ t.egress).any Option.isSome

/-- Class budgets and their totals (Table 2-3, R58). -/
def classBudgetsOk (t : Budgets) : Bool :=
  let sum := fun (l : List Nat) => l.foldl (· + ·) 0
  let m := fun i => t.mram.getD i 0
  let r := fun i => t.ring.getD i 0
  let e := fun i => t.egress.getD i 0
  classOk false 32 96 (m 0) && classOk false 8 64 (m 1) && classOk false 16 128 (m 2) && m 3 == 1024 &&
    r 0 == 4096 && classOk false 40 256 (r 1) && classOk false 16 512 (r 2) && classOk true 8 256 (r 3) && classOk true 8 1024 (r 4) &&
    classOk false 2 16 (e 0) && classOk true 9 128 (e 1) && classOk false 32 768 (e 2) && classOk true 9 256 (e 3) &&
    classOk true 9 256 (e 4) && classOk false 9 64 (e 5) &&
    decide (sum t.mram ≤ 224 * 1024) && decide (sum t.ring ≤ 2048 * 1024) && decide (sum t.egress ≤ 1000 * 1024)

/-- Budgets of an image (Table 12-14, detail 6). -/
def budgetsOk (img : Image) : Bool :=
  let t := budgetsOf img.tt
  activityBudgetsOk t.act && classBudgetsOk t && decide (allocCharge img.alloc ≤ (t.act.getD 6 0 : Nat))

/-! ### Settings come into force (R94, R122, R147, R220, R299, R393) -/

/-- A reference or sensor as an image starts it: ACQUIRING where the image configures it (R159), with its input bindings not yet
aligned; its counts stay, and so does EXCLUDED until CONFLICT_RESOLVE or a Boot from Off ends it (R177). -/
def startUnit (on : Bool) (bindings lever : Nat) (u : RefUnit) : RefUnit :=
  { updates := u.updates, missed := u.missed, unaligned := u.unaligned, discards := u.discards, excluded := u.excluded && on,
    align := List.replicate bindings {}, enabled := on, state := if on then .acquiring else .unconfigured, lever := { state := lever } }

/-- The refinement state that a reference starts in (R147): the anchor is never refined; without an anchor, or with a limit
of 0, nothing is. -/
def leverStart (g : ImageRef) (i : Nat) : Nat :=
  match g.refs.getD i none with
  | none => 0
  | some c => if g.anchor = some i then 5 else if g.anchor.isNone || c.refineLimit = 0 then 0 else 1

/-- References, sensors, votes and tracks start afresh. -/
def refsFromImage (s : State) : State :=
  let g := s.image.ref
  { s with ref := {
      refs := s.ref.refs.mapIdx (fun i u => startUnit (g.refs.getD i none).isSome (bindingsOf s false i).length (leverStart g i) u)
      sens := s.ref.sens.mapIdx (fun i u => startUnit (g.sensors.getD i none).isSome (bindingsOf s true i).length 0 u)
      overflow := s.ref.overflow, rowDrops := s.ref.rowDrops, unconverged := s.ref.unconverged } }

/-- A bank's cells from the image's bytes. -/
def bankCells (l : List (Nat × Byte)) : List Host.Cell := l.foldl (fun m x => memWrite m (x.1 % 16384) x.2) []

/-- Both banks loaded; bank 0 becomes active (R220). -/
def banksFromImage (s : State) : State :=
  let b := bankCells s.image.ctl.bank
  { s with ctl.banks := [b, b], ctl.active := 0, ctl.activeLoop := 0, ctl.swap := none }

/-- Allocation settings: every configured thruster enabled, the image's policy, group 0 only, power rows on; the next
solve starts COLD (R249, R259). -/
def allocFromImage (s : State) : State :=
  let g := s.image.alloc
  { s with
    alloc.policy := g.policy
    alloc.groups := 0
    alloc.powerRows := true
    alloc.cold := true
    alloc.thr := s.alloc.thr.map (fun x => { x with enabled := true, ramping := false, forced := false, ramp := 0 })
    alloc.bodies := (List.range 2).map (fun i => { vTol := (g.bodies.getD i {}).vTol }) }

/-- Channel configurations of the image (R261, R299); a transaction in flight completes first (R300). -/
def chansFromImage (s : State) : State :=
  { s with isl := s.isl.mapIdx (fun ch i =>
      configure (s.image.chans.getD ch {}) i) }

/-- Timetable budgets (R46, R47): every counter keeps its value. -/
def budgetsFromImage (s : State) : State :=
  let t := budgetsOf s.image.tt
  { s with tt.own := ownBudgets s.image.tt, tt.budget := t.act, tt.mramBudget := t.mram, tt.ringBudget := t.ring, tt.egressBudget := t.egress }

/-- Display settings (R416, R423, R425). -/
def dispFromImage (s : State) : State :=
  { s with disp.trim := 0, disp.tempCh := s.image.disp.tempFromChannel, disp.blankAct := s.image.disp.crackBlank }

/-- Every setting of the active image comes into force; the limits block waits for the next tick strobe (R303). -/
def fromImage (s : State) : State :=
  let s := { s with time.leap := s.image.time.leap, sb.limitsNext := some s.image.sb, obs.waveT := s.image.fusion.waveTw }
  dispFromImage (budgetsFromImage (chansFromImage (allocFromImage (banksFromImage (refsFromImage (gnssFromImage (timeFromImage s)))))))

/-! ### Commit (R392, R393) -/

/-- The first check of Table 12-14 that fails: detail and status. -/
def commitFailure (s : State) (t : Transfer) (readbackOk : Bool) : Option (Nat × Nat) :=
  let img := imgBody s t.slot
  if t.next != t.length then some (1, 0x0011)
  else if !(headerOk s t.slot t.length && digestOk s t.slot && imgBytes s t.slot 64 32 == t.digest) then some (2, 0x0013)
  else if !trusted s t.slot then some (3, 0x0031)
  else if !releaseOk s t.slot then some (4, 0x0013)
  else if !contentOk img then some (5, 0x0013)
  else if !budgetsOk img then some (6, 0x0014)
  else if img.sb != s.sb.limits && s.sb.state == .run then some (7, 0x0021)
  else if !readbackOk then some (8, 0x0041)
  else none

/-- The IMAGE record (Table 13-3). -/
def logImage (k kind detail : Nat) (s : State) : State :=
  logJ 12 2 (leBytes 1 k ++ leBytes 1 kind ++ leBytes 1 detail ++ leBytes 8 (imgField s k 64 8)) s

/-- The slot becomes ACTIVE, the one before it VALID (R393). -/
def activate (k : Nat) (s : State) : State :=
  let sl := s.host.slots.map (fun x => if x.state = 5 then { x with state := 4 } else x)
  { s with host.slots := sl.modify k (fun x => { x with state := 5 }), host.imgActive := some k, host.activateAt := none, pow.noImage := false }

/-- The settings of the active slot apply, and the commit completes (R393). -/
def finishCommit (s : State) : State :=
  match s.host.imgActive, s.host.commit with
  | some k, some (t, _) => completeSlot t 0 [] (fromImage { s with image := imgBody s k, host.commit := none, host.reload := 0 })
  | _, _ => s

/-- A commit of a Layover or Witness completes at once (R393); the budgets of the image wait for the next frame boundary (R47). -/
def commitAtOnce (s : State) : State :=
  let old := s.tt
  let s := finishCommit s
  { s with tt.own := old.own, tt.budget := old.budget, tt.mramBudget := old.mramBudget, tt.ringBudget := old.ringBudget
           tt.egressBudget := old.egressBudget, host.budgetsDue := true }

/-- What a frame boundary does to a commit (R47, R393): the slot that passed becomes ACTIVE and a reload of 12 frames begins;
at its end the new image applies. Budgets that waited for the boundary take effect. -/
def imageAtBoundary (s : State) : State :=
  let s := if s.host.budgetsDue then budgetsFromImage { s with host.budgetsDue := false } else s
  match s.host.activateAt with
  | some k =>
    let s := activate k s
    if nServing s = 0 then finishCommit s
    else { s with host.reload := 12 }
  | none =>
    if s.host.reload = 0 then s
    else if s.host.reload = 1 then finishCommit s
    else { s with host.reload := s.host.reload - 1 }

/-- IMAGE_COMMIT_COMPLETE (R392, R393): the checks of Table 12-14 end. -/
def execImageCommitComplete (readbackOk : Bool) (s : State) : Host.Outcome State Fault Refusal :=
  .next (match s.host.commit, s.host.transfer with
  | some (task, _), some t =>
    if !junctionUp s then s
    else match commitFailure s t readbackOk with
    | some (detail, status) =>
      let s := { s with host.commit := none, host.transfer := none
                        host.slots := s.host.slots.modify t.slot (fun x => { x with state := 3, detail := detail }) }
      completeSlot task status [] (logImage t.slot 2 detail s)
    | none =>
      let s := { s with host.transfer := none
                        host.slots := s.host.slots.modify t.slot (fun x => { x with detail := 0, keyUnchecked := !keyChecked s }) }
      let s := logImage t.slot 1 0 s
      if s.cons.role == .layover || s.cons.role == .witness then commitAtOnce (activate t.slot s)
      else { s with host.activateAt := some t.slot }
  | _, _ => s)

/-! ### Which slot a Boot uses (R443) -/

/-- A slot passes at Boot: header, digest, trust, min_release (R389, R443). -/
def slotPasses (s : State) (k : Nat) : Bool := headerOk s k (imgLen s k) && digestOk s k && trusted s k && releaseOk s k

/-- The image in force at a Boot from Off (R443): the ACTIVE slot, else the other VALID one, which becomes ACTIVE with
IMAGE_FALLBACK, else none. -/
def selectImage (s : State) : State :=
  let st := fun k => (s.host.slots.getD k {}).state
  let act := [0, 1].find? (fun k => st k == 5)
  let s := { s with pow.imgFallback := false }
  let use := fun (k : Nat) (s : State) => { s with image := imgBody s k, host.imgActive := some k, pow.slot := k, pow.noImage := false
                                                   host.slots := s.host.slots.modify k (fun x => { x with keyUnchecked := !keyChecked s }) }
  match act with
  | none => { s with image := {}, host.imgActive := none, pow.slot := 255, pow.noImage := true }
  | some k =>
    if slotPasses s k then use k s
    else
      let detail := if !(headerOk s k (imgLen s k) && digestOk s k) then 2 else if !trusted s k then 3 else 4
      let s := logImage k 2 detail { s with host.slots := s.host.slots.modify k (fun x => { x with state := 3 }) }
      if st (1 - k) == 4 && slotPasses s (1 - k) then
        use (1 - k) { s with host.slots := s.host.slots.modify (1 - k) (fun x => { x with state := 5 }), pow.imgFallback := true }
      else { s with image := {}, host.imgActive := none, pow.slot := 255, pow.noImage := true }

end Sys2Proof.Machine
end

