-- ==== Sys2Proof/Machine/Power.lean ====
section
/-! DEFINITION. Power and start-up (chapter 15): supply inputs, power fail and the hold-up stop, the Chamois domain, Layover
power, reset sources, Boot from Off, and the opcodes POWER_STATUS and POWER_MODE. -/

/-- The number of an input (Table 15-2). -/
def Sys2Proof.SupplyIn.num : Sys2Proof.SupplyIn → Nat
  | .pwrA => 0
  | .pwrB => 1
  | .fld => 2
  | .vbak => 3

namespace Sys2Proof.Machine

/-! ### Supply inputs (R426, R427) -/

/-- The junction die has power and runs, Fault included. -/
def dieAlive (s : State) : Bool :=
  match s.pow.state with
  | .off | .backup => false
  | .boot => s.pow.railsOk
  | _ => true

/-- A SUPPLY event of Table 15-2: logged, vector 40 once per frame for each input. A module without a running junction die
records nothing. -/
def supplyEvent (input event value : Nat) (s : State) : State :=
  if !dieAlive s then s
  else assertVecFrame 40 (100 + input) (logJ 1 3 (leBytes 1 input ++ leBytes 1 event ++ leBytes 2 value) s)

/-- One input's judgements. -/
def supplyOf (s : State) : SupplyIn → Supply
  | .pwrA => s.pow.pwrA
  | .pwrB => s.pow.pwrB
  | .fld => s.pow.fld
  | .vbak => s.pow.vbak

/-- One input's judgements replaced. -/
def setSupply (i : SupplyIn) (x : Supply) (s : State) : State :=
  match i with
  | .pwrA => { s with pow.pwrA := x }
  | .pwrB => { s with pow.pwrB := x }
  | .fld => { s with pow.fld := x }
  | .vbak => { s with pow.vbak := x }

/-- A logic input. -/
def isLogicIn (i : SupplyIn) : Bool := i == .pwrA || i == .pwrB

/-- The thresholds of Table 15-1 and the judgement so far allow the change. -/
def supplyDue (s : State) (i : SupplyIn) (ev : SupplyEv) (mv : Nat) : Bool :=
  let x := supplyOf s i
  match ev with
  | .valid => isLogicIn i && !x.valid && decide (18000 ≤ mv)
  | .invalid => isLogicIn i && x.valid && decide (mv < 17000)
  | .high => i != .vbak && !x.high && decide (32500 < mv)
  | .highCleared => x.high && decide (mv ≤ 32000)
  | .absent => isLogicIn i && !x.absent && decide (mv < 9000)
  | .fldLow => i == .fld && !s.pow.fldLow && decide (mv < 18000)
  | .fldRestored => i == .fld && s.pow.fldLow && decide (18500 ≤ mv)
  | .fldOvercurrent => i == .fld && !s.pow.fldOver
  | .fldOvercurrentEnd => i == .fld && s.pow.fldOver

/-- A measurement without a change of judgement: the voltage, in steps of 10 mV (R426); an input at 9.0 V or more is not ABSENT. -/
def supplyMeasured (x : Supply) (mv : Nat) : Supply := { x with mv := mv / 10 * 10, absent := x.absent && decide (mv < 9000) }

/-- The judgement of an input after the change. -/
def supplyAfter (x : Supply) (ev : SupplyEv) (mv : Nat) : Supply :=
  let x := supplyMeasured x mv
  match ev with
  | .valid => { x with valid := true, absent := false }
  | .invalid => { x with valid := false }
  | .high => { x with high := true }
  | .highCleared => { x with high := false }
  | .absent => { x with absent := true }
  | _ => x

/-- The event number of a change (Table 15-2); none for a change without an event. -/
def supplyCode : SupplyEv → Option Nat
  | .valid => some 1
  | .invalid => some 2
  | .high => some 3
  | .absent => some 4
  | .fldLow => some 6
  | .fldRestored => some 7
  | .fldOvercurrent => some 8
  | .highCleared | .fldOvercurrentEnd => none

/-- An input valid again before the hold-up stop (R428): nothing but the record. -/
def rideThrough (i : SupplyIn) (mv : Nat) (s : State) : State :=
  if s.pow.pf.isSome && !s.pow.stopped && (supplyOf s i).valid && isLogicIn i then
    supplyEvent i.num 5 (mv / 10) { s with pow.pf := none, pow.rides := sat 32 (s.pow.rides + 1), disp.oneLevel := false }
  else s

/-- SUPPLY_CHANGE (R426, R427, R262, R428): the voltage measured; the change named, where its threshold and the judgement so far allow
it. -/
def execSupplyChange (input : SupplyIn) (ev : SupplyEv) (mv : Nat) (s : State) : Host.Outcome State Fault Refusal :=
  .next (if !supplyDue s input ev mv then setSupply input (supplyMeasured (supplyOf s input) mv) s
  else
    let s := setSupply input (supplyAfter (supplyOf s input) ev mv) s
    let s := match ev with
      | .fldLow => { s with pow.fldLow := true }
      | .fldRestored => { s with pow.fldLow := false }
      | .fldOvercurrent => { s with pow.fldOver := true }
      | .fldOvercurrentEnd => { s with pow.fldOver := false }
      | _ => s
    let s := match supplyCode ev with
      | some e => supplyEvent input.num e (mv / 10) s
      | none => s
    rideThrough input mv s)

/-- VBAK under its test load (Table 15-1). -/
def testVbak (mv : Nat) (s : State) : State :=
  let low := decide (mv < 2200)
  let was := s.pow.vbakLow
  let s := { s with pow.vbakLow := low, pow.vbakAt := s.mono, pow.vbak := { s.pow.vbak with mv := mv } }
  if low && !was then supplyEvent 3 9 (mv / 10) s
  else if was && !low then supplyEvent 3 10 (mv / 10) s
  else s

/-- VBAK_TEST (R426): once per hour of operation. -/
def execVbakTest (mv : Nat) (s : State) : Host.Outcome State Fault Refusal :=
  .next (if dieAlive s && s.pow.vbakAt + 3600000 ≤ s.mono then testVbak mv s else s)

/-- The variant's maximum base-plate temperature, 0.1 °C (chapter 16): MA 85 °C, MX 95 °C. -/
def baseMax : Int := if Config.variant = 2 then 950 else 850

/-- OVER_TEMPERATURE (R460): the base-plate temperature in 0.1 °C as measured; the onset above the variant's maximum is an
event. -/
def execOverTemperature (temp : Int) (s : State) : Host.Outcome State Fault Refusal :=
  .next (if !dieAlive s then s
  else
    let above := decide (baseMax < temp)
    let was := s.pow.overTemp
    let s := { s with pow.tBase := (temp : Qty) / 10, pow.overTemp := above }
    if above && !was then supplyEvent 4 12 (ofSigned 16 temp) s else s)

/-! ### Power fail (R428 to R430) -/

/-- The module has power: neither Off nor Backup. -/
def poweredOn (s : State) : Bool := s.pow.state != .off && s.pow.state != .backup

/-- POWER_FAIL (R428, R407, R431): both logic inputs INVALID. -/
def execPowerFail (s : State) : Host.Outcome State Fault Refusal :=
  .next (if !poweredOn s || s.pow.pf.isSome || s.pow.pwrA.valid || s.pow.pwrB.valid then s
  else
    let s := { s with pow.pf := some s.mono }
    if !dieAlive s then s
    else
      let n := s.log.staged.length
      let s := storeFactory none (logJ 1 4 (leBytes 2 n) s)
      assertVec 40 (flushAll { s with disp.oneLevel := true }))

/-- What the module holds of an island, lost: queues, slots, counters. The island itself goes on. -/
def forgetIsl (i : Isl) : Isl :=
  { i with
    cfgDown := [], cfgFrag := 0, hartDown := none, hartFrag := 0, down := {}, linkOut := .through, checkDrive := none, checkBack := 0
    cls := 255, up := {}, upQual := 0, upMiss := 0, linkFault := false, linkErrors := 0, outSeen := 0, faulted := false
    hartRx := [], hartQ := [], hartErrors := 0, bursts := [], md := [], mdNext := 0 }

/-- A reset of an island, which takes the configuration `c` (R299, R440): at once, or where it regulates once it is in THROUGH. -/
def resetIsl (c : ChanCfg) (i : Isl) : Isl :=
  if regulating i then { forgetIsl i with resetDue := true, cfgNext := some c } else { freshIsl c i with darkAt := i.darkAt }

/-- An island as a loss of its module's power leaves it: a regulating one holds, loop-powered; the points of the others
are in THROUGH. What was written to it is gone (R299). -/
def islandOff (s : State) (i : Isl) : Isl := resetIsl {} (islPowerFail s i)

/-- What is left when the rails are off: the MRAM, the factory record, the Chamois domain on VBAK, the supply inputs, and
islands in HOLD. -/
def powerDown (target : ModState) (s : State) : State :=
  let keep := s.pow.latch && target == .backup
  { mono := s.mono, free := s.free, mram := s.mram, pending := s.pending
    isl := s.isl.map (islandOff { s with sb.powered := false })
    cons := { stored := s.cons.stored, home := s.cons.home, mramFull := s.cons.mramFull, mramSlot := s.cons.mramSlot }
    host := { slots := s.host.slots }
    pow := {
      state := target, since := s.mono, pwrA := s.pow.pwrA, pwrB := s.pow.pwrB, fld := s.pow.fld, vbak := s.pow.vbak
      fldLow := s.pow.fldLow, vbakAt := s.pow.vbakAt, stopped := true
      opSec := if keep then s.pow.opSec else 0
      cycles := if keep then s.pow.cycles else 0
      shutdown := if keep then 1 else 0
      latch := keep
      facOpSec := s.pow.facOpSec, facCycles := s.pow.facCycles, facRecLast := s.pow.facRecLast, copyAt := s.pow.copyAt } }

/-- HOLDUP_STOP (R428, R429): at PF + 8.0 ms or at the store's stop threshold the outputs stop and the rails go off; the
module is in Backup, or Off without VBAK. -/
def execHoldupStop (atThreshold : Bool) (s : State) : Host.Outcome State Fault Refusal :=
  .next (if poweredOn s && s.pow.pf.isSome && (atThreshold || heldFor s s.pow.pf 8) then
    let target : ModState := if 1800 ≤ s.pow.vbak.mv then .backup else .off
    powerDown target (if dieAlive s then flushAll (changeState target 0 (stopOutputs s)) else s)
  else s)

/-! ### Chamois domain (R431) -/

/-- CHAMOIS_SECOND (R431): a second of the Chamois oscillator. -/
def execChamoisSecond (s : State) : Host.Outcome State Fault Refusal :=
  .next (if poweredOn s then { s with pow.opSec := (s.pow.opSec + 1) % 2 ^ 32 } else s)

/-- CHAMOIS_COPY (R431, R405): every 60 s, in the factory record class. -/
def execChamoisCopy (s : State) : Host.Outcome State Fault Refusal :=
  .next (if dieAlive s && s.pow.copyAt + 60000 ≤ s.mono then
    writeFactory none s else s)

/-- VBAK_COLLAPSE (R431, R434): VBAK below 1.8 V in Backup; the latch clears and the contents are lost. -/
def execVbakCollapse (s : State) : Host.Outcome State Fault Refusal :=
  .next (if s.pow.state == .backup && !s.pow.pwrA.valid && !s.pow.pwrB.valid then
    { s with pow.state := .off, pow.since := s.mono, pow.latch := false, pow.opSec := 0, pow.cycles := 0, pow.shutdown := 0 }
  else s)

/-! ### Layover power (R438) -/

/-- Every counter of Table 2-5 set to zero (R66). -/
def clearCounters (s : State) : State :=
  { s with
    tt.laneHeld := List.replicate 39 0
    tt.agreedHeld := List.replicate 13 0
    tt.timeouts := ⟨0, 0, 0⟩
    tt.closing := 0
    tt.fsetDrop := 0
    tt.tsetDrop := 0
    tt.mramDefer := List.replicate 4 0
    tt.ringDefer := List.replicate 5 0
    tt.ckptSkip := 0
    tt.egressDefer := List.replicate 72 0
    tt.islandDefer := 0
    tt.maxRun := 0
    tt.frameClear := s.tt.frame }

/-- The signal box waits for a proof or a reset, which lanes must accompany (R317, R438). -/
def sbWaits (s : State) : Bool := s.sb.state == .proofPending || s.sb.state == .resetWait

/-- The lanes switched off; kept powered, out of service, while the signal box waits (R438). -/
def lanesDown (s : State) : State :=
  let keep := sbWaits s
  { s with
    lanes := s.lanes.map (fun x => { x with state := .unpowered, powered := keep, shadowRun := 0, shadowFull := false, copied := false,
                                            devRun := 0, changed := frame32 s })
    pow.resetLanes := keep
    log.lanePend := []
    host.voting := []
    tt.nextAct := 0 }

/-- The regions of the junction's SRAM that Layover does not retain lose what they hold (R36, Table 1-10): input sets, Ethernet,
serial and CAN FD buffers, command queues and result slots, transmit stamps, HART buffers. The ring buffers, the checkpoint store
and recorder staging are kept; so are the sessions, which are in no region of the table (DESIGN CHOICE; assumption 107). -/
def dropRegions (s : State) : State :=
  let inp : InSt := { fNoMaj := s.inp.fNoMaj, tNoMaj := s.inp.tNoMaj, discards := s.inp.discards, discardAt := s.inp.discardAt }
  { s with
    inp := inp
    tt.egressWait := []
    host.waitPkts := []
    host.queues := s.host.queues.map (fun q => { q with waiting := [], full := cqIsFull q })
    host.sessions := s.host.sessions.map (fun x => x.map (fun y => { y with slots := [] }))
    time.stamps := s.time.stamps.map (fun q => { q with entries := [] })
    isl := s.isl.map (fun i => { i with hartQ := [], hartDown := none, hartFrag := 0, hartTx := [], hartFull := false, hartSent := false,
                                        hartRx := [] }) }

/-- Layover entered at a frame boundary (R438, R66, R116, R36). -/
def enterLayover (reason : Nat) (s : State) : State :=
  let s := dropRegions (lanesDown (clearCounters (changeState .layover reason s)))
  gnssLayover { s with
    isl := s.isl.map (fun i => { islPowerFail s i with linkCmd := .through, linkOut := .through })
    pow.portsOff := true
    pow.pcieL1 := true }

/-- The boundary instant: a frame has begun and no activity of it has run. -/
def atBoundary (s : State) : Bool := s.tt.tick == 0 && s.tt.nextAct == 0

/-- LAYOVER_ENTRY (R434, R438): a module in Ready with the role Layover or Witness. -/
def execLayoverEntry (s : State) : Host.Outcome State Fault Refusal :=
  .next (if s.pow.state == .ready && (s.cons.role == .layover || s.cons.role == .witness) && atBoundary s then enterLayover 2 s else s)

/-- LAYOVER_LANES_OFF (R438): the first frame boundary after the signal box reaches RUN. -/
def execLayoverLanesOff (s : State) : Host.Outcome State Fault Refusal :=
  .next (if s.pow.state == .layover && s.pow.resetLanes && s.sb.state == .run && atBoundary s then
    { s with pow.resetLanes := false, lanes := s.lanes.map (fun x => { x with powered := false }) }
  else s)

/-! ### Reset sources and Boot from Off (R439 to R443) -/

/-- The op_sec field of the newest record in the fill (R432), 0 without a fill. -/
def newestOpSec (s : State) : Nat :=
  if fillValid s.mram then leNat (memReadAll s.mram (slotAddr (fillCount s.mram - 1) + 4) 4) else 0

/-- The power controller's own state at the start of a Boot from Off. -/
def bootPow (source : Nat) (railsOk : Bool) (s : State) : PowSt :=
  { s.pow with
    state := .boot, since := s.mono, pf := none, stopped := false, charged := false, holdupLow := false, rides := 0
    shutFound := s.pow.shutdown, shutdown := 0, chamRestored := false
    reset := source, bootKind := 0, bootAt := s.mono, bootMs := 0, railsOk := railsOk, railsDead := false
    watchdog := if source = 0 then 0 else s.pow.watchdog
    silentAt := none, rstLow := false, imgFallback := false, noImage := true, factoryBad := false, gnssFault := false
    slot := 255, resetLanes := false, portsOff := false, pcieL1 := false }

/-- The signal box as power finds it: both lines asserted, and both channels of each pair open until they are seen closed (R320, R321). -/
def sbPowerUp (railsOk : Bool) (s : State) : SbSt :=
  { powered := railsOk, esd := { bothOpenSince := some s.mono }, en := { bothOpenSince := some s.mono } }

/-- What a reset leaves (Table 15-7): after POWER_ON nothing but the MRAM, the factory record and the Chamois domain; after
any other source also the signal box, the retained staging and, as retained, the navigation data. Islands in HOLD finish their
hold (R440), or see the lines of a signal box that powers up asserted and enter SAFE (R321, R322). -/
def bootState (source : Nat) (home railsOk : Bool) (s : State) : State :=
  { mono := s.mono, free := s.free, mram := s.mram, pending := s.pending
    tt := { tick := 9 }
    gnss := if source = 0 then {} else s.gnss
    isl := s.isl.mapIdx (fun ch i =>
      let i := islandOff s i
      if source = 0 && railsOk then enterSafe s ch i else i)
    sb := if source = 0 then sbPowerUp railsOk s else s.sb
    cons := { stored := s.cons.stored, home := home, mramFull := s.cons.mramFull, mramSlot := s.cons.mramSlot }
    host := { slots := s.host.slots.map (fun x => if x.state = 1 || x.state = 2 then { x with state := 3 } else x) }
    log := if source = 0 then {} else { staged := s.log.staged, early := s.log.early, seqNext := s.log.seqNext }
    pow := bootPow source railsOk s }

/-- The Chamois handshake (R431, R432): the power-cycle count; a validity latch found clear restores both counters. -/
def handshake (s : State) : State :=
  if s.pow.latch then { s with pow.cycles := (s.pow.cycles + 1) % 2 ^ 32 }
  else { s with
    pow.opSec := max s.pow.facOpSec (newestOpSec s)
    pow.cycles := (s.pow.facCycles + 1) % 2 ^ 32
    pow.latch := true
    pow.chamRestored := true }

/-- A Boot from Off begins (R439, R442): with the rails up the junction die takes the handshake and logs; `log` says that
the change of state is still to be logged. -/
def bootFrom (source : Nat) (home railsOk log : Bool) (s : State) : State :=
  let was := s.pow.state
  let s := bootState source home railsOk (if source = 0 then s else closeAll s)
  if !railsOk then s
  else
    let s := handshake s
    let s := if log then changeState .boot (if source = 0 then 0 else 8) { s with pow.state := was } else s
    let s := gnssBoot s
    if s.pow.chamRestored then supplyEvent 3 11 (s.pow.vbak.mv / 10) s else s

/-- BOOT_START (R434, R442): a logic input VALID in Off or Backup. -/
def execBootStart (b : BootIn) (s : State) : Host.Outcome State Fault Refusal :=
  .next (if !poweredOn s && (s.pow.pwrA.valid || s.pow.pwrB.valid) then bootFrom 0 b.home b.railsOk true s else s)

/-- SYS_RST_ASSERT (R439, R440): low for 10 µs in any powered state; the outputs stop as at a hold-up stop, and the module
holds in Boot. -/
def execSysRstAssert (lowUs : Nat) (s : State) : Host.Outcome State Fault Refusal :=
  .next (if lowUs < 10 || !poweredOn s || s.pow.rstLow || s.pow.railsDead then s
  else
    let s := if dieAlive s then stopOutputs (changeState .boot 8 s) else s
    { s with
      isl := s.isl.map (islPowerFail s)
      lanes := ⟨{}, {}, {}⟩
      time := {}
      pow.shutdown := 2
      pow.railsOk := false
      pow.rstLow := true
      pow.bootKind := 0 })

/-- SYS_RST_RELEASE (R439): Boot starts at the rising edge. -/
def execSysRstRelease (railsOk : Bool) (s : State) : Host.Outcome State Fault Refusal :=
  .next (if s.pow.state == .boot && s.pow.rstLow then bootFrom 1 s.cons.home railsOk false s else s)

/-- WATCHDOG (R441): a Boot from Off not in Ready within 2.0 s. Before the first strobe the limit is the rail sequencer's
own. -/
def execWatchdog (railsOk : Bool) (s : State) : Host.Outcome State Fault Refusal :=
  let late := !s.time.running || decide (s.pow.bootAt + 2000 ≤ s.mono)
  .next (if s.pow.state == .boot && s.pow.bootKind = 0 && !s.pow.rstLow && !s.pow.railsDead && late then
    if s.pow.watchdog < 3 then
      bootFrom 4 s.cons.home railsOk true { s with pow.watchdog := s.pow.watchdog + 1 }
    else if s.pow.railsOk then fallSilent s
    else { s with pow.railsDead := true }
  else s)

/-- Fault restarts of the last hour of operation (R437). -/
def recentRestarts (s : State) : List Nat := s.pow.restarts.filter (fun t => decide (s.mono < t + 3600000))

/-- FAULT_RESTART (R437): under AFTER_60S, 60 s after the module fell silent, at most 3 in an hour. -/
def execFaultRestart (s : State) : Host.Outcome State Fault Refusal :=
  .next (if s.pow.state == .fault && s.image.consist.faultRestart && heldFor s s.pow.silentAt 60000 && (recentRestarts s).length < 3 then
    bootFrom 3 s.cons.home true true { s with pow.restarts := s.mono :: recentRestarts s }
  else s)

/-! ### Boot complete (Table 15-8) -/

/-- The store measured, at each Boot (R430); the onset of HOLDUP_DEGRADED is an event. -/
def measureHoldup (pct : Nat) (s : State) : State :=
  let was := s.pow.holdupLow
  let s := { s with pow.holdupPct := pct, pow.charged := true, pow.holdupLow := decide (pct < 80) }
  if pct < 80 && !was then supplyEvent 5 13 pct s else s

/-- The islands powered and tested, their configuration taken: a failed one is FAULT, one still in HOLD joins later (R440). -/
def bootIslands (bad : List Nat) (s : State) : State :=
  { s with isl := s.isl.mapIdx (fun ch i =>
      if i.resetDue then i
      else if s.pow.factoryBad || bad.contains ch then { i with powered := true, state := .fault }
      else { i with powered := true }) }

/-- The lanes that pass their tests enter service; the others are excluded with cause SELF_TEST. -/
def bootLanes (ok : Lane3 Bool) (s : State) : State :=
  let s := { s with lanes := s.lanes.map (fun x => { x with state := .inService, powered := true, changed := frame32 s }) }
  lanesAll.foldl (fun s l => if ok.get l then s else excludeLane l 10 s) s

/-- The image slot chosen and its settings in force (R443). -/
def bootImage (s : State) : State :=
  let s := selectImage s
  if imageActive s then fromImage s else s

/-- The steps of Table 15-8 up to the lanes. -/
def bootSteps (b : BootOut) (s : State) : State :=
  let s := measureHoldup b.holdupPct s
  let s := if b.factoryOk then s else { s with pow.factoryBad := true, cons.stored := 0 }
  let s := bootIslands b.badIslands (bootImage s)
  let s := if b.gnssOk then s else { s with pow.gnssFault := true }
  let s := testVbak b.vbakMv s
  bootLanes b.lanesOk (bootRecorder 0 s)

/-- Ready (R434): Boot complete. The self-tests of R345 are those of the lanes, the islands and the GNSS dies (Table 15-8; DEDUCED,
assumption 111). -/
def bootReady (b : BootOut) (s : State) : State :=
  let s := logJ 1 1 (leBytes 1 s.pow.reset ++ leBytes 1 0 ++ leBytes 1 s.pow.slot) s
  updateRing <| changeState .ready 7 { s with
    cons.bootEnd := s.mono
    cons.waitAt := s.mono
    cons.bootOk := b.lanesOk.list.all id && b.badIslands.isEmpty && b.gnssOk
    pow.watchdog := 0
    pow.bootMs := b.durationMs }

/-- BOOT_COMPLETE (R442, Table 15-8): Ready, or Fault after a failure of the junction self-test or with fewer than two lanes
in service. -/
def execBootComplete (b : BootOut) (s : State) : Host.Outcome State Fault Refusal :=
  .next (if s.pow.state == .boot && s.pow.bootKind = 0 && s.pow.railsOk && !s.pow.rstLow then
    if !b.junctionOk then fallSilent s
    else
      let s := bootSteps b s
      if nServing s < 2 then fallSilent s else bootReady b s
  else s)

/-! ### Opcodes (R436, R445, R446) -/

/-- The POWER_STATUS result (Table 15-10). The input currents, the logic power and the hold-up time are measured quantities
of which the block holds no input: `iL`, `iF`, `pL`, `hm` (assumption 5). -/
def powerResult (s : State) (iL iF hm : Nat) (pL : Qty) : List Byte :=
  let w := s.pow
  let a := bitN w.pwrA.valid 0 + bitN w.pwrB.valid 1 + bitN (xor w.pwrA.valid w.pwrB.valid) 2 + bitN w.fldLow 3 +
    bitN w.fldOver 4 + bitN w.vbakLow 5 + bitN w.holdupLow 6 + bitN w.charged 7
  let b := bitN w.chamRestored 0 + bitN w.imgFallback 1 + bitN w.noImage 2 + bitN w.factoryBad 3 + bitN w.gnssFault 4 +
    bitN w.resetLanes 5 + bitN w.overTemp 6
  leBytes 1 w.state.code ++ leBytes 1 w.reset ++ leBytes 1 w.bootKind ++ leBytes 1 a ++ leBytes 1 b ++ leBytes 1 w.slot ++
    leBytes 1 (maskBools (s.lanes.list.map (·.powered))) ++ leBytes 1 w.shutFound ++
    leBytes 2 w.pwrA.mv ++ leBytes 2 w.pwrB.mv ++ leBytes 2 w.fld.mv ++ leBytes 2 w.vbak.mv ++
    leBytes 2 iL ++ leBytes 2 iF ++ f32Bytes (Config.f32 pL) ++ leBytes 2 w.holdupPct ++ leBytes 2 hm ++
    f32Bytes (Config.f32 w.tBase) ++ leBytes 4 w.opSec ++ leBytes 4 w.cycles ++ leBytes 4 w.rides ++
    leBytes 2 (recentRestarts s).length ++ leBytes 2 w.watchdog ++ leBytes 4 ((s.mono - w.since) / 1000) ++ leBytes 4 w.bootMs ++
    leBytes 4 (frame32 s) ++ zeros 4

/-- The POWER_STATUS result taken at a frame boundary. -/
def snapPower (s : State) : State :=
  let (iL, s) := takeNat s
  let (iF, s) := takeNat s
  let (hm, s) := takeNat s
  let (pL, s) := takeQty s
  { s with host.pwSnap := powerResult s iL iF hm pL }

/-- POWER_STATUS (0x0E01). -/
def powerStatusSpec : OpSpec :=
  { without := fun _ => true, run := fun _ _ s => { status := 0, result := s.host.pwSnap, state := s } }

/-- POWER_STATUS (R446). -/
def execPowerStatus (p : Packet) (s : State) : Host.Outcome State Fault Refusal :=
  .next (processPacket (some powerStatusSpec) { p with opcode := 0x0E01 } s)

/-- The delivered thrust of every thruster is below 1 % of its T_max (R436). -/
def thrustLow (s : State) : Bool :=
  (List.range 32).all (fun t => match thrCfg s t with
    | none => true
    | some c => decide (absQ (s.alloc.thr.getD t {}).delT * 100 < c.tMax))

/-- The state that an operation asks for is the present one (R64). -/
def powerAlready (s : State) (op : Nat) : Bool :=
  (op = 1 && s.pow.state == .active) || (op = 2 && s.pow.state == .commissioning) || (op = 3 && s.pow.state == .ready)

/-- The conditions of R436, R445 and R446 hold. -/
def powerAllowed (s : State) (op : Nat) : Bool :=
  match op with
  | 1 => drives s && (s.pow.state == .ready || s.pow.state == .commissioning) && imageActive s && decide (2 ≤ nServing s)
      && !s.cons.alarm && s.sb.state == .run
  | 2 => drives s && s.pow.state == .ready && imageActive s
  | 3 => s.pow.state == .commissioning || s.pow.state == .safeStop
      || (s.pow.state == .active && s.set.mode == .standbyHold && thrustLow s)
  | 4 => s.pow.state != .active && s.pow.state != .safeStop
  | _ => true

/-- The code of the state that an operation asks for; 0xFF for a read. -/
def powerTarget (op : Nat) : Nat :=
  match op with
  | 1 => 6
  | 2 => 4
  | 3 => 5
  | 4 => 3
  | _ => 0xFF

/-- POWER_MODE (0x0E02). -/
def powerModeSpec : OpSpec :=
  { auth := fun p => match fieldByte p.payload 0 with
      | 1 | 3 => 1
      | 2 | 4 => 2
      | _ => 0
    without := fun _ => true
    role := fun s p => !(fieldByte p.payload 0 == 1 || fieldByte p.payload 0 == 2) || drives s
    len := fun _ p => p.payload.length == 4
    run := fun _ p s =>
      let op := fieldByte p.payload 0
      let res (f : Nat) : List Byte := leBytes 1 s.pow.state.code ++ leBytes 1 (powerTarget op) ++ zeros 2 ++ leBytes 4 f
      if 4 < op then fail 0x0013 s
      else if op = 0 || powerAlready s op then { status := 0, result := res 0, state := s }
      else if !powerAllowed s op then fail 0x0021 s
      else { status := 1, result := res (effectFrame s), state := defer (.power op) s } }

/-- POWER_MODE (R446). -/
def execPowerMode (p : Packet) (s : State) : Host.Outcome State Fault Refusal :=
  .next (processPacket (some powerModeSpec) { p with opcode := 0x0E02 } s)

/-- A POWER_MODE takes effect at its boundary (R434 to R436, R440, R445): the conditions must still hold. -/
def applyPower (op : Nat) (s : State) : State :=
  if powerAlready s op || !powerAllowed s op || !runState s && op != 4 then s
  else match op with
    | 1 => applyMode .standbyHold 0 { changeState .active 1 s with alloc.cold := true }
    | 2 => changeState .commissioning 1 s
    | 3 => changeState .ready 1 (abortCheck (endInjection 3 s))
    | 4 => bootFrom 2 s.cons.home true true { s with pow.shutdown := 3 }
    | _ => s

end Sys2Proof.Machine
end

