-- ==== Sys2Proof/Machine/Takeover.lean ====
section
/-! DEFINITION. Takeover and planned transfer (chapter 11): Boot from Layover, the restore of a checkpoint, the first frame of
the new Lead, CAPTURE of its islands, and the phases of a transfer. -/

namespace Sys2Proof.Machine

/-! ### Start (R355, R357 phase 1) -/

/-- What a Boot gives back to the image (R66, R69, R94, R122): the counters at zero, the leap-second table, the time and GNSS
settings. -/
def bootSettings (s : State) : State :=
  gnssSettings s.image.gnss (timeFromImage { clearCounters s with time.leap := s.image.time.leap })

/-- Lanes and islands powered, the hot fix started, the recorder's START and BOOT records: a Boot from Layover begins (R355,
R439, R404). Junction blocks out of service come back (R335). -/
def beginTake (reason : Nat) (s : State) : State :=
  let s := bootSettings (closeAll (changeState .boot reason (handshake s)))
  let s := endInjection 7 (abortCheck s)
  let s := startHotfix (dispFromImage { s with
    disp.frames := 0
    pow.reset := 5
    pow.bootKind := 1
    pow.bootAt := s.mono
    pow.shutFound := s.pow.shutdown
    pow.chamRestored := false
    jx := { eccCount := s.jx.eccCount }
    pow.portsOff := false
    pow.pcieL1 := false
    pow.resetLanes := false
    lanes := s.lanes.map (fun x => { x with powered := true })
    isl := s.isl.map (fun i => { resetIsl i.cfg i with powered := !(regulating i) })
    host.scratch := 0
    host.route := List.replicate 48 0
    host.evtCfg := 0
    cons.restored := false
    cons.resumed := none
    cons.takeoverCold := false
    cons.goodFrames := 0
    cons.shadowFrames := 0 })
  logJ 1 1 (leBytes 1 5 ++ leBytes 1 1 ++ leBytes 1 s.pow.slot) (bootRecorder 1 s)

/-- The Lead's heartbeat announces a planned transfer (R357). -/
def leadTransfers (s : State) : Bool := present s s.cons.lead && (leadHb s).role == 1 && (leadHb s).flags.testBit 3

/-- TAKEOVER_START (R355, R357): the start signal S, or PREPARE of a planned transfer. -/
def execTakeoverStart (s : State) : Host.Outcome State Fault Refusal :=
  .next (if s.cons.role != .layover || s.pow.state != .layover then s
  else if s.cons.startAt.isSome then beginTake 5 { s with cons.phase := 0 }
  else if leadTransfers s && takeoverReady s && s.cons.phase = 0 then
    beginTake 6 { s with cons.phase := 1, cons.prepFrame := (leadHb s).delta, cons.outgoing := false }
  else s)

/-! ### Restore (R354) -/

/-- The newest complete full image: from SRAM, else from a valid MRAM slot (R354, R444). -/
def newestFull (s : State) : Option FullImg :=
  match s.cons.full with
  | some f => some f
  | none => (s.cons.mramFull.filterMap id).foldl (fun (m : Option FullImg) f => match m with
    | none => some f
    | some g => if g.fast.frame ≤ f.fast.frame then some f else some g) none

/-- The fast state restored with a full image: the newest delta not older than it, else its own (R354). -/
def newestFast (s : State) (f : FullImg) : Fast :=
  match s.cons.deltas with
  | d :: _ => if f.fast.frame ≤ d.frame then d else f.fast
  | [] => f.fast

/-- The reference states of a delta on the references of a full image (Table 11-7). -/
def withFast (fs : List RefFast) (r : RefSt) : RefSt :=
  { r with refs := r.refs.mapIdx (fun i u => match fs[i]? with
      | none => u
      | some x => { u with state := x.state, fusion := x.fusion, probation := x.probation, proven := x.proven, excluded := x.excluded }) }

/-- The command writes in force at the Lead (R94, R122, Table 11-7); those of R259 and R299 are part of the allocation and the
channel configurations. -/
def restoreWrites (g : Slow) (s : State) : State := timeFrom g.time (gnssSettings g.gnss s)

/-- Fast and slow state come into force (R354, Table 11-7). -/
def restoreFrom (f : Fast) (g : Slow) (s : State) : State :=
  let s := restoreWrites g s
  { s with
    set := f.set
    obs := { f.obs with traj := g.traj }
    fus := f.fus
    ref := withFast f.refs g.ref
    ctl := { axes := g.axes.mapIdx (fun a x => { x with integ := f.integ.getD a 0, phi := f.phi.getD a 0 }), banks := g.banks,
             active := g.active, activeLoop := g.active, loops := f.loops }
    alloc := f.alloc
    isl := s.isl.mapIdx (fun ch i => match g.cfgs[ch]? with
      | some c =>
        let i := configure c i
        match f.hart[ch]? with
        | some h => { i with md := h.md, mdNext := h.mdNext, bursts := h.bursts, hartErrors := h.errors }
        | none => i
      | none => i)
    cons.restored := true
    cons.resumed := some f.modState }

/-- A start without a checkpoint, as after a Boot from Off: the observer in INIT, Standby-Hold, Ready (R354). -/
def restoreCold (s : State) : State :=
  let s := { s with set := {}, obs := {}, fus := {}, ref := {}, ctl := {}, alloc := {} }
  let s := banksFromImage (allocFromImage (refsFromImage { s with obs.waveT := s.image.fusion.waveTw }))
  { s with cons.restored := true, cons.resumed := some 5, cons.takeoverCold := true }

/-- The restore of R354 with what this module holds. -/
def restore (s : State) : State :=
  match newestFull s with
  | some f => restoreFrom (newestFast s f) f.slow s
  | none => restoreCold s

/-- TAKEOVER_RESTORE (R354, R355): the image is loaded and the checkpoint restored; a lane that fails its Boot self-test is
excluded. The hold-up store and VBAK are tested as at every Boot (R430, Table 15-1). A planned transfer enters SHADOW (R357). -/
def execTakeoverRestore (x : RestoreIn) (s : State) : Host.Outcome State Fault Refusal :=
  .next (if s.pow.state == .boot && s.pow.bootKind = 1 && !s.cons.restored then
    let s := testVbak x.vbakMv (measureHoldup x.holdupPct (restore s))
    let s := { s with cons.phase := if s.cons.phase = 1 then 2 else s.cons.phase, cons.bootOk := x.lanesOk.list.all id }
    lanesAll.foldl (fun s l => if x.lanesOk.get l then s else excludeLane l 10 s) s
  else s)

/-! ### First frame (R355, R357 phase 3) -/

/-- A module state by its number. -/
def modStateOf (n : Nat) : ModState :=
  match n with
  | 4 => .commissioning
  | 6 => .active
  | 7 => .safeStop
  | _ => .ready

/-- The state in which the new Lead resumes (R355, R356): Safe-Stop in place of Active while its signal box is not in RUN. -/
def resumeState (s : State) : ModState :=
  let m := modStateOf (s.cons.resumed.getD 5)
  if (m == .active || m == .safeStop) && s.sb.state != .run then .safeStop else m

/-- Frames from the restored checkpoint to the frame that now begins, less the one that every frame propagates. -/
def framesSince (s : State) : Nat :=
  let f := match newestFull s with
    | some g => newestFast s g
    | none => {}
  (s.tt.bSec * 1000000000 + s.tt.bNs - (f.sec * 1000000000 + f.ns)) / 10000000 - 1

/-- The lanes that passed their tests enter service. -/
def lanesEnter (s : State) : State :=
  { s with lanes := s.lanes.map (fun x => match x.state with
      | .unpowered => { x with state := .inService, changed := frame32 s }
      | _ => x) }

/-- The new Lead's first frame (R355, R356): role, epoch, resumed state; allocation starts COLD and the observer propagates
over the elapsed time. -/
def takeLead (reason : Nat) (s : State) : State :=
  let s := deliverHotfix (lanesEnter s)
  let s := setRole .lead { s with cons.epoch := s.cons.epoch + 1, cons.lead := s.cons.addr, cons.leadLostAt := none, cons.layover := 0, cons.arbOut := false
                                  cons.arbRefused := false
                                  obs.elapsed := if s.cons.takeoverCold then 0 else framesSince s
                                  pow.bootMs := s.mono - s.pow.bootAt
                                  cons.takeovers := sat 16 (s.cons.takeovers + 1) }
  let m := resumeState s
  let s := changeState m reason s
  let drives := m == .active || m == .safeStop
  let s := if m == .safeStop then { s with set.mode := .standbyHold } else s
  { s with alloc.cold := true, cons.capturing := drives, cons.capLink := false, cons.capWait := !drives, cons.goodFrames := 0
           cons.captured := false, tt.nextAct := 0 }

/-- TAKEOVER_FIRST_FRAME (R355): the boundary after the one at which the input window opened, at or after S + 240 ms. -/
def execTakeoverFirstFrame (s : State) : Host.Outcome State Fault Refusal :=
  .next (if s.pow.state == .boot && s.pow.bootKind = 1 && s.cons.restored && s.cons.phase = 0 && heldFor s s.cons.startAt 240 && atBoundary s then
    takeLead 5 s
  else s)

/-! ### CAPTURE (R356) -/

/-- Every command output island is in REGULATE, CAPTURE or SAFE (R356). A resumed Ready drives none of them, and its takeover waits
for none (DESIGN CHOICE; assumption 107). -/
def allTaken (s : State) : Bool :=
  s.pow.state == .ready ||
    s.isl.all (fun i => !isOut i.cfg || match i.cfg.role with
      | .command _ _ => i.state == .regulate || i.state == .capture || i.state == .safe
      | _ => true)

/-- Every command output island is in REGULATE or CAPTURE (R357). -/
def allCaptured (s : State) : Bool :=
  s.isl.all (fun i => !isOut i.cfg || match i.cfg.role with
    | .command _ _ => i.state == .regulate || i.state == .capture
    | _ => true)

/-- The takeover is complete (R356): its duration from S is recorded and logged, vector 36; in a transfer CAPTURED is set. -/
def takeComplete (s : State) : State :=
  let ms := match s.cons.startAt with
    | some t => sat 16 (s.mono - t)
    | none => sat 16 (s.mono - s.pow.bootAt)
  let s := { s with
    cons.takeMs := ms
    cons.capWait := false
    cons.capLink := false
    cons.captured := s.cons.phase = 3 && allCaptured s
    cons.startAt := none }
  assertVec 36 (logJ 11 6 (leBytes 2 ms ++ leBytes 1 (if s.cons.takeoverCold then 1 else 0) ++ leBytes 4 s.cons.epoch) s)

/-- TAKEOVER_CAPTURE (R356): CAPTURE, or REGULATE into SAFE, at the boundary that ends the second complete frame; and the
completion of the takeover. -/
def execTakeoverCapture (s : State) : Host.Outcome State Fault Refusal :=
  .next (if s.cons.role != .lead || !runState s then s
  else if s.cons.capturing then
    if 2 ≤ s.cons.goodFrames && atBoundary s then
      { s with cons.capturing := false, cons.capWait := true, cons.capLink := s.pow.state == .active }
    else s
  else if s.cons.capWait then (if allTaken s then takeComplete s else s)
  else if s.cons.phase = 3 && !s.cons.captured && allCaptured s then { s with cons.captured := true }
  else s)

/-! ### Planned transfer (R357, R358) -/

/-- TRANSFER_SHADOW_END (R357): at boundary T, after 10 SHADOW frames and with a full image assembled after PREPARE began, the
Layover takes the Lead from the delta of frame T − 1. -/
def execTransferShadowEnd (s : State) : Host.Outcome State Fault Refusal :=
  let fresh := match s.cons.full with
    | none => false
    | some f => decide (s.cons.prepFrame < f.fast.frame)
  .next (if s.pow.state == .boot && s.pow.bootKind = 1 && s.cons.phase = 2 && !s.cons.outgoing && 10 ≤ s.cons.shadowFrames && fresh && atBoundary s then
    { takeLead 6 (restore s) with cons.phase := 3 }
  else s)

/-- The points of an island go to THROUGH at once, and it loses its power. -/
def islandThrough (i : Isl) : Isl :=
  if regulating i then { i with state := .through, driven := 0xFFFF, linkCmd := .through, powered := false, capMoving := none }
  else { i with linkCmd := .through, powered := false }

/-- TRANSFER_RELEASE (R357 phase 4): CAPTURED received, the outgoing module commands THROUGH and becomes Layover; what its
lanes have still to log is staged first. -/
def execTransferRelease (s : State) : Host.Outcome State Fault Refusal :=
  .next (if s.cons.role == .transferring && s.cons.outgoing && (leadHb s).flags.testBit 5 then
    let s := endInjection 7 (abortCheck s)
    let s := stagePending s.log.lanePend.length s
    let s := { s with isl := s.isl.map islandThrough, cons.phase := 0, cons.outgoing := false, cons.layover := s.cons.addr }
    enterLayover 6 (setRole .layover s)
  else s)

/-- A planned transfer must end at the outgoing Lead before T (R358). -/
def outgoingAborts (s : State) : Bool :=
  s.cons.outgoing && s.cons.role == .lead && (s.cons.phase = 1 || s.cons.phase = 2) &&
    (!layoverReady s || s.cons.ringState = 2 || s.pow.state != .active || !bothRun s)

/-- A planned transfer must end at the Layover before T (R358): the Lead no longer announces it, or a condition fails. -/
def incomingAborts (s : State) : Bool :=
  !s.cons.outgoing && s.cons.role == .layover && s.pow.state == .boot && s.pow.bootKind = 1 && (s.cons.phase = 1 || s.cons.phase = 2) &&
    (!leadTransfers s || !takeoverReady s || s.cons.ringState = 2 || s.sb.state != .run || !(leadHb s).flags.testBit 4)

/-- TRANSFER_ABORT (R358): the outgoing Lead goes on; the Layover powers down its lanes. A Lead lost meanwhile gives S under
NONE (R349). -/
def execTransferAbort (s : State) : Host.Outcome State Fault Refusal :=
  .next (if outgoingAborts s then abortTransfer s
  else if incomingAborts s then
    let s := assertVec 36 (logJ 11 8 (leBytes 1 2 ++ leBytes 1 s.cons.phase)
      { s with cons.phase := 0, cons.restored := false, pow.bootMs := s.mono - s.pow.bootAt })
    let s := enterLayover 6 s
    if s.cons.leadLostAt.isSome && s.image.consist.arbitration = 0 then
      { s with cons.startAt := some s.mono, cons.startSec := s.time.sec } else s
  else s)

end Sys2Proof.Machine
end

