-- ==== Sys2Proof/Machine/Host.lean ====
section
/-! DEFINITION. The command interface (chapter 12): how command packets arrive (UDP, submission queues, the ring), sessions
and result slots, the registers that a host writes, the system and image opcodes, and host service with its opcode index.
The checks of a packet in processing stand in Operands.lean. -/

namespace Sys2Proof.Machine

/-! ### Arrival (R361 to R364, R368 steps 1 to 4) -/

/-- A reply of the junction die at arrival; NO_REPLY suppresses it (R368). -/
def refuseAtArrival (p : Packet) (status : Nat) (s : State) : State := if noReply p then s else junctionReply p status s

/-- Where a packet goes: this module, an address of the consist, or nowhere because no Lead is known (R363). -/
inductive Route where
  | here
  | relay (k : Nat)
  | noLead
deriving DecidableEq, Repr

/-- The route of a packet (R363): by the session's address, or by the target of an OPEN_SESSION with session 0. An Isolated
module is the Lead of its own consist (assumption 33). -/
def routeOf (s : State) (p : Packet) : Route :=
  let at_ (k : Nat) : Route := if k = 0 || k = s.cons.addr then .here else .relay k
  if p.session = 0 then
    if p.opcode = 0x0103 then
      let t := fieldByte p.payload 1
      if t = 0xFF then
        (if s.cons.role == .isolated then .here else if s.cons.lead = 0 then .noLead else at_ s.cons.lead)
      else if t ≤ 4 then at_ t
      else .here
    else .here
  else at_ (p.session / 2 ^ 28 % 16)

/-- The share of a frame set that command packets may take (R364). -/
def cmdShare : Nat := 49152

/-- A packet for this module joins the frame set, within the share (R28, R364). -/
def joinSet (link : Nat) (p : Packet) (s : State) : State :=
  let n := p.wireSize + 20
  if cmdShare < s.inp.cmdBytes + n then refuseAtArrival p 0x0022 { s with host.refused := sat 16 (s.host.refused + 1) }
  else addRecord { link, quality := qualityByte s, stampNs := nowNs s + ingress s link, doneNs := nowNs s, length := p.wireSize, data := .packet p }
    { s with inp.cmdBytes := s.inp.cmdBytes + n }

/-- A packet relayed to another module (R363): charged to the command relay class, or to the image class for a chunk. -/
def relayTo (k : Nat) (p : Packet) (s : State) : State :=
  if !present s k then refuseAtArrival p 0x0030 s
  else if 64 ≤ s.host.relays.length then refuseAtArrival p 0x0022 s
  else
    sendRing { cls := relayClass p.opcode, bytes := p.wireSize, cargo := .ring (.relay p) k false }
      { s with host.relays := s.host.relays ++ [{ session := p.session, tag := p.tag, src := p.src, at_ := s.mono }] }

/-- The transport size is consistent (step 1). -/
def sizeOk (p : Packet) : Bool := p.wireSize == 20 + p.length && decide (p.length ≤ 4080) && p.payload.length == p.length

/-- A packet arrives at its entry module: checks 1 to 4 (Table 12-4). -/
def arrivePacket (link : Nat) (p : Packet) (s : State) : State :=
  if !sizeOk p then refuseAtArrival p 0x0011 s
  else if !p.crcOk then junctionReply p 0x0012 { s with host.badCrc := sat 16 (s.host.badCrc + 1) }
  else match routeOf s p with
    | .here => joinSet link p s
    | .relay k => relayTo k p s
    | .noLead => refuseAtArrival p 0x0030 s

/-- The command service of a port. -/
def cmdPort (s : State) (port : Nat) : CmdPort := s.image.cmd.ports.getD port {}

/-- A source address is admitted (R362). -/
def sourceOk (c : CmdPort) (ip : Nat) : Bool := c.ranges.isEmpty || c.ranges.any (fun r => decide (r.1 ≤ ip) && decide (ip ≤ r.2))

/-- COMMAND_DATAGRAM (R362, R368). -/
def execCommandDatagram (port : Nat) (d : Datagram) (s : State) : Host.Outcome State Fault Refusal :=
  let c := cmdPort s port
  .next (if !junctionUp s || !portUp s port || !c.service then s
  else match d with
    | .arp ip | .echo ip _ =>
      if ip = c.ip then { s with host.arpEcho := s.host.arpEcho + 1, host.netOut := some (port, d) } else s
    | .udp srcIp srcPort dstPort fragment p =>
      if fragment || dstPort ≠ s.image.cmd.udpPort then s
      else if !sourceOk c srcIp then { s with host.unlisted := sat 16 (s.host.unlisted + 1) }
      else if c.mtu < p.wireSize + 28 then s
      else arrivePacket port { p with src := .udp port srcIp srcPort } s)

/-- A command packet from the ring at its target (R363, R368): a bad CRC is only discarded. -/
def arriveRelayed (east : Bool) (p : Packet) (entry : Nat) (s : State) : State :=
  let p := { p with src := .relay entry }
  if !sizeOk p then refuseAtArrival p 0x0011 s
  else if !p.crcOk then s
  else joinSet (if east then 12 else 13) p s

/-- A reply that the ring brings back to the entry module: its record is closed, and it leaves on the transport on which the
packet arrived (R363). -/
def returnReply (b : List Byte) (s : State) : State :=
  let tag := fieldNat b 2 2
  let session := fieldNat b 8 4
  match s.host.relays.find? (fun r => r.tag == tag && r.session == session) with
  | none => s
  | some r =>
    let o : OutPkt :=
      { id := s.host.nextId, dst := r.src, queue := fieldByte b 4, opcode := fieldNat b 0 2, tag, session,
        sequence := fieldNat b 12 4, status := fieldNat b 16 2, reads := fieldNat b 18 2,
        result := (b.drop 20).take (b.length - 24) }
    sendOut o { s with
      host.nextId := s.host.nextId + 1
      host.relays := s.host.relays.erase r
      host.replies := b :: s.host.replies }

/-- RELAY_RECORD_EXPIRY (R363): no reply for 1 s. -/
def execRelayRecordExpiry (index : Nat) (s : State) : Host.Outcome State Fault Refusal :=
  .next (match s.host.relays[index]? with
  | none => s
  | some r => if r.at_ + 1000 ≤ s.mono then { s with host.relays := s.host.relays.eraseIdx index } else s)

/-! ### Queues and registers (R380 to R386) -/

/-- One queue changed. -/
def onQueue (q : Nat) (f : QueueSt → QueueSt) (s : State) : State := { s with host.queues := s.host.queues.modify q f }

/-- A queue. -/
def queueOf (s : State) (q : Nat) : QueueSt := s.host.queues.getD q {}

/-- The packets fetched arrive in order, each with its submission entry. -/
def fetchAll (q : Nat) (f : FetchIn) (n : Nat) (s : State) : State :=
  let first := (queueOf s q).sqHead
  (List.range n).foldl (fun s i => match f.packets[i]? with
    | none => s
    | some p =>
      let rl := match p.src with
        | .pcie _ _ r => r
        | _ => 65535
      arrivePacket 46 { p with src := .pcie q ((first + i) % ringSize (queueOf s q)) rl } s) s

/-- QUEUE_DOORBELL (R383): every entry up to the new tail is fetched and stamped; a bad tail, a DMA fault or an entry of bad
length stops the queue. -/
def execQueueDoorbell (queue tail : Nat) (f : FetchIn) (s : State) : Host.Outcome State Fault Refusal :=
  let x := queueOf s queue
  let t := tail % 256
  .next (if !junctionUp s || 32 ≤ queue || blockDown s 4 0 || !x.enable || x.error != 0 then s
  else if ringSize x ≤ t then onQueue queue (fun x => { x with error := 1 }) s
  else
    let n := (t + ringSize x - x.sqHead) % ringSize x
    let got := if f.dmaFault || f.entryLenBad then min n f.packets.length else n
    let s := onQueue queue (fun x => { x with sqHead := (x.sqHead + got) % ringSize x }) (fetchAll queue f got s)
    if f.dmaFault then onQueue queue (fun x => { x with error := 2 }) s
    else if f.entryLenBad then onQueue queue (fun x => { x with error := 3 }) s
    else s)

/-- A write to Q_CTRL (R382, R383): setting ENABLE starts the rings afresh; [7:4] is ignored while ENABLE is set. -/
def writeCtrl (value : Nat) (x : QueueSt) : QueueSt :=
  let on := value.testBit 0
  if x.enable then { x with enable := on }
  else if on then
    { x with enable := true, log2 := value / 16 % 16, sqHead := 0, cqTail := 0, cqHead := 0, phase := true, full := false, error := 0,
             waiting := [], written := [] }
  else { x with log2 := value / 16 % 16 }

/-- QUEUE_ENABLE (R383). -/
def execQueueEnable (queue value : Nat) (s : State) : Host.Outcome State Fault Refusal :=
  .next (if junctionUp s && queue < 32 && pcieUp s then onQueue queue (writeCtrl value) s else s)

/-- Waiting completions written while the ring has room (R384). -/
def drainWaiting : Nat → QueueSt → QueueSt
  | 0, x => x
  | n + 1, x =>
    match x.waiting with
    | [] => x
    | (o, len) :: rest => if cqIsFull x then x else drainWaiting n (putCompletion o len { x with waiting := rest })

/-- The host has consumed completions up to the new head (R384). -/
def takeHead (value : Nat) (x : QueueSt) : QueueSt :=
  let y := drainWaiting 64 { x with cqHead := value % 256 }
  { y with full := cqIsFull y }

/-- COMPLETION_HEAD_WRITE (R384). -/
def execCompletionHeadWrite (queue value : Nat) (s : State) : Host.Outcome State Fault Refusal :=
  .next (if junctionUp s && queue < 32 && pcieUp s then onQueue queue (takeHead value) s else s)

/-- Pending bits cleared by a write of ones (R385). -/
def clearPend (high : Bool) (value : Nat) (s : State) : State :=
  { s with host.pend := s.host.pend.mapIdx (fun v b =>
      if (decide (32 ≤ v) == high) && value.testBit (v % 32) then false else b) }

/-- VEC_PEND_CLEAR (R385, R386). -/
def execVecPendClear (high : Bool) (value : Nat) (s : State) : Host.Outcome State Fault Refusal :=
  .next (if junctionUp s && pcieUp s then clearPend high value s else s)

/-- VEC_TEST (R386): vectors 0 to 47. -/
def execVecTest (value : Nat) (s : State) : Host.Outcome State Fault Refusal :=
  .next (if junctionUp s && pcieUp s && value % 64 < 48 then assertVec (value % 64) s else s)

/-- One half of a 64-bit ring address written; the low half is 64-byte aligned. -/
def writeHalf (high : Bool) (value old : Nat) : Nat :=
  if high then value % 2 ^ 32 * 2 ^ 32 + old % 2 ^ 32 else old / 2 ^ 32 * 2 ^ 32 + value % 2 ^ 32 / 64 * 64

/-- A write into a queue's registers (Table 12-8): base registers are ignored while ENABLE is set. -/
def writeQueueReg (off value : Nat) (x : QueueSt) : QueueSt :=
  match off with
  | 0x00 => if x.enable then x else { x with sqBase := writeHalf false value x.sqBase }
  | 0x04 => if x.enable then x else { x with sqBase := writeHalf true value x.sqBase }
  | 0x08 => if x.enable then x else { x with cqBase := writeHalf false value x.cqBase }
  | 0x0C => if x.enable then x else { x with cqBase := writeHalf true value x.cqBase }
  | 0x10 => writeCtrl value x
  | 0x18 => takeHead value x
  | _ => x

/-- A vector whose mask has gone sends the message that waited in the pending bit array (PCIe standard format; assumption 108). -/
def unmask (v : Nat) (s : State) : State :=
  if s.host.pba.getD v false && !msixMasked s v then
    { s with host.pba := s.host.pba.set v false, host.msix := s.host.msix.modify v (· + 1) }
  else s

/-- A word of the MSI-X table stored. -/
def writeMsix (k value : Nat) (s : State) : State :=
  let old := fun (i : Nat) => s.host.msixTable.getD i (if i % 4 = 3 then 1 else 0)
  unmask (k / 4) { s with host.msixTable := (List.range 192).map (fun i => if i = k then value % 2 ^ 32 else old i) }

/-- What a write of a 32-bit value to a register does (R6, R380): writable registers store it, read-only and reserved ones are
not affected. The registers whose write is a command of its own act as that command; a doorbell carries no entries here. -/
def writeReg (off value : Nat) (s : State) : State :=
  if 0x0100 ≤ off && off < 0x0500 then onQueue ((off - 0x100) / 32) (writeQueueReg ((off - 0x100) % 32) value) s
  else if 0x0800 ≤ off && off < 0x08C0 then
    if off % 4 = 0 then { s with host.route := s.host.route.set ((off - 0x800) / 4) (value % 256) } else s
  else if 0x8000 ≤ off && off < 0x8300 then (if off % 4 = 0 then writeMsix ((off - 0x8000) / 4) value s else s)
  else match off with
    | 0x0048 => { s with host.scratch := value % 2 ^ 32 }
    | 0x08C0 => clearPend false value s
    | 0x08C4 => clearPend true value s
    | 0x08C8 => { s with host.evtCfg := value % 2 ^ 16 }
    | 0x08D0 => if value % 64 < 48 then assertVec (value % 64) s else s
    | 0x1000 =>
      match value % 8 with
      | 1 => beginLoad (fun c => c) s
      | 2 => beginLoad (fun c => c + 1) s
      | 4 => beginLoad (fun c => c + (2 ^ 32 - 1)) s
      | _ => s
    | 0x1004 => { s with log.cursor := value % 2 ^ 32 }
    | 0x2000 => if value.testBit 0 then latchSnap s else s
    | _ => s

/-- REGISTER_WRITE (R6, R380): BAR0 is 64 KiB, and there is nothing beyond it. -/
def execRegisterWrite (offset value : Nat) (s : State) : Host.Outcome State Fault Refusal :=
  if 65536 ≤ offset then .fault (.outsideBar0 offset)
  else .next (if junctionUp s && !blockDown s 4 0 then writeReg offset value s else s)

/-! ### Sessions (R369 to R373) -/

/-- The credential that signs an OPEN_SESSION covers the level (R370). While no image is active every level is granted. -/
def levelGranted (s : State) (p : Packet) : Bool :=
  let level := fieldByte p.payload 0
  if level = 0 || 2 < level || !imageActive s then true
  else if !p.flags.testBit 2 || p.payload.length ≠ 108 then false
  else
    let header := leBytes 2 p.opcode ++ leBytes 2 p.tag ++ leBytes 1 p.queue ++ leBytes 1 p.flags ++ leBytes 2 p.length ++
      leBytes 4 p.session ++ leBytes 4 p.sequence
    let tSign := fieldNat p.payload 16 8
    match s.image.cmd.creds[fieldByte p.payload 40]? with
    | none => false
    | some (top, key) =>
      decide (level ≤ top) && (s.time.state = 0 || (decide (s.time.sec ≤ tSign + 30) && decide (tSign ≤ s.time.sec + 30))) &&
        Config.ecdsaP256 key (header ++ p.payload.take 24) ((p.payload.drop 44).take 64)

/-- The first free session slot. -/
def freeSession (s : State) : Option Nat := (List.range 8).find? (fun k => (s.host.sessions.getD k none).isNone)

/-- A session value (R369). -/
def sessionValue (s : State) (k : Nat) : Nat :=
  let a := if s.cons.role == .isolated then 0 else s.cons.addr
  let v := a * 2 ^ 28 + k * 2 ^ 24 + s.tt.frame % 2 ^ 24
  if v = 0 then 1 else v

/-- The OPEN_SESSION result. -/
def openResult (s : State) (k : Nat) (x : Session) : List Byte :=
  leBytes 4 x.value ++ leBytes 1 x.authority ++ leBytes 1 k ++ leBytes 2 x.maxPacket ++ leBytes 2 x.timeoutS ++ zeros 2 ++
    leBytes 4 (frame32 s)

/-- The same source address (R371): the IP address of a UDP packet, the host of the PCIe queues, the entry module of a
relayed packet. The UDP port and the place in the submission queue are not part of it (assumption 117). -/
def sameSource (a b : Src) : Bool :=
  match a, b with
  | .udp _ x _, .udp _ y _ => x == y
  | .pcie _ _ _, .pcie _ _ _ => true
  | .relay x, .relay y => x == y
  | _, _ => false

/-- A session opened in the last 10 s with the same nonce and source address (R371). -/
def sameOpen (s : State) (nonce : Nat) (src : Src) : Option (Nat × Session) :=
  (List.range 8).findSome? (fun k => match s.host.sessions.getD k none with
    | none => none
    | some x => if x.nonce == nonce && sameSource x.origin src && decide (s.mono < x.openedAt + 10000) then some (k, x) else none)

/-- A new session in slot `k`. -/
def newSession (s : State) (k : Nat) (p : Packet) : Session :=
  let b := p.payload
  let mp := fieldNat b 2 2
  let t := fieldNat b 4 2
  { value := sessionValue s k, authority := fieldByte b 0, maxPacket := if mp = 0 then 4100 else mp
    timeoutS := if t = 0 then s.image.cmd.timeoutS else t, nonce := fieldNat b 8 8, src := p.src, origin := p.src
    openedAt := s.mono, lastAt := s.mono, seq := p.sequence, name := (b.drop 24).take 16 }

/-- OPEN_SESSION (0x0103). -/
def openSessionSpec : OpSpec :=
  { authNow := fun s p => if levelGranted s p then 0 else 3
    without := fun _ => true
    len := fun _ p => p.payload.length == (if p.flags.testBit 2 then 108 else 40)
    run := fun _ p s =>
      let b := p.payload
      let nonce := fieldNat b 8 8
      let mp := fieldNat b 2 2
      let t := fieldNat b 4 2
      let auth := p.flags.testBit 2
      if 2 < fieldByte b 0 || (4 < fieldByte b 1 && fieldByte b 1 ≠ 0xFF) then fail 0x0013 s
      else if (mp ≠ 0 && (mp < 576 || 4100 < mp)) || (t ≠ 0 && (t < 5 || s.image.cmd.timeoutS < t)) then fail 0x0014 s
      else match sameOpen s nonce p.src with
        | some (k, x) => { status := 3, result := openResult s k x, state := s }
        | none =>
          let recent := s.host.nonces.filter (fun n => decide (s.mono < n.2 + 60000))
          if auth && recent.any (fun n => n.1 == nonce) then fail 0x0031 s
          else match freeSession s with
            | none => fail 0x0030 s
            | some k =>
              let x := newSession s k p
              let s := { s with host.sessions := s.host.sessions.set k (some x)
                                host.nonces := if auth then (nonce, s.mono) :: recent else recent }
              { status := 0, result := openResult s k x
                state := logJ 12 1 (leBytes 1 k ++ leBytes 1 1 ++ leBytes 1 x.authority ++ fitBytes 16 x.name) s } }

/-- OPEN_SESSION (R369 to R371). -/
def execOpenSession (p : Packet) (s : State) : Host.Outcome State Fault Refusal :=
  .next (processPacket (some openSessionSpec) { p with opcode := 0x0103 } s)

/-- CLOSE_SESSION (0x0104). -/
def closeSessionSpec : OpSpec :=
  { without := fun _ => true, run := fun k _ s => { status := 0, state := closeSession k 2 s } }

/-- CLOSE_SESSION (R372). -/
def execCloseSession (p : Packet) (s : State) : Host.Outcome State Fault Refusal :=
  .next (processPacket (some closeSessionSpec) { p with opcode := 0x0104 } s)

/-- SESSION_TIMEOUT (R372): at a frame boundary, no packet accepted for the session's timeout. -/
def execSessionTimeout (slot : Nat) (s : State) : Host.Outcome State Fault Refusal :=
  .next (match s.host.sessions.getD slot none with
  | none => s
  | some x => if junctionUp s && atBoundary s && x.lastAt + 1000 * x.timeoutS ≤ s.mono then closeSession slot 3 s else s)

/-! ### Result slots (R374 to R378) -/

/-- One result slot of a session changed. -/
def onSlot (k tag : Nat) (f : Slot → Slot) (s : State) : State :=
  onSession k (fun x => { x with slots := x.slots.map (fun t => if t.tag == tag then f t else t) }) s

/-- GET_RESULT (0x0105). -/
def getResultSpec : OpSpec :=
  { without := fun _ => true
    len := fun _ p => p.payload.length == 4
    run := fun k p s =>
      let tag := fieldNat p.payload 0 2
      match (s.host.sessions.getD k none).bind (fun x => slotOf x tag) with
      | none => fail 0x0013 s
      | some t =>
        if !t.done then { status := 2, reads := t.reads, state := s }
        else
          { status := if t.reads = 0 then 0 else 3
            reads := sat 16 (t.reads + 1)
            result := leBytes 2 t.tag ++ leBytes 2 t.opcode ++ leBytes 2 t.status ++ zeros 2 ++ t.result
            state := onSlot k tag (fun t => { t with reads := sat 16 (t.reads + 1) }) s } }

/-- GET_RESULT (R376). -/
def execGetResult (p : Packet) (s : State) : Host.Outcome State Fault Refusal :=
  .next (processPacket (some getResultSpec) { p with opcode := 0x0105 } s)

/-- ACK_RESULT (0x0106). -/
def ackResultSpec : OpSpec :=
  { without := fun _ => true
    len := fun _ p => p.payload.length == 2 + 2 * fieldByte p.payload 0
    run := fun k p s =>
      let n := fieldByte p.payload 0
      let tags := (List.range n).map (fun i => fieldNat p.payload (2 + 2 * i) 2)
      if n < 1 || 32 < n then fail 0x0014 s
      else match s.host.sessions.getD k none with
        | none => fail 0x0030 s
        | some x =>
          let freed := (x.slots.filter (fun t => tags.contains t.tag)).length
          { status := 0, result := leBytes 1 freed ++ zeros 3
            state := onSession k (fun x => { x with slots := x.slots.filter (fun t => !tags.contains t.tag) }) s } }

/-- ACK_RESULT (R377). -/
def execAckResult (p : Packet) (s : State) : Host.Outcome State Fault Refusal :=
  .next (processPacket (some ackResultSpec) { p with opcode := 0x0106 } s)

/-- COMPLETION_REPLY (R375): a completed command's reply goes to the return path of the session's newest packet. -/
def execCompletionReply (slot tag : Nat) (s : State) : Host.Outcome State Fault Refusal :=
  .next (match s.host.sessions.getD slot none with
  | none => s
  | some x =>
    match slotOf x tag with
    | none => s
    | some t =>
      if !junctionUp s || !t.done || !t.due then s
      else
        let o : OutPkt :=
          { dst := x.src, queue := t.queue, opcode := t.opcode, tag := t.tag, session := x.value, sequence := t.sequence,
            status := t.status, reads := sat 16 (t.reads + 1), result := t.result, completion := true }
        emitReply o (onSlot slot tag (fun t => { t with due := false, reads := sat 16 (t.reads + 1) }) s))

/-! ### System opcodes (R394, R395) -/

/-- PING (0x0101). -/
def pingSpec : OpSpec :=
  { without := fun _ => true
    len := fun _ p => decide (p.payload.length ≤ 4076)
    run := fun _ p s => { status := 0, result := p.payload, state := s } }

/-- PING (R394). -/
def execPing (p : Packet) (s : State) : Host.Outcome State Fault Refusal :=
  .next (processPacket (some pingSpec) { p with opcode := 0x0101 } s)

/-- The active slot of IDENTITY and IMG_SLOTS; 255 without an image. -/
def activeSlot (s : State) : Nat := s.host.imgActive.getD 255

/-- The GET_IDENTITY result. -/
def identityResult (s : State) : List Byte :=
  leBytes 4 0x3128 ++ leBytes 1 Config.variant ++ leBytes 1 Config.revision ++ zeros 2 ++ leBytes 4 Config.serial ++
    leBytes 4 Config.fwRelease ++ leBytes 8 (imageDigest64 s) ++ leBytes 1 (activeSlot s) ++ leBytes 1 s.cons.addr ++
    leBytes 1 s.cons.role.code ++ zeros 1 ++ leBytes 6 Config.baseMac ++ zeros 2 ++ fitBytes 16 (ascii "Glengarum") ++
    fitBytes 12 (ascii "EVZ3128")

/-- GET_IDENTITY (0x0102). -/
def getIdentitySpec : OpSpec :=
  { without := fun _ => true, run := fun _ _ s => { status := 0, result := identityResult s, state := s } }

/-- GET_IDENTITY (R394). -/
def execGetIdentity (p : Packet) (s : State) : Host.Outcome State Fault Refusal :=
  .next (processPacket (some getIdentitySpec) { p with opcode := 0x0102 } s)

/-- Open sessions, bit k for slot k. -/
def sessionMask (s : State) : Nat := maskBools (s.host.sessions.map (·.isSome))

/-- The GET_STATE result as a frame boundary takes it (Table 12-17); the byte of the requesting session is put in at the
read. -/
def stateResult (s : State) : List Byte :=
  leBytes 1 s.pow.state.code ++ leBytes 1 (if s.pow.state == .active then s.set.mode.code else 0xFF) ++ leBytes 1 s.obs.level ++
    leBytes 1 s.cons.role.code ++ leBytes 1 s.sb.state.code ++ leBytes 1 (laneMask s) ++ leBytes 1 (qualityByte s) ++
    leBytes 1 (bitN s.fus.conflict 0 + bitN (laneDegraded s) 1 + bitN s.alloc.failing 2 + bitN s.alloc.unmet 3 + bitN (imageActive s) 4) ++
    leBytes 8 s.tt.frame ++ leBytes 8 s.tt.bSec ++ leBytes 4 s.tt.bNs ++ leBytes 1 (sessionMask s) ++ zeros 3

/-- GET_STATE (0x0107). -/
def getStateSpec : OpSpec :=
  { without := fun _ => true
    run := fun k _ s => { status := 0, result := s.host.stSnap.take 29 ++ leBytes 1 k ++ s.host.stSnap.drop 30, state := s } }

/-- GET_STATE (R394). -/
def execGetState (p : Packet) (s : State) : Host.Outcome State Fault Refusal :=
  .next (processPacket (some getStateSpec) { p with opcode := 0x0107 } s)

/-- A DP mode by its code. -/
def dpModeOf (n : Nat) : DpMode :=
  match n with
  | 1 => .joystick
  | 2 => .autoHeading
  | 3 => .autoPosition
  | 4 => .trackFollow
  | 5 => .tipHold
  | _ => .standbyHold

/-- Joystick source of an axis. -/
def joySource (s : State) (a : Nat) : Bool := (s.image.ctl.joystick.getD a none).isSome

/-- The conditions of a mode (R395). -/
def modeMet (s : State) (m : DpMode) (body : Nat) : Bool :=
  let pos := !s.obs.init && decide (s.obs.level < 3)
  match m with
  | .standbyHold => true
  | .joystick => joySource s 0 && joySource s 1 && joySource s 2
  | .autoHeading => joySource s 0 && joySource s 1 && (s.ref.votes.getD 0 {}).status != 3 && (s.ref.votes.getD 0 {}).value.isSome
  | .autoPosition => pos
  | .trackFollow => pos && !s.set.track.isEmpty
  | .tipHold => pos && (s.alloc.bodies.getD body {}).inUse && !bodyLost (s.alloc.bodies.getD body {})

/-- SET_MODE (0x0108). -/
def setModeSpec : OpSpec :=
  { auth := fun _ => 1
    role := fun s _ => drives s
    len := fun _ p => p.payload.length == 4
    run := fun _ p s =>
      let n := fieldByte p.payload 0
      let m := dpModeOf n
      let body := fieldByte p.payload 1
      let res (f : Nat) : List Byte := leBytes 1 s.set.mode.code ++ leBytes 1 n ++ zeros 2 ++ leBytes 4 f
      if 5 < n then fail 0x0013 s
      else if n = 5 && 1 < body then fail 0x0014 s
      else if s.pow.state != .active || !modeMet s m body then fail 0x0021 s
      else if s.set.mode == m && (n ≠ 5 || s.set.body = body) && !waits (.mode m body) s then { status := 0, result := res 0, state := s }
      else { status := 1, result := res (effectFrame s), state := defer (.mode m body) s } }

/-- SET_MODE (R395). -/
def execSetMode (p : Packet) (s : State) : Host.Outcome State Fault Refusal :=
  .next (processPacket (some setModeSpec) { p with opcode := 0x0108 } s)

/-! ### Image opcodes (R390 to R394) -/

/-- The slot that a transfer writes: the one that is not active (R40). -/
def targetSlot (s : State) : Nat :=
  match s.host.imgActive with
  | some k => 1 - k
  | none => 0

/-- One image slot changed. -/
def onImgSlot (k : Nat) (f : ImgSlot → ImgSlot) (s : State) : State := { s with host.slots := s.host.slots.modify k f }

/-- IMAGE_BEGIN (0x0201). -/
def imageBeginSpec : OpSpec :=
  { auth := fun _ => 2
    without := fun _ => true
    len := fun _ p => p.payload.length == 40
    run := fun k p s =>
      let n := fieldNat p.payload 0 4
      let slot := targetSlot s
      let other := match s.host.transfer with
        | none => false
        | some t => t.session != k
      if n < 4096 || 8388608 < n then fail 0x0014 s
      else if s.host.commit.isSome || other then fail 0x0022 s
      else
        { status := 0, result := leBytes 1 slot ++ zeros 3 ++ leBytes 4 0
          state := onImgSlot slot (fun x => { x with state := 1, length := n, next := 0 })
            { s with host.transfer := some { session := k, slot, length := n, digest := (p.payload.drop 8).take 32, lastAt := s.mono } } } }

/-- IMAGE_BEGIN (R390). -/
def execImageBegin (p : Packet) (s : State) : Host.Outcome State Fault Refusal :=
  .next (processPacket (some imageBeginSpec) { p with opcode := 0x0201 } s)

/-- A chunk accepted (R391): the next offset moves, and the chunk is written within the vessel image class. -/
def acceptChunk (k : Nat) (p : Packet) (t : Transfer) (off : Nat) (data : List Byte) (s : State) : Done :=
  let next := off + data.length
  let s := onImgSlot t.slot (fun x => { x with next := next, state := if next = t.length then 2 else 1 })
    { s with host.transfer := some { t with next := next, lastOff := off, lastAt := s.mono } }
  match chargeMram { cls := 2, bytes := data.length, cargo := .chunk t.slot off data (taskOf k p) } s with
  | (true, s) => { status := 0, result := leBytes 4 next, state := { s with mram := memWriteAll s.mram (imgBase t.slot + off) data } }
  | (false, s) => { status := 2, state := s }

/-- IMAGE_CHUNK (0x0202); `ok` says that the readback succeeds. -/
def imageChunkSpec (ok : Bool) : OpSpec :=
  { auth := fun _ => 2
    without := fun _ => true
    len := fun _ p => decide (8 ≤ p.payload.length) && p.payload.length == 8 + fieldNat p.payload 4 2
    run := fun k p s =>
      let off := fieldNat p.payload 0 4
      let data := p.payload.drop 8
      if data.length < 1 || 4072 < data.length then fail 0x0014 s
      else match s.host.transfer with
        | none => fail 0x0021 s
        | some t =>
          if t.session != k || s.host.commit.isSome then fail 0x0022 s
          else if !(off = t.next || (t.next ≠ 0 && off = t.lastOff)) || t.length < off + data.length then fail 0x0014 s
          else if !ok then fail 0x0041 s
          else acceptChunk k p t off data s }

/-- IMAGE_CHUNK (R391). -/
def execImageChunk (p : Packet) (readbackOk : Bool) (s : State) : Host.Outcome State Fault Refusal :=
  .next (processPacket (some (imageChunkSpec readbackOk)) { p with opcode := 0x0202 } s)

/-- IMAGE_TRANSFER_ABANDON (R390): 60 s without an accepted chunk. -/
def execImageTransferAbandon (s : State) : Host.Outcome State Fault Refusal :=
  .next (match s.host.transfer with
  | none => s
  | some t =>
    if junctionUp s && s.host.commit.isNone && t.lastAt + 60000 ≤ s.mono then
      onImgSlot t.slot (fun x => { x with state := 3 }) { s with host.transfer := none }
    else s)

/-- IMAGE_COMMIT (0x0203). -/
def imageCommitSpec : OpSpec :=
  { auth := fun _ => 2
    without := fun _ => true
    run := fun k p s =>
      let here := s.pow.state == .ready || s.pow.state == .commissioning || s.cons.role == .layover || s.cons.role == .witness
      if !here then fail 0x0021 s
      else if s.host.commit.isSome then fail 0x0022 s
      else match s.host.transfer with
        | none => fail 0x0021 s
        | some t =>
          if t.session != k then fail 0x0022 s
          else { status := 2, state := { s with host.commit := some (taskOf k p, s.mono) } } }

/-- IMAGE_COMMIT (R392). -/
def execImageCommit (p : Packet) (s : State) : Host.Outcome State Fault Refusal :=
  .next (processPacket (some imageCommitSpec) { p with opcode := 0x0203 } s)

/-- One entry of IMAGE_INFO (Table 12-15). -/
def imageEntry (s : State) (k : Nat) : List Byte :=
  let x := s.host.slots.getD k {}
  leBytes 1 k ++ leBytes 1 x.state ++ leBytes 1 x.detail ++ leBytes 1 (bitN x.keyUnchecked 0) ++ leBytes 4 x.length ++
    leBytes 4 x.next ++ imgBytes s k 96 4 ++ imgBytes s k 64 32 ++ imgBytes s k 48 8 ++ imgBytes s k 56 4 ++ imgBytes s k 12 4

/-- IMAGE_INFO (0x0204). -/
def imageInfoSpec : OpSpec :=
  { without := fun _ => true, run := fun _ _ s => { status := 0, result := imageEntry s 0 ++ imageEntry s 1, state := s } }

/-- IMAGE_INFO (R394). -/
def execImageInfo (p : Packet) (s : State) : Host.Outcome State Fault Refusal :=
  .next (processPacket (some imageInfoSpec) { p with opcode := 0x0204 } s)

end Sys2Proof.Machine
end

