-- ==== Sys2Proof/Machine/Ring.lean ====
section
/-! DEFINITION. Ring messages (chapter 11): one message received on one link is counted for its link, forwarded, kept once,
and acted on by its class and type (R338 to R341, R347, R353, R363, R118). -/

namespace Sys2Proof.Machine

/-! ### Links and copies (R338, R339) -/

/-- One ring link changed. -/
def onLink (east : Bool) (f : LinkSt → LinkSt) (s : State) : State :=
  { s with cons.links := s.cons.links.modify (linkNum east) f }

/-- A message that fails its CRC: it breaks the run of valid messages and counts within its millisecond (R339); a checkpoint
message is counted as discarded (R353). -/
def badMessage (east : Bool) (m : RingMsg) (s : State) : State :=
  let s := onLink east (fun l => { l with good := 0, crcErr := l.crcErr + 1 }) s
  if m.cls = 1 then { s with cons.ckptDiscard := sat 16 (s.cons.ckptDiscard + 1) } else s

/-- A valid message counts for its link (R339). -/
def goodMessage (east : Bool) (s : State) : State := onLink east (fun l => { l with good := l.good + 1, lastAt := s.mono }) s

/-- The message is this module's own, come round the ring (R338). -/
def ownMessage (s : State) (m : RingMsg) : Bool := s.cons.addr != 0 && m.src == s.cons.addr

/-- The message is the roll call that this module itself has sent, which in a CHECK before any address carries source 0 (R338,
R341). -/
def ownRoll (m : RingMsg) (s : State) : Bool :=
  match m.body with
  | .rollCall _ _ serial _ => s.cons.home && m.src == s.cons.addr && serial == Config.serial
  | _ => false

/-- A message as it leaves on the other link: one hop more; a time message has the delay of the link it arrived on and this
module's residence time added to corr (R340). The manual gives no residence time: a free value. -/
def hopOn (east : Bool) (m : RingMsg) (s : State) : RingMsg × State :=
  match m.tTx with
  | none => ({ m with hops := m.hops + 1 }, s)
  | some _ =>
    let (n, s) := takeNat s
    ({ m with hops := m.hops + 1, corrPs := m.corrPs + (s.cons.links.getD (linkNum east) {}).delayPs + n }, s)

/-- A message goes on to the other link, through that link's buffer of two messages (R36), unless it is the module's own, its hop
count reaches 4 (R338) or the other link's block does not work (R16). A silent module goes on forwarding (R337). -/
def forwardMsg (east : Bool) (m : RingMsg) (s : State) : State :=
  if ownMessage s m || 4 ≤ m.hops + 1 || blockDown s 5 (linkNum !east) then s
  else
    let r := hopOn east m s
    { r.2 with
      cons.forwarded := r.2.cons.forwarded + 1
      cons.fwd := r.2.cons.fwd.modify (linkNum !east) (fun l => (r.1 :: l).take 2) }

/-- How many pairs of source and sequence are kept (the manual gives no bound; assumption 57). -/
def seenCap : Nat := 1024

/-- A pair of source and sequence kept (R338). -/
def keepSeen (m : RingMsg) (s : State) : State := { s with cons.seen := ((m.src, m.seq) :: s.cons.seen).take seenCap }

/-! ### Checkpoints received (R353) -/

/-- A checkpoint message discarded and counted (R353). -/
def discardCkpt (s : State) : State := { s with cons.ckptDiscard := sat 16 (s.cons.ckptDiscard + 1) }

/-- A checkpoint message is good: its CRC holds and its epoch is the current Lead epoch (R353). -/
def ckptGood (s : State) (epoch : Nat) (crcOk : Bool) : Bool := crcOk && epoch == s.cons.epoch

/-- A delta received: the newest 10 are kept (R353). -/
def receiveDelta (frame epoch : Nat) (crcOk : Bool) (content : List Byte) (s : State) : State :=
  if !ckptGood s epoch crcOk then discardCkpt s
  else
    let d := { Config.deltaContent content with frame := frame, epoch := epoch }
    { s with cons.deltas := (d :: s.cons.deltas).take 10, cons.deltaFrame := frame }

/-- The pieces held are abandoned: one of them is missing (R353). -/
def abandonPieces (s : State) : State :=
  if s.cons.pieces.isEmpty then s
  else { s with cons.pieces := [], cons.ckptAbandon := sat 16 (s.cons.ckptAbandon + 1) }

/-- The 32 pieces held are a whole image, whose last piece goes to the slot (R353). -/
def wholeImage (s : State) : State :=
  if s.cons.pieces.length < 32 then s
  else
    let f := Config.fullContent (s.cons.pieces.map (·.2))
    { s with
      cons.asm := some { f with fast := { f.fast with frame := s.cons.pieceFrame, epoch := s.cons.epoch } }
      cons.pieces := [] }

/-- A piece kept and written to the inactive MRAM slot (R353, R39). -/
def keepPiece (index frame : Nat) (content : List Byte) (verified : Bool) (s : State) : State :=
  putPiece index content verified
    (wholeImage { s with cons.pieces := s.cons.pieces ++ [(index, content)], cons.pieceFrame := frame })

/-- A full-image piece received (R353): pieces come in order; a gap abandons the image. -/
def receivePiece (index frame epoch : Nat) (crcOk : Bool) (content : List Byte) (verified : Bool) (s : State) : State :=
  if !ckptGood s epoch crcOk then discardCkpt s
  else if index = 0 then keepPiece 0 frame content verified (abandonPieces s)
  else if s.cons.pieces.length = index && s.cons.pieceFrame = frame then keepPiece index frame content verified s
  else abandonPieces s

/-! ### Bodies -/

/-- The Lead's time (R340, R70): its transmit time plus corr plus the delay of the last link. The message carries the low 32
bits of the seconds. -/
def receiveTime (east : Bool) (m : RingMsg) (sec ns : Nat) (corrPs : Int) (s : State) : State :=
  if m.src = s.cons.lead && s.cons.lead != 0 then
    let full := s.time.sec / 2 ^ 32 * 2 ^ 32 + sec % 2 ^ 32
    let delay := corrPs + (s.cons.links.getD (linkNum east) {}).delayPs
    consistTime ((full * 1000000000 + ns : Nat) + delay / 1000) (m.hops + 1) s
  else s

/-- A ring message is a record of the frame set (R24), with its header, payload and CRC as its length; a command packet that it
carries is a record of its own (R28, R363). -/
def joinRing (east : Bool) (m : RingMsg) (s : State) : State :=
  if !lanesRun s || (match m.body with
    | .relay _ => true
    | _ => false) then s
  else
    let link := 12 + linkNum east
    addRecord { link, quality := qualityByte s, stampNs := nowNs s + ingress s link, doneNs := nowNs s, length := 36 + m.payloadLen,
                data := .ring m } s

/-- A heartbeat of the Lead is a time message too (R346, R340). -/
def leadTime (east : Bool) (m : RingMsg) (s : State) : State :=
  match m.tTx with
  | none => s
  | some (sec, ns) => receiveTime east m sec ns m.corrPs s

/-- The first copy of a message acted on (R338, R341, R346, R353, R363, R118). -/
def takeBody (east : Bool) (m : RingMsg) (verified : Bool) (s : State) : State :=
  let mine := m.dst == s.cons.addr && s.cons.addr != 0
  match m.body with
  | .heartbeat h => leadTime east m (hearHeartbeat (linkNum east) h s)
  | .time sec ns corrPs => receiveTime east m sec ns corrPs s
  | .rollCall op address _ toEast => takeRoll op address toEast m.src s
  | .rollAnswer address stored serial =>
    if m.dst == s.cons.addr then takeAnswer { assigned := address, stored, serial } s else s
  | .rollAsk op => if s.cons.home then { s with cons.rollReq := some op } else s
  | .rollResult op r => endRoll op r s
  | .delta frame epoch ok content => receiveDelta frame epoch ok content s
  | .piece index frame epoch ok content => receivePiece index frame epoch ok content verified s
  | .relay p => if mine then arriveRelayed east p m.src s else s
  | .relayReply b => if mine then returnReply b s else s
  | .gnssData b => keepNav b s
  | .other => s

/-- The second copy of a message: discarded; a heartbeat has still been heard on its carrier (R338, R348). -/
def dropCopy (east : Bool) (m : RingMsg) (s : State) : State :=
  match m.body with
  | .heartbeat h => if h.address = 0 || 4 < h.address || h.address = s.cons.addr then s else heard h.address (linkNum east) s
  | _ => s

/-- A message that has come round to its sender: HOME's own roll call closes the ring; one of another module with the same address
is that of a second HOME (R341). -/
def ownBack (m : RingMsg) (s : State) : State :=
  match m.body with
  | .rollCall op address serial toEast =>
    if serial == Config.serial then (if toEast then rollBack address s else s)
    else if s.cons.home then secondHome op s
    else s
  | _ => s

/-- A valid message in a module that answers (R338). -/
def receiveMsg (east : Bool) (m : RingMsg) (verified : Bool) (s : State) : State :=
  let s := goodMessage east s
  if ownMessage s m || ownRoll m s then ownBack m s
  else
    let s := forwardMsg east (rollOnward m s) s
    if s.cons.seen.contains (m.src, m.seq) then dropCopy east m s else takeBody east m verified (joinRing east m (keepSeen m s))

/-- RING_MESSAGE (R338). -/
def execRingMessage (east : Bool) (x : RingIn) (s : State) : Host.Outcome State Fault Refusal :=
  .next (if blockDown s 5 (linkNum east) then s
  else if s.pow.state == .fault then (if x.msg.crcOk then forwardMsg east x.msg s else s)
  else if !junctionUp s then s
  else if x.msg.crcOk then receiveMsg east x.msg x.verified s
  else badMessage east x.msg s)

end Sys2Proof.Machine
end

