-- ==== Sys2Proof/Machine/Display.lean ====
section
/-! DEFINITION. The wing display (chapter 14): display frames, temperature bands, regions and their updates, the crack loop,
and the opcodes DISP_REGION_WRITE, DISP_STATUS and DISP_CONFIG. -/

namespace Sys2Proof.Machine

/-! ### Events and regions -/

/-- An event of Table 14-3 (R424): logged, vector 41 at most once per frame. -/
def dispEvent (event detail : Nat) (s : State) : State :=
  assertVecFrame 41 13 (logJ 13 1 (leBytes 1 event ++ leBytes 1 detail) s)

/-- A region of the image. -/
def regionCfg (s : State) (r : Nat) : RegionCfg := s.image.disp.regions.getD r {}

/-- A region's live part. -/
def regionAt (s : State) (r : Nat) : Region := s.disp.regions.getD r {}

/-- One region changed. -/
def onRegion (r : Nat) (f : Region → Region) (s : State) : State := { s with disp.regions := s.disp.regions.modify r f }

/-- A region's segments in ascending index (R414). -/
def segmentsOf (c : RegionCfg) : List Nat := (List.range 640).filter (fun i => c.segments.contains i)

/-- The segments of a region that a number's bits turn on. -/
def pickSegs (c : RegionCfg) (n : Nat) : List Nat :=
  ((segmentsOf c).zipIdx.filter (fun x => n.testBit x.2)).map (·.1)

/-- Live content rendered into a region: how a quantity is drawn is the image's own (a free value, assumption 5). -/
def renderFree (r : Nat) (s : State) : State :=
  let (n, s) := takeNat s
  onRegion r (fun x => { x with shown := pickSegs (regionCfg s r) n }) s

/-- A region begins or ends to show its dead pattern (R421, R424). -/
def setDead (r : Nat) (on : Bool) (s : State) : State :=
  if (regionAt s r).dead == on then s
  else dispEvent 4 (r + bitN on 7) (onRegion r (fun x => { x with dead := on }) s)

/-- The result of DISP_REGION_WRITE (R425). -/
def regionResult (r outcome frame frames : Nat) : List Byte :=
  leBytes 1 r ++ leBytes 1 outcome ++ zeros 2 ++ leBytes 4 frame ++ leBytes 4 frames

/-- A queued update given up (R420): its command completes with SUPERSEDED. -/
def supersede (r : Nat) (s : State) : State :=
  match (regionAt s r).queued with
  | none => s
  | some u => completeSlot u.task 0x0023 (regionResult r 1 0 0) (onRegion r (fun x => { x with queued := none }) s)

/-- A running update has had its hold time (R420); `ms` is the least time that it runs. -/
def holdOver (s : State) (x : Region) (ms : Nat) : Bool :=
  match x.running with
  | none => true
  | some (u, t) => decide (t + max ms (10 * u.hold) ≤ s.mono)

/-- The queued update of a HOST region becomes running at a display frame start (R420), and its command completes. -/
def promote (r : Nat) (s : State) : State :=
  let x := regionAt s r
  match x.queued with
  | none => s
  | some u =>
    if holdOver s x 0 then
      completeSlot u.task 0 (regionResult r 0 (frame32 s) s.disp.frames)
        (onRegion r (fun x => { x with running := some (u, s.mono), queued := none, shown := u.bits, written := true }) s)
    else s

/-! ### Display frames (R414, R415, R417, R420 to R423) -/

/-- A HOST region at a display frame start (Table 14-2). -/
def frameHost (r : Nat) (s : State) : State :=
  let c := regionCfg s r
  if s.pow.state == .fault then setDead r true (onRegion r (fun x => { x with shown := c.dead }) s)
  else if nServing s = 0 then
    setDead r false (onRegion r (fun x => { x with running := none, written := false, shown := c.idle }) (supersede r s))
  else
    let s := promote r (setDead r false s)
    onRegion r (fun x => { x with shown := if x.written then (match x.running with
      | some (u, _) => u.bits
      | none => x.shown) else c.idle }) s

/-- A MODULE region at a display frame start (Table 14-2, R421). -/
def frameModule (r : Nat) (s : State) : State :=
  let c := regionCfg s r
  let s := if s.pow.state == .fault || nServing s = 0 then setDead r true s else s
  if (regionAt s r).dead then onRegion r (fun x => { x with shown := c.dead }) s else s

/-- One region at a display frame start (R419). -/
def frameRegion (s : State) (r : Nat) : State :=
  match (regionCfg s r).source with
  | 1 => frameHost r s
  | 2 => frameModule r s
  | 3 => renderFree r s
  | _ => onRegion r (fun x => { x with shown := [] }) s

/-- The wing display driver is being reset, or is out of service (R335, code 7). -/
def driverDown (s : State) : Bool := s.jx.blocks.any (fun b => b.block == 7 && (b.resetting || b.out))

/-- The wing display driver is out of service (R335). -/
def driverOut (s : State) : Bool := s.jx.blocks.any (fun b => b.block == 7 && b.out)

/-- The band decided comes into use with the new frame (R417); it is logged at most once per minute (R424). -/
def takeBand (s : State) : State :=
  match s.disp.bandNext with
  | none => s
  | some b =>
    let s := { s with disp.bandNext := none }
    if b = s.disp.band then s
    else
      let due := match s.disp.bandLog with
        | none => true
        | some t => decide (t + 60000 ≤ s.mono)
      let s := { s with disp.band := b }
      if due then dispEvent 1 b { s with disp.bandLog := some s.mono } else assertVecFrame 41 13 s

/-- V_LCD of a band with the contrast trim (R416). -/
def vLcdOf (s : State) : Int := clampI 2500 6000 (s.image.disp.bandMv.getD s.disp.band 0 + s.disp.trim)

/-- The loop resistance measured once per display frame (R423). -/
def measureCrack (ohm : Nat) (s : State) : State :=
  { s with disp.crackOhm := min ohm 0xFFFF
           disp.crackRun := if s.image.disp.crackLimit < (ohm : Qty) then s.disp.crackRun + 1 else 0 }

/-- The segments driven in a frame: none while every output is held at 0 V (R423) or in the two blank frames after a reset of
the driver (Table 14-2). -/
def composeFrame (s : State) : State :=
  let blank := driverDown s && s.disp.blankFrames < 2
  { s with
    disp.blankFrames := if driverDown s then s.disp.blankFrames + 1 else 0
    disp.frame := if blank || s.disp.blanked then [] else
      (List.range 16).flatMap (fun r => (segmentsOf (regionCfg s r)).filter (fun i => (regionAt s r).shown.contains i)) }

/-- DISPLAY_FRAME_START (R415, R417, R420): the buffers are swapped, band and contrast changes take effect, and the crack loop
is measured. -/
def execDisplayFrameStart (crackOhm : Nat) (s : State) : Host.Outcome State Fault Refusal :=
  .next (if !dieAlive s || driverOut s || s.disp.oneLevel then s
  else
    let s := takeBand { s with disp.frames := (s.disp.frames + 1) % 2 ^ 32, disp.clockMs := s.mono }
    let s := measureCrack crackOhm { s with disp.vLcd := vLcdOf s }
    composeFrame ((List.range 16).foldl frameRegion s))

/-- REGION_HOLD_END (R420): the hold time of a running update, at least one display frame, is over; a queued update becomes
running at the next display frame start. -/
def execRegionHoldEnd (region : Nat) (s : State) : Host.Outcome State Fault Refusal :=
  .next (if dieAlive s && (regionAt s region).running.isSome && holdOver s (regionAt s region) 16 then
    onRegion region (fun x => { x with running := none }) s
  else s)

/-- REGION_DEAD (R421): a MODULE region without rendering for 500 ms. -/
def execRegionDead (region : Nat) (s : State) : Host.Outcome State Fault Refusal :=
  .next (if dieAlive s && region < 16 && (regionCfg s region).source = 2 && (regionAt s region).rendered + 500 ≤ s.mono then
    setDead region true s
  else s)

/-- The MODULE regions rendered by housekeeping (R419, R421). -/
def renderModules (s : State) : State :=
  (List.range 16).foldl (fun s r =>
    if (regionCfg s r).source = 2 then
      setDead r false (onRegion r (fun x => { x with rendered := s.mono }) (renderFree r s))
    else s) s

/-! ### Temperature and crack loop (R416, R418, R423) -/

/-- The band of a temperature, from the band in use, with 2 °C past the threshold (R416). -/
def bandFor (thr : List Qty) (cur : Nat) (t : Qty) : Nat :=
  let up := (thr.filter (fun x => decide (x + 2 ≤ t))).length
  let down := (thr.filter (fun x => decide (x - 2 < t))).length
  if cur < up then up else if down < cur then down else cur

/-- The glass temperature of a sample: the base-plate sensor plus the image's offset, or the channel's value; none while the
source is faulted (R416, R298). -/
def glassTemp (s : State) (sample : Option Qty) : Option Qty :=
  if s.disp.tempCh then
    let ch := s.image.disp.tempCh
    if chanFaulted s (chanOf s ch) then none else some (chanEng s ch)
  else sample.map (fun t => t + s.image.disp.tempOffset)

/-- GLASS_TEMPERATURE_SAMPLE (R416, R418): `temp` is the base-plate sensor's reading, none while that sensor is faulted. -/
def execGlassTemperatureSample (temp : Option Qty) (s : State) : Host.Outcome State Fault Refusal :=
  .next (if !dieAlive s then s
  else match glassTemp s temp with
    | none => if s.disp.tempLost then s else dispEvent 3 1 { s with disp.tempLost := true }
    | some t =>
      let b := bandFor s.image.disp.bandThr (s.disp.bandNext.getD s.disp.band) t
      let was := s.disp.tempLost
      let s := { s with disp.temp := t, disp.bandNext := some b, disp.tempLost := false }
      if was then dispEvent 3 0 s else s)

/-- The crack action judged (R423): with BLANK, every output is held at 0 V while CRACKED. -/
def judgeBlank (s : State) : State :=
  let b := s.disp.cracked && s.disp.blankAct
  if b == s.disp.blanked then s else dispEvent 5 (if b then 1 else 0) { s with disp.blanked := b }

/-- CRACK_DETECTED (R423): above the limit in 3 consecutive frames. -/
def execCrackDetected (s : State) : Host.Outcome State Fault Refusal :=
  .next (if dieAlive s && 3 ≤ s.disp.crackRun && !s.disp.cracked then
    judgeBlank (dispEvent 2 1 { s with disp.cracked := true })
  else s)

/-! ### Opcodes (R425) -/

/-- The segments that the bits of an update turn on. -/
def updateBits (c : RegionCfg) (b : List Byte) : List Nat := pickSegs c (leNat b)

/-- DISP_REGION_WRITE (0x0D01). -/
def dispRegionWriteSpec : OpSpec :=
  { auth := fun _ => 1
    role := fun s _ => drives s
    len := fun _ p => decide (8 ≤ p.payload.length) && p.payload.length == 8 + (fieldNat p.payload 4 2 + 7) / 8
    run := fun k p s =>
      let r := fieldByte p.payload 0
      let hold := fieldNat p.payload 2 2
      let c := regionCfg s r
      if 15 < r || 6000 < hold then fail 0x0014 s
      else if c.source ≠ 1 || fieldNat p.payload 4 2 ≠ (segmentsOf c).length then fail 0x0013 s
      else
        let u : DispUpd := { bits := updateBits c (p.payload.drop 8), hold, task := taskOf k p }
        { status := 2, state := onRegion r (fun x => { x with queued := some u }) (supersede r s) } }

/-- DISP_REGION_WRITE (R420, R425). -/
def execDispRegionWrite (p : Packet) (s : State) : Host.Outcome State Fault Refusal :=
  .next (processPacket (some dispRegionWriteSpec) { p with opcode := 0x0D01 } s)

/-- A region of DISP_STATUS (Table 14-5). -/
def regionEntry (s : State) (r : Nat) : List Byte :=
  let x := regionAt s r
  let st := if x.dead then 3 else if x.running.isNone then 0 else if x.queued.isSome then 2 else 1
  let left := match x.running with
    | none => 0
    | some (u, t) => (t + 10 * u.hold - s.mono + 9) / 10
  leBytes 1 (regionCfg s r).source ++ leBytes 1 st ++ leBytes 2 left

/-- The DISP_STATUS result (Table 14-5). -/
def dispStatusResult (s : State) : List Byte :=
  let anyDead := s.disp.regions.any (·.dead)
  leBytes 1 s.disp.band ++ leBytes 1 (bitN s.disp.cracked 0 + bitN s.disp.tempLost 1 + bitN anyDead 2 + bitN s.disp.blanked 3 +
      bitN (driverOut s) 4) ++
    leInt 2 s.disp.vLcd ++ f32Bytes s.disp.temp ++ leBytes 2 s.disp.crackOhm ++ leInt 2 s.disp.trim ++
    leBytes 4 s.disp.frames ++ ((List.range 16).map (regionEntry s)).flatten

/-- DISP_STATUS (0x0D02). -/
def dispStatusSpec : OpSpec :=
  { without := fun _ => true, run := fun _ _ s => { status := 0, result := dispStatusResult s, state := s } }

/-- DISP_STATUS (R425). -/
def execDispStatus (p : Packet) (s : State) : Host.Outcome State Fault Refusal :=
  .next (processPacket (some dispStatusSpec) { p with opcode := 0x0D02 } s)

/-- The DISP_CONFIG result (Table 14-6): the values in force, and the frame at which a write takes effect. -/
def dispConfigResult (s : State) (op frame : Nat) : List Byte :=
  leBytes 1 op ++ leBytes 1 (bitN s.disp.blankAct 0) ++ leInt 2 s.disp.trim ++ leBytes 1 (bitN s.disp.tempCh 0) ++ zeros 3 ++
    leBytes 4 frame

/-- The temperature source that a DISP_CONFIG write names differs from the one in use (R425). -/
def tempChange (s : State) (p : Packet) : Bool :=
  let t := fieldByte p.payload 4
  t ≠ 0xFF && t ≠ bitN s.disp.tempCh 0

/-- DISP_CONFIG (0x0D03). -/
def dispConfigSpec : OpSpec :=
  { auth := fun p => if fieldByte p.payload 0 = 0 then 0 else 1
    authNow := fun s p => if fieldByte p.payload 0 = 1 && tempChange s p then 2 else 0
    without := fun p => fieldByte p.payload 0 == 0
    role := fun s p => fieldByte p.payload 0 == 0 || drives s
    len := fun _ p => p.payload.length == 8
    run := fun _ p s =>
      let op := fieldByte p.payload 0
      let act := fieldByte p.payload 1
      let trim := fieldInt p.payload 2 2
      let src := fieldByte p.payload 4
      if 2 < op || (op = 1 && ((1 < act && act ≠ 0xFF) || (1 < src && src ≠ 0xFF))) then fail 0x0013 s
      else if op = 1 && trim ≠ 0x7FFF && (trim < -500 || 500 < trim) then fail 0x0014 s
      else if op = 0 then { status := 0, result := dispConfigResult s 0 0, state := s }
      else { status := 1, result := dispConfigResult s op (effectFrame s), state := defer (.dispCfg op act trim src) s } }

/-- DISP_CONFIG (R425). -/
def execDispConfig (p : Packet) (s : State) : Host.Outcome State Fault Refusal :=
  .next (processPacket (some dispConfigSpec) { p with opcode := 0x0D03 } s)

/-- A DISP_CONFIG write or clear takes effect (R423, R425); trim and temperature source then act under R417. -/
def applyDisp (op action : Nat) (trim : Int) (temp : Nat) (s : State) : State :=
  if op = 2 then
    if s.disp.cracked && (s.disp.crackOhm : Qty) < s.image.disp.crackLimit then
      judgeBlank (dispEvent 2 0 { s with disp.cracked := false, disp.crackRun := 0 })
    else s
  else judgeBlank { s with
    disp.blankAct := if action = 0xFF then s.disp.blankAct else action == 1
    disp.trim := if trim = 0x7FFF then s.disp.trim else trim
    disp.tempCh := if temp = 0xFF then s.disp.tempCh else temp == 1 }

end Sys2Proof.Machine
end

