-- ==== Sys2Proof/Machine/Timetable.lean ====
section
/-! DEFINITION. The timetable (chapter 02): activities held at signal, outcome timeouts, chain-closing and persistent holds,
housekeeping, traffic that waits for class budget, and the opcodes TIMETABLE_STATUS and TIMETABLE_COUNTERS. The outcomes and
counters they share stand in Flags.lean. -/

namespace Sys2Proof.Machine

/-! ### What consumers use after a hold (R51, Table 2-2) -/

/-- A tracking reference of the image (hydroacoustic or laser range) counts a missed update and gives nothing to fusion. -/
def missTracking (s : State) : State :=
  let s := (List.range 16).foldl (fun s i =>
    if isTracking s i && (s.ref.refs.getD i {}).enabled then
      onUnit false i (fun u => { u with meas := [] }) (missUpdate false i s)
    else s) s
  { s with ref.fixes := [], ref.lines := [] }

/-- What the consumers of a held activity use (Table 2-2). Without a grid nothing is FUSED and no peak is found (R183, R189). The thrusters of the last solution have the states of this frame (R63,
R236). A skipped delta is counted (row 9). -/
def holdEffect (act : Nat) (s : State) : State :=
  match act with
  | 0 => { s with inp.parsed := [], inp.noSet := true }
  | 1 => missAll { s with
      inp.noVote := true
      ref.refs := s.ref.refs.map (fun u => { u with meas := [] })
      ref.sens := s.ref.sens.map (fun u => { u with meas := [] }) }
  | 2 => missTracking s
  | 3 => { s with fus.handed := none, fus.gateFail := false, fus.gridEdge := false, fus.flat := false, fus.agreeSince := none
                  fus.noPeakRun := 0
                  ref.refs := s.ref.refs.map (fun u => if u.fusion = 2 then { u with fusion := 0 } else u) }
  | 4 => let t := updateLevel { s with obs.elapsed := s.obs.elapsed + 1 }
         { t with obs.elapsed := s.obs.elapsed }
  | 6 => logThrs s.alloc.thr (stepThrs { s with alloc.notSolved := s.alloc.notSolved + 1 })
  | 8 => undoServo s
  | 9 => { s with tt.ckptSkip := sat 32 (s.tt.ckptSkip + 1) }
  | _ => s

/-- The outcome of the activity is still open: it is the next of the frame, or the servo slot of this tick (R49). Without an
image, or during its reload, the chain, the servo and the checkpoint do not work (R393, R443). -/
def outcomeOpen (act : Nat) (s : State) : Bool :=
  lanesRun s && (act == 0 || works s) &&
    (if act = 8 then s.tt.servoDone && s.servoUndo.isSome else decide (act ≤ 9) && s.tt.nextAct == act && inPart act s)

/-- The activity after a hold: the servo leaves the frame's order as it is (R45). -/
def passHeld (act : Nat) (s : State) : State :=
  if act = 8 then { s with tt.servoDone := false } else { s with tt.nextAct := actAfter act }

/-- An agreed hold of an all-or-nothing activity (R49, R51, R54); `lanes` report HELD or count as HELD, and `full` of them have
been charged the whole budget (R44, R48). -/
def holdActivity (act : Nat) (lanes full : List Lane) (s : State) : State :=
  let s := newOutcome (if act = 8 then s else settleServo s)
  passHeld act (agreedHold act lanes (holdEffect act (chargeAct act (s.tt.budget.getD act 0) full s)))

/-- A further lane of the exchange whose hold has just been agreed: it has not yet counted as HELD (R49, R50). A chain-closing
hold leaves no exchange open (R53). -/
def alsoHeld (act : Nat) (lane : Lane) (s : State) : Bool :=
  lanesRun s && inService s lane && s.tt.heldNow.getD act false && !(s.tt.heldBy.get lane) && s.tt.heldBy.list.any id &&
    !(s.tt.closingNow && decide (act ≤ 7)) &&
    (if act = 8 then !s.tt.servoDone else decide (act ≤ 9) && s.tt.nextAct == actAfter act)

/-- Lanes that report HELD have been charged the whole budget (R44, R48). -/
def fullCharge (act : Nat) (lanes : List Lane) (s : State) : State :=
  { s with tt.usedNow := lanes.foldl (fun u l => u.set (3 * act + l.num) (s.tt.budget.getD act 0)) s.tt.usedNow }

/-- HELD_AT_SIGNAL (R48, R49, R51): `held` are the lanes that report HELD; those that report in the exchange of a hold that is
already agreed count in it as well. -/
def execHeldAtSignal (act : Nat) (held : Lane3 Bool) (s : State) : Host.Outcome State Fault Refusal :=
  let lanes := (serving s).filter held.get
  .next (if outcomeOpen act s && !lanes.isEmpty then holdActivity act lanes lanes s
  else
    let also := lanes.filter (fun l => alsoHeld act l s)
    countHeld act also (fullCharge act also s))

/-- OUTCOME_TIMEOUT (R50): a lane that has not reported counts as HELD, and the timeout is charged to it, whether it is the
first of its exchange or not. -/
def execOutcomeTimeout (act : Nat) (lane : Lane) (s : State) : Host.Outcome State Fault Refusal :=
  .next (if 1 < nServing s && outcomeOpen act s && inService s lane then
    chargeTimeout lane (holdActivity act [lane] [] s)
  else if 1 < nServing s && alsoHeld act lane s then chargeTimeout lane (countHeld act [lane] s)
  else s)

/-- The chain activities after `act`. -/
def chainAfter (act : Nat) : List Nat := (List.range 8).filter (fun a => decide (act < a))

/-- A chain activity that does not start in this frame (R53): its consumers act as for a hold of it; nothing is counted. -/
def notStarted (s : State) (act : Nat) : State :=
  let s := holdEffect act s
  { s with tt.heldNow := s.tt.heldNow.set act true, tt.run := s.tt.run.set act 0 }

/-- The lanes still running at a chain-closing hold (R331): one of them is excluded; several, or one of two lanes, are a
lane-set fault. -/
def closingFault (lanes : List Lane) (s : State) : State :=
  match lanes with
  | [l] => laneFault l 6 s
  | _ => fallSilent s

/-- CHAIN_CLOSING_HOLD (R53): the chain activity still running 3,950 µs after the frame boundary, in tick 3, is held whatever
its remaining budget, and the chain ends. -/
def execChainClosingHold (running : Lane3 Bool) (s : State) : Host.Outcome State Fault Refusal :=
  let lanes := (serving s).filter running.get
  let act := s.tt.nextAct
  .next (if act ≤ 7 && s.tt.tick = 3 && outcomeOpen act s && !lanes.isEmpty then
    let s := holdActivity act lanes [] s
    let s := (chainAfter act).foldl notStarted s
    closingFault lanes { s with tt.closing := sat 32 (s.tt.closing + 1), tt.closingNow := true, tt.nextAct := 9 }
  else s)

/-- PERSISTENT_HOLD (R55, Table 11-3): ten holds in a row of a chain activity or of the servo; the module falls silent. -/
def execPersistentHold (act : Nat) (s : State) : Host.Outcome State Fault Refusal :=
  let run := s.tt.run.getD act 0
  .next (if lanesRun s && act ≤ 8 && 10 ≤ run then
    fallSilent (logL 2 2 (leBytes 1 act ++ leBytes 2 (sat 16 run)) s)
  else s)

/-! ### Housekeeping (R52, R336, R419) -/

/-- HOUSEKEEPING (R52, R336): activity 12, with what its scrubs find. -/
def execHousekeeping (rep : Lane3 ItemReport) (found : ScrubIn) (s : State) : Host.Outcome State Fault Refusal :=
  .next (if mayRun 12 s then
    let n := agreedItems rep s
    let s := if works s && 0 < n then renderModules s else s
    let s := scrubFound found.junction (endItems 12 rep s)
    match found.lane with
    | none => s
    | some l => laneFault l 7 s
  else s)

/-! ### Waiting traffic (R56, R57) -/

/-- The waiting traffic of one class, in order: what still fits, whole and in turn, and what goes on waiting (R56). -/
def fitClass (left : Nat) : List Waiting → List Waiting × List Waiting × Nat
  | [] => ([], [], left)
  | w :: ws =>
    if w.bytes ≤ left then
      let r := fitClass (left - w.bytes) ws
      (w :: r.1, r.2.1, r.2.2)
    else ([], w :: ws, left)

/-- Waiting traffic released, class by class (R57): what starts, what waits, the budgets left. `mine` picks the traffic of
the resource, `ix` its budget. -/
def releaseClasses (mine : Waiting → Bool) (ix : Nat → Nat) (n : Nat) (q : List Waiting) (left : List Nat) :
    List Waiting × List Waiting × List Nat :=
  (List.range n).foldl (fun acc c =>
    let r := fitClass (acc.2.2.getD (ix c) 0) (q.filter (fun w => mine w && w.cls == c))
    (acc.1 ++ r.1, acc.2.1 ++ r.2.1, acc.2.2.set (ix c) r.2.2)) ([], q.filter (fun w => !(mine w)), left)

/-- A chunk of an image that waited is written, and its command completes: INTERNAL where the read-back fails (R391). -/
def writeChunk (slot offset : Nat) (data : List Byte) (task : Task) (verified : Bool) (s : State) : State :=
  if !verified then completeSlot task 0x0041 [] s
  else completeSlot task 0 (leBytes 4 (offset + data.length)) { s with mram := memWriteAll s.mram (imgBase slot + offset) data }

/-- A packet that waited leaves its port (R56). -/
def releasePacket (id : Nat) (s : State) : State :=
  match s.host.waitPkts.find? (fun o => o.id == id) with
  | none => s
  | some o => transmit o { s with host.waitPkts := s.host.waitPkts.filter (fun x => x.id != id) }

/-- What becomes of released traffic; `verified` is the read-back of a checkpoint slot's last byte, or
of a chunk (R39, R391). -/
def releaseOne (verified : Bool) (s : State) (w : Waiting) : State :=
  match w.cargo with
  | .ckptPiece slot index data => storePiece slot index data verified s
  | .factory address => storeFactory address s
  | .chunk slot offset data task => writeChunk slot offset data task verified s
  | .packet id => releasePacket id s
  | .ptp kind => sendPtp w.port kind s
  | .raw d => if portUp s w.port then startRaw w.port d s else s
  | .ring _ _ _ => startRing w s
  | .record => s

/-- DEFERRED_TRAFFIC_RELEASE (R56, R57): waiting traffic of a resource starts as far as the frame's budgets reach. -/
def execDeferredTrafficRelease (x : ReleaseIn) (s : State) : Host.Outcome State Fault Refusal :=
  .next (if !junctionUp s then s
  else match x.res with
    | .mram =>
      let (go, stay, left) := releaseClasses (fun _ => true) id 4 s.tt.mramWait s.tt.mramLeft
      go.foldl (releaseOne x.verified) { s with tt.mramWait := stay, tt.mramLeft := left }
    | .ring =>
      if !ringUp s then s
      else
        let (go, stay, left) := releaseClasses (fun _ => true) id 5 s.tt.ringWait s.tt.ringLeft
        go.foldl (releaseOne x.verified) { s with tt.ringWait := stay, tt.ringLeft := left }
    | .egress port =>
      let (go, stay, left) := releaseClasses (fun w => w.port == port) (fun c => 6 * port + c) 6 s.tt.egressWait s.tt.egressLeft
      go.foldl (releaseOne x.verified) { s with tt.egressWait := stay, tt.egressLeft := left })

/-! ### Opcodes (R65, R66) -/

/-- A list of u16 fields. -/
def u16s (l : List Nat) : List Byte := l.flatMap (leBytes 2)

/-- A list of u32 fields. -/
def u32s (l : List Nat) : List Byte := l.flatMap (leBytes 4)

/-- The budget charged in the previous frame; 0xFFFF for a lane out of service (Table 2-4). -/
def usedField (s : State) : List Nat :=
  s.tt.used.mapIdx (fun i u => if inService s (lanesAll.getD (i % 3) .a) then u else 0xFFFF)

/-- The TIMETABLE_STATUS result (Table 2-4). -/
def timetableStatusResult (s : State) : List Byte :=
  leBytes 8 s.tt.frame ++ leBytes 4 s.time.phase ++ leBytes 1 (laneMask s) ++ leBytes 1 (bitN s.tt.own 0 + bitN s.tt.closingPrev 1) ++
    leBytes 2 s.tt.chainEnd ++ u16s s.tt.budget ++ zeros 2 ++ u16s (usedField s) ++ zeros 2 ++ u32s s.tt.mramBudget ++
    u32s s.tt.ringBudget ++ u32s s.tt.egressBudget

/-- TIMETABLE_STATUS (0x0F01). -/
def timetableStatusSpec : OpSpec := { run := fun _ _ s => { status := 0, result := timetableStatusResult s, state := s } }

/-- TIMETABLE_STATUS (R65). -/
def execTimetableStatus (p : Packet) (s : State) : Host.Outcome State Fault Refusal :=
  .next (processPacket (some timetableStatusSpec) { p with opcode := 0x0F01 } s)

/-- The TIMETABLE_COUNTERS result (Table 2-5). -/
def timetableCountersResult (s : State) : List Byte :=
  leBytes 8 s.tt.frame ++ leBytes 8 s.tt.frameClear ++ u32s s.tt.laneHeld ++ u32s s.tt.agreedHeld ++ u32s s.tt.timeouts.list ++
    leBytes 4 s.tt.closing ++ leBytes 4 s.tt.fsetDrop ++ leBytes 4 s.tt.tsetDrop ++ u32s s.tt.mramDefer ++ u32s s.tt.ringDefer ++
    leBytes 4 s.tt.ckptSkip ++ u32s s.tt.egressDefer ++ leBytes 4 s.tt.islandDefer ++ leBytes 2 s.tt.maxRun ++ zeros 2

/-- TIMETABLE_COUNTERS (0x0F02): with CLEAR the counters are answered as they stand and cleared at the next boundary. The
manual gives the status of a reply with CLEAR neither as OK nor as DEFERRED; it is OK (DESIGN CHOICE; assumption 101). -/
def timetableCountersSpec : OpSpec :=
  { auth := fun p => if (fieldByte p.payload 0).testBit 0 then 2 else 0
    len := fun _ p => p.payload.length == 4
    run := fun _ p s =>
      { status := 0, result := timetableCountersResult s
        state := if (fieldByte p.payload 0).testBit 0 then defer .counters s else s } }

/-- TIMETABLE_COUNTERS (R65, R66). -/
def execTimetableCounters (p : Packet) (s : State) : Host.Outcome State Fault Refusal :=
  .next (processPacket (some timetableCountersSpec) { p with opcode := 0x0F02 } s)

end Sys2Proof.Machine
end

