-- ==== Sys2Proof/Machine/Registers.lean ====
section
/-! DEFINITION. What a host reads at each offset of BAR0 (Table 12-6): the identity and status block (Table 12-7), the queue
and routing registers (Tables 12-8 and 12-12), the recorder window (Table 13-4), the time snapshot (Table 3-9), the safety
status mirror (Table 10-8) and the consist block (Table 11-9). A read changes nothing, so it is no command; reserved
offsets and write-strobe registers read 0 (R6). -/

namespace Sys2Proof.Machine

/-- The word of 32 bits that `v` holds from bit 32 × `k` on. -/
def wordOf (v k : Nat) : Nat := v / 2 ^ (32 * k) % 2 ^ 32

/-! ### Identity and status (Table 12-7) -/

/-- MOD_STATE. -/
def modStateReg (s : State) : Nat :=
  s.pow.state.code + 2 ^ 8 * (lawMode s).code + 2 ^ 16 * s.obs.level + 2 ^ 24 * s.cons.role.code +
    bitN (decide (0 < nServing s)) 27 + 2 ^ 28 * s.cons.addr

/-- The open sessions with at least an authority, bit k for slot k. -/
def sessionsAt (s : State) (level : Nat) : Nat :=
  maskBools (s.host.sessions.map (fun x => match x with
    | none => false
    | some y => decide (level ≤ y.authority)))

/-- The registers 0x0020 to 0x0043 as they stand; a frame boundary writes them into the block (R381). -/
def statusRegs (s : State) : List Nat :=
  [modStateReg s, wordOf s.tt.frame 0, wordOf s.tt.frame 1, s.pow.opSec, s.pow.cycles,
   sessionsAt s 0 + 2 ^ 8 * sessionsAt s 1 + 2 ^ 16 * sessionsAt s 2,
   s.image.cmd.udpPort + bitN (s.image.cmd.ports.any (·.service)) 16, s.host.refused + 2 ^ 16 * s.host.badCrc,
   s.host.discarded + 2 ^ 16 * s.host.unlisted]

/-- IMG_SLOTS. -/
def imgSlotsReg (s : State) : Nat :=
  let ok (k : Nat) : Bool := 4 ≤ (s.host.slots.getD k {}).state
  bitN (ok 0) 0 + bitN (ok 1) 1 + bitN (s.host.imgActive == some 1) 2 + bitN (imageActive s) 3 +
    bitN s.host.transfer.isSome 4 + bitN s.host.commit.isSome 5

/-- The identity block. -/
def readIdentity (s : State) (off : Nat) : Nat :=
  match off with
  | 0x00 => 0x45565A33
  | 0x04 => 0x00003128
  | 0x08 => Config.variant % 2 ^ 8 + 2 ^ 8 * (Config.revision % 2 ^ 8)
  | 0x0C => Config.serial % 2 ^ 32
  | 0x10 => Config.fwRelease % 2 ^ 32
  | 0x14 => wordOf (imageDigest64 s) 0
  | 0x18 => wordOf (imageDigest64 s) 1
  | 0x1C => imgSlotsReg s
  | 0x44 => s.host.frameSeq
  | 0x48 => s.host.scratch
  | _ => if 0x20 ≤ off && off < 0x44 then s.host.idBlock.getD ((off - 0x20) / 4) 0 else 0

/-! ### Queues and routing (Tables 12-8 and 12-12) -/

/-- A queue's register. -/
def readQueue (x : QueueSt) (off : Nat) : Nat :=
  match off with
  | 0x00 => wordOf x.sqBase 0
  | 0x04 => wordOf x.sqBase 1
  | 0x08 => wordOf x.cqBase 0
  | 0x0C => wordOf x.cqBase 1
  | 0x10 => bitN x.enable 0 + 2 ^ 4 * x.log2
  | 0x18 => x.cqHead
  | 0x1C => x.sqHead + 2 ^ 8 * x.cqTail + bitN x.phase 16 + bitN x.full 17 + bitN (x.error != 0) 18 + 2 ^ 20 * x.error + 2 ^ 24 * x.dropped
  | _ => 0

/-- A routing register. -/
def readRouting (s : State) (off : Nat) : Nat :=
  if off < 0xC0 then s.host.route.getD (off / 4) 0
  else match off with
    | 0xC0 => maskBools (s.host.pend.take 32)
    | 0xC4 => maskBools (s.host.pend.drop 32)
    | 0xC8 => s.host.evtCfg
    | 0xCC => maskBools ((List.range 8).map (evtLine s))
    | _ => 0

/-! ### Recorder and time (Tables 13-4 and 3-9) -/

/-- A recorder register. -/
def readRecorder (s : State) (off : Nat) : Nat :=
  match off with
  | 0x04 => s.log.cursor
  | 0x08 => bitN s.log.loading 0 + 2 * s.log.result + 2 ^ 16 * s.log.loads
  | 0x28 => s.log.updSeq
  | _ =>
    if 0x0C ≤ off && off < 0x28 then s.log.regs.getD ((off - 0x0C) / 4) 0
    else if 0x40 ≤ off && off < 0x80 then fieldNat s.log.window (off - 0x40) 4
    else 0

/-- A time register: every one changes only at a latch (R93). -/
def readTime (s : State) (off : Nat) : Nat :=
  let x := s.time.snap
  match off with
  | 0x04 => x.seq
  | 0x08 => wordOf x.sec 0
  | 0x0C => wordOf x.sec 1
  | 0x10 => x.ns
  | 0x14 => x.frac + 2 ^ 16 * x.quality
  | 0x18 => wordOf x.frame 0
  | 0x1C => wordOf x.frame 1
  | 0x20 => x.timeState
  | 0x24 => x.errEst
  | 0x28 => wordOf x.stepAt 0
  | 0x2C => wordOf x.stepAt 1
  | 0x30 => wordOf x.stepAmt 0
  | 0x34 => wordOf x.stepAmt 1
  | 0x38 => x.taiUtc
  | 0x3C => x.ppsSec
  | 0x40 => x.ppsNs
  | _ => 0

/-! ### Consist and lanes (Table 11-9) -/

/-- CS_ROLE. -/
def csRole (s : State) : Nat :=
  s.cons.role.code + 2 ^ 3 * s.cons.addr + bitN s.cons.home 6 + bitN (eligible s s.cons.addr) 7 + 2 ^ 8 * s.image.consist.size +
    2 ^ 11 * s.cons.found + 2 ^ 14 * roleFlags s + 2 ^ 21 * s.cons.phase + 2 ^ 24 * notReady s

/-- CS_LEAD. -/
def csLead (s : State) : Nat :=
  s.cons.lead + 2 ^ 3 * s.cons.layover + 2 ^ 8 * maskOf ((presentList s).map (· - 1)) + 2 ^ 12 * s.image.consist.arbitration +
    bitN s.cons.arbRefused 14 + bitN s.cons.takeoverCold 15

/-- CS_LINKS. -/
def csLinks (s : State) : Nat :=
  maskBools (s.cons.links.map (·.up)) + 2 ^ 2 * s.cons.ringState +
    2 ^ 4 * maskOf ((List.range 4).filter (fun c => heardIn s s.cons.lead c 17)) + bitN s.cons.arbIn 8 + bitN s.cons.arbOut 9 +
    2 ^ 12 * maskBools s.cons.carrierFault

/-- CS_HB_AGE. -/
def csHbAge (s : State) : Nat :=
  match newestHeard s s.cons.lead with
  | none => 0xFFFFFFFF
  | some t => sat 32 (1000 * (s.mono - t))

/-- LN_STATE. -/
def lnState (s : State) : Nat :=
  let is (f : LaneSt → Bool) : Nat := maskBools (s.lanes.list.map f)
  is (fun x => x.state == .inService) + 2 ^ 4 * is (fun x => x.state == .excluded) +
    2 ^ 8 * is (fun x => x.state == .reintegrating || x.state == .shadow) + 2 ^ 12 * is (fun x => x.state == .lockedOut) +
    2 ^ 16 * is (·.powered) + bitN (laneDegraded s) 19 + bitN (laneSingle s) 20

/-- Three lane bytes in one word. -/
def laneBytes (s : State) (f : LaneSt → Nat) : Nat := f s.lanes.a + 2 ^ 8 * f s.lanes.b + 2 ^ 16 * f s.lanes.c

/-- A consist register. -/
def readConsist (s : State) (off : Nat) : Nat :=
  match off with
  | 0x00 => s.cons.seq
  | 0x04 => csRole s
  | 0x08 => csLead s
  | 0x0C => s.cons.epoch
  | 0x10 => csLinks s
  | 0x14 => csHbAge s
  | 0x18 => s.cons.fullFrame
  | 0x1C => s.cons.deltaFrame
  | 0x20 => s.cons.ckptDiscard + 2 ^ 16 * s.cons.ckptAbandon
  | 0x24 => lnState s
  | 0x28 => laneBytes s (·.cause)
  | 0x2C => laneBytes s (fun x => min 255 x.excl)
  | 0x30 => s.jx.diffs + 2 ^ 16 * s.jx.lastBlock + 2 ^ 24 * min 255 (s.jx.blocks.filter (·.out)).length
  | 0x34 => s.cons.takeMs + 2 ^ 16 * s.cons.takeovers
  | 0x38 => wordOf s.cons.startSec 0
  | 0x3C => wordOf s.cons.startSec 1
  | _ => 0

/-! ### The map (Table 12-6) -/

/-- The 32-bit register at an offset of BAR0, as a read gives it while the PCIe endpoint answers (`hostRead`). -/
def readReg (s : State) (off : Nat) : Nat :=
  if off % 4 ≠ 0 then 0
  else if off < 0x100 then readIdentity s off
  else if off < 0x500 then readQueue (queueOf s ((off - 0x100) / 32)) ((off - 0x100) % 32)
  else if 0x800 ≤ off && off < 0x900 then readRouting s (off - 0x800)
  else if 0x1000 ≤ off && off < 0x1100 then readRecorder s (off - 0x1000)
  else if 0x2000 ≤ off && off < 0x2100 then readTime s (off - 0x2000)
  else if 0x3000 ≤ off && off < 0x3100 then (mirrorRegs s.sb.mirror).getD ((off - 0x3000) / 4) 0
  else if 0x4000 ≤ off && off < 0x4100 then readConsist s (off - 0x4000)
  else if 0x8000 ≤ off && off < 0x8300 then s.host.msixTable.getD ((off - 0x8000) / 4) (if off / 4 % 4 = 3 then 1 else 0)
  else if off = 0x8300 then maskBools (s.host.pba.take 32)
  else if off = 0x8304 then maskBools (s.host.pba.drop 32)
  else 0

/-- What a host's read of BAR0 gets: none, no answer, while the junction die does not answer (R337) or the halves of its PCIe
endpoint differ (R16). -/
def hostRead (s : State) (off : Nat) : Option Nat := if junctionUp s && pcieUp s then some (readReg s off) else none

end Sys2Proof.Machine
end

