-- ==== Sys2Proof/Machine/Effects.lean ====
section
/-! DEFINITION. Effects at the frame boundary (R61 to R63): what the commands that answered DEFERRED do when the boundary
after their processing comes. Each effect itself stands with its subject. -/

namespace Sys2Proof.Machine

/-- The effects that count, in processing order (R61). -/
def lastOnly : List Deferred → List Deferred
  | [] => []
  | d :: ds => if ds.any (sameObject d) then lastOnly ds else d :: lastOnly ds

/-- Order among effects that come together: a mode first, so that the targets set with it stand; a restart last. -/
def effectRank : Deferred → Nat
  | .mode _ _ => 0
  | .power 4 => 2
  | _ => 1

/-- One effect. -/
def applyOne (s : State) : Deferred → State
  | .timeSource flags order => applyTimeSource flags order s
  | .ptpClock c => applyPtp (some c) 0 none s
  | .ptpPort port c => applyPtp none port (some c) s
  | .pps target c => applyPps target c s
  | .gnssMode mode solMax rate mask flags => applyGnssMode mode solMax rate mask flags s
  | .refSet sensor i on => applyRefSet sensor i on s
  | .lever i op => applyLever i op s
  | .resolve op mask => applyResolve op mask s
  | .setPosition flags n e hd v r => applyPosition flags n e hd v r s
  | .setTrack wps along v r => applyTrack wps along v r s
  | .setTip flags n e hd depth v r body => applyTip flags n e hd depth v r body s
  | .swapAxes => applySwapAxes s
  | .inject j => applyInject j s
  | .repetitive axes action source period channel => applyRepetitive axes action source period channel s
  | .thrEnable t => applyThrEnable t s
  | .thrDisable t force => applyThrDisable t force s
  | .allocMode policy groups flags => applyAllocMode policy groups flags s
  | .body b inUse ov vals vTol => applyBody b inUse ov vals vTol s
  | .chanCfg ch c => applyChanCfg ch c s
  | .chanClear ch => applyChanClear ch s
  | .chanChar ch c => applyChanChar ch c s
  | .filter ch depth dc tau => applyFilter ch depth dc tau s
  | .mode m body => applyMode m body s
  | .counters => clearCounters s
  | .power op => applyPower op s
  | .lane mask op => applyLane mask op s
  | .transfer => applyTransfer s
  | .dispCfg op action trim temp => applyDisp op action trim temp s

/-- The effects of a list in the order in which they act. -/
def effectOrder (ds : List Deferred) : List Deferred :=
  (List.range 3).flatMap (fun r => (lastOnly ds).filter (fun d => effectRank d == r))

/-- What the boundary has published is brought in line with the effects of the same boundary (R381, R394). -/
def publishState (s : State) : State :=
  { s with host.stSnap := stateResult s, host.idBlock := statusRegs s, ref.leverSnap := s.ref.refs.map (·.lever) }

/-- DEFERRED_COMMAND_EFFECT (R61): the effects due at this frame boundary come into force together. The servo slot of tick 0
runs with them (R19, R61). -/
def execDeferredCommandEffect (s : State) : Host.Outcome State Fault Refusal :=
  .next (if junctionUp s && atBoundary s && 0 < s.host.due then
    let ds := s.host.deferred.take s.host.due
    publishState (redoServo ((effectOrder ds).foldl applyOne { s with host.deferred := s.host.deferred.drop s.host.due, host.due := 0 }))
  else s)

end Sys2Proof.Machine
end

