-- ==== Sys2Proof/Machine/Service.lean ====
section
/-! DEFINITION. Host service and the responder (R52, R379): the command packets of a frame set processed in order, each by
the meaning of its opcode in Table 12-18. -/

namespace Sys2Proof.Machine

/-- Opcodes of chapters 12, 05 and 06 (Table 12-18). -/
def opTable1 (opcode : Nat) : Option OpSpec :=
  match opcode with
  | 0x0101 => some pingSpec
  | 0x0102 => some getIdentitySpec
  | 0x0103 => some openSessionSpec
  | 0x0104 => some closeSessionSpec
  | 0x0105 => some getResultSpec
  | 0x0106 => some ackResultSpec
  | 0x0107 => some getStateSpec
  | 0x0108 => some setModeSpec
  | 0x0201 => some imageBeginSpec
  | 0x0202 => some (imageChunkSpec true)
  | 0x0203 => some imageCommitSpec
  | 0x0204 => some imageInfoSpec
  | 0x0301 => some (refSetSpec true)
  | 0x0302 => some (refSetSpec false)
  | 0x0303 => some refStatusSpec
  | 0x0304 => some leverGetSpec
  | 0x0305 => some leverFreezeSpec
  | 0x0306 => some trackReadSpec
  | 0x0401 => some fusionStatusSpec
  | 0x0402 => some gridSnapshotSpec
  | 0x0403 => some conflictResolveSpec
  | 0x0404 => some setpointSetSpec
  | _ => none

/-- Opcodes of chapters 07 to 09. -/
def opTable2 (opcode : Nat) : Option OpSpec :=
  match opcode with
  | 0x0501 => some loopBankWriteSpec
  | 0x0502 => some loopBankSwapSpec
  | 0x0503 => some injectStartSpec
  | 0x0504 => some captureReadSpec
  | 0x0505 => some repetitiveSpec
  | 0x0601 => some allocStatusSpec
  | 0x0602 => some thrusterEnableSpec
  | 0x0603 => some thrusterDisableSpec
  | 0x0604 => some allocModeSpec
  | 0x0605 => some attachBodySetSpec
  | 0x0701 => some chanConfigSpec
  | 0x0702 => some chanStatusSpec
  | 0x0703 => some chanReadSpec
  | 0x0704 => some hartTransactSpec
  | 0x0705 => some chanCharSpec
  | 0x0706 => some filterConfigSpec
  | 0x0707 => some complianceCheckSpec
  | _ => none

/-- Opcodes of chapters 03, 04, 10, 11, 13, 14, 15 and 02. -/
def opTable3 (opcode : Nat) : Option OpSpec :=
  match opcode with
  | 0x0801 => some gnssStatusSpec
  | 0x0802 => some gnssRawSpec
  | 0x0803 => some gnssCorrectionsSpec
  | 0x0804 => some gnssModeSpec
  | 0x0805 => some integrityReportSpec
  | 0x0901 => some timeGetSpec
  | 0x0902 => some timeSourceSpec
  | 0x0903 => some ptpConfigSpec
  | 0x0904 => some txStampReadSpec
  | 0x0905 => some ppsConfigSpec
  | 0x0A01 => some safetyStatusSpec
  | 0x0A02 => some safetyLimitsGetSpec
  | 0x0A03 => some proofStatusSpec
  | 0x0B01 => some consistStatusSpec
  | 0x0B02 => some rollCallSpec
  | 0x0B03 => some transferLeadSpec
  | 0x0B04 => some laneStatusSpec
  | 0x0B05 => some laneReintegrateSpec
  | 0x0C01 => some recReadBlockSpec
  | 0x0C02 => some recInfoSpec
  | 0x0C03 => some recClearSpec
  | 0x0C04 => some recMarkSpec
  | 0x0D01 => some dispRegionWriteSpec
  | 0x0D02 => some dispStatusSpec
  | 0x0D03 => some dispConfigSpec
  | 0x0E01 => some powerStatusSpec
  | 0x0E02 => some powerModeSpec
  | 0x0F01 => some timetableStatusSpec
  | 0x0F02 => some timetableCountersSpec
  | _ => none

/-- The meaning of an opcode (Table 12-18); none for an opcode that the table does not list. -/
def opTable (opcode : Nat) : Option OpSpec :=
  if opcode < 0x0500 then opTable1 opcode else if opcode < 0x0800 then opTable2 opcode else opTable3 opcode

/-- One packet processed. -/
def processOne (s : State) (p : Packet) : State := processPacket (opTable p.opcode) p s

/-- The verifications of a host service, 600 µs each (R370): every OPEN_SESSION with AUTH. -/
def verifyCharge (ps : List Packet) : Nat := 600 * (ps.filter (fun p => p.opcode == 0x0103 && p.flags.testBit 2)).length

/-- HOST_SERVICE (R52, R368): the agreed number of packets is processed in order; the rest stays for the next frame. While a
reply waits for a place in a full transmit buffer, host service waits with it and completes no item (R60; assumption 101). -/
def execHostService (rep : Lane3 ItemReport) (s : State) : Host.Outcome State Fault Refusal :=
  .next (if mayRun 10 s then
    let n := if producerWaits s then 0 else agreedItems rep s
    let now := s.inp.packets.take n
    chargeLeast 10 (verifyCharge now) (endItems 10 rep (now.foldl processOne { s with inp.packets := s.inp.packets.drop n }))
  else s)

/-- The packets of a frame set, in set order. -/
def setPackets (rs : List InRecord) : List Packet :=
  rs.filterMap (fun r => match r.data with
    | .packet p => some p
    | _ => none)

/-- RESPONDER (R379): without a lane in service the junction die itself processes the packets of the frame set. -/
def execResponder (s : State) : Host.Outcome State Fault Refusal :=
  .next (if junctionUp s && nServing s = 0 then
    let ps := s.inp.packets ++ setPackets s.inp.fcur
    ps.foldl processOne { s with
      inp.packets := []
      inp.fcur := s.inp.fcur.filter (fun r => match r.data with
        | .packet _ => false
        | _ => true) }
  else s)

end Sys2Proof.Machine
end

