-- ==== Sys2Proof/Machine/Tick.lean ====
section
/-! DEFINITION. The strobes (R19 to R25, R43, R56, R65): what a tick strobe and a frame boundary do. The two strobes of tick
0 fall on one instant; whichever of the two commands comes first moves the clock (assumption 58). -/

namespace Sys2Proof.Machine

/-! ### The clock (R19) -/

/-- The junction die's time base runs: the die has power and is not held in reset (R19, R439). -/
def clockRuns (s : State) : Bool := dieAlive s && !s.pow.rstLow

/-- Module time one tick on; the first strobe after a Boot from Off starts it at 0 s (R19). -/
def tickOn (s : State) : State :=
  if !s.time.running then { s with time.running := true, time.sec := 0, time.ns := 0, time.frac := 0 }
  else if s.time.ns + 1000000 < 1000000000 then { s with time.ns := s.time.ns + 1000000 }
  else { s with time.sec := s.time.sec + 1, time.ns := s.time.ns + 1000000 - 1000000000 }

/-- The instant of the next tick strobe: time, tick number, tick count and frame number move on; the tick and frame of the
first strobe are 0 (R65, R304). A PPS output never drops a pulse: one of the ending tick that is still due goes out (R84). -/
def advance (s : State) : State :=
  let s := ppsPulses (if lanesRun s then sampleCapture s else s)
  let first := !s.time.running
  let tick := (s.tt.tick + 1) % 10
  let s := tickOn { s with mono := s.mono + 1 }
  { s with
    tt.tick := if first then 0 else tick
    tt.ticks := if first then s.tt.ticks else (s.tt.ticks + 1) % 2 ^ 32
    tt.frame := if !first && tick = 0 then (s.tt.frame + 1) % 2 ^ 64 else s.tt.frame }

/-! ### Frame boundary: the junction die -/

/-- The frame window closes: its set is delivered, and what arrived for the next window joins that one (R24, R25, R29). -/
def closeFrameSet (s : State) : State :=
  let set := s.inp.fset
  let next := s.inp.fnext
  let s := { s with
    inp.fcur := set
    inp.fdig := crc64 (Config.setBytes set)
    inp.fset := []
    inp.fnext := []
    inp.fFull := false
    inp.cmdBytes := 0 }
  next.foldl (fun s r => addRecord r s) s

/-- The frame's class budgets, and a deferral for each class that still has waiting traffic (R56). -/
def refillBudgets (s : State) : State :=
  let waits (q : List Waiting) (c : Nat) : Bool := q.any (fun w => w.cls == c)
  { s with
    tt.mramDefer := s.tt.mramDefer.mapIdx (fun c n => if waits s.tt.mramWait c || (c == 1 && s.tt.recWait) then sat 32 (n + 1) else n)
    tt.recWait := false
    tt.ringDefer := s.tt.ringDefer.mapIdx (fun c n => if waits s.tt.ringWait c then sat 32 (n + 1) else n)
    tt.egressDefer := s.tt.egressDefer.mapIdx (fun i n =>
      if s.tt.egressWait.any (fun w => w.port == i / 6 && w.cls == i % 6) then sat 32 (n + 1) else n)
    tt.mramLeft := s.tt.mramBudget
    tt.ringLeft := s.tt.ringBudget
    tt.egressLeft := (List.replicate 12 s.tt.egressBudget).flatten
    tt.ringSent := [] }

/-- Module time of the boundary (R398). -/
def stampBoundary (s : State) : State :=
  { s with tt.bSec := s.time.sec, tt.bNs := s.time.ns, tt.bQual := qualityByte s }

/-- A completed full image replaces the one in SRAM (R353). -/
def takeFull (s : State) : State :=
  match s.cons.fullWait with
  | none => s
  | some (f, _) => { s with cons.full := some f, cons.fullWait := none }

/-! ### Frame boundary: the frame that ends -/

/-- Every chain activity of the frame that ends has completed (R356). -/
def chainComplete (s : State) : Bool :=
  lanesRun s && decide (8 ≤ s.tt.nextAct) && !s.tt.closingNow && (s.tt.heldNow.take 8).all (fun h => !h)

/-- The observer has not run to its end in the frame that ends (Table 2-2). -/
def observerMissed (s : State) : Bool := lanesRun s && works s && (decide (s.tt.nextAct ≤ 4) || s.tt.heldNow.getD 4 false)

/-- What the frame that ends counts (R354, R356, R357, Table 2-2). -/
def countFrame (s : State) : State :=
  { s with
    obs.elapsed := if observerMissed s then s.obs.elapsed + 1 else s.obs.elapsed
    obs.reset := false
    cons.goodFrames := if chainComplete s then s.cons.goodFrames + 1 else 0
    cons.shadowFrames := if s.pow.state == .boot && s.cons.phase = 2 && !s.cons.outgoing && s.cons.restored then s.cons.shadowFrames + 1
                         else s.cons.shadowFrames }

/-- The timetable of the frame that ends becomes that of the previous frame (Table 2-4). The end of the chain is measured
(assumption 5); by R53 it is at most 3,950 µs. What a disabled object had gathered has been used once (R62), and its tracks are
FREE, whether or not association ran (R158). -/
def newFrame (s : State) : State :=
  let (n, s) := takeNat s
  let s := (List.range 16).foldl (fun s i => if (s.ref.refs.getD i {}).dropEnd then freeTracks i s else s) s
  let used := fun (u : RefUnit) => { u with dropEnd := false }
  { s with
    tt.used := s.tt.usedNow
    tt.usedNow := List.replicate 39 0
    tt.chainEnd := if lanesRun s then n % 3951 else 0
    tt.closingPrev := s.tt.closingNow
    tt.closingNow := false
    tt.heldNow := (List.replicate 13 false).set 8 (s.tt.heldNow.getD 8 false)
    tt.nextAct := 0
    inp.noVote := false
    ref.refs := s.ref.refs.map used
    ref.sens := s.ref.sens.map used
    host.vecFrame := []
    host.due := s.host.deferred.length }

/-! ### Frame boundary: module state -/

/-- Active to Safe-Stop when the signal box is out of RUN, and back to Active in Standby-Hold (R434, R252). -/
def judgeSafeStop (s : State) : State :=
  if s.pow.state == .active && s.sb.state != .run then abortCheck (endInjection 5 (changeState .safeStop 3 s))
  else if s.pow.state == .safeStop && s.sb.state == .run then
    applyMode .standbyHold 0 { changeState .active 3 s with alloc.fromDel := true }
  else s

/-- The preconditions of a running injection and a running check at the boundary (R226, R287). -/
def judgeTests (s : State) : State :=
  let s := match s.ctl.inj.job with
    | none => s
    | some j => if s.ctl.inj.live && !(injAllowed s j) then endInjection 3 s else s
  match s.check with
  | none => s
  | some c => if checkAllowed s c.ch then s else abortCheck s

/-- A Layover whose signal box waits for a proof or a reset powers its lanes again (R438). -/
def judgeResetLanes (s : State) : State :=
  if s.pow.state == .layover && sbWaits s && !s.pow.resetLanes then
    { s with pow.resetLanes := true, lanes := s.lanes.map (fun x => { x with powered := true }) }
  else s

/-- The snapshots that status opcodes and BAR0 give for the frame (R94, R381, R394, R446). -/
def snapFrame (s : State) : State :=
  let s := snapPower s
  { s with
    ref.leverSnap := s.ref.refs.map (·.lever)
    host.stSnap := stateResult s
    host.tmSnap := timeGetResult s
    host.idBlock := statusRegs s
    host.frameSeq := (s.host.frameSeq + 1) % 2 ^ 32 }

/-- What begins a frame, in order: the junction die's sets and budgets, the counts of the frame that ends, the image, and the
changes of module state. -/
def beginFrame (s : State) : State :=
  let s := stampBoundary (settleServo s)
  let s := newFrame (countFrame (takeFull (closeFrameSet s)))
  let s := sendNav (refillBudgets (rateAtBoundary (imageAtBoundary s)))
  snapFrame (judgeResetLanes (judgeTests (judgeSafeStop s)))

/-- FRAME_BOUNDARY (R19, R25, R56, R434): the strobe of tick 0 begins a frame. -/
def execFrameBoundary (s : State) : Host.Outcome State Fault Refusal :=
  .next (if !clockRuns s then s
  else if s.tt.boundaryDue then beginFrame { s with tt.boundaryDue := false }
  else if s.tt.tick = 9 then beginFrame { advance s with tt.strobeDue := true }
  else s)

/-! ### Tick strobe -/

/-- The tick window closes (R24, R25, R29). -/
def closeTickSet (s : State) : State :=
  let set := s.inp.tset
  let next := s.inp.tnext
  let s := { s with
    inp.tcur := set
    inp.tdig := crc64 (Config.setBytes set)
    inp.tset := []
    inp.tnext := []
    inp.tFull := false }
  next.foldl (fun s r => addRecord r s) s

/-- What is new in every tick: no vector and no pulse yet (R385, R386), no CRC failure within this millisecond (R339); a servo
slot that was not held ends its run of holds (R55). -/
def newTick (s : State) : State :=
  let s := settleServo s
  { s with
    host.vecNow := []
    host.evtPulsed := List.replicate 8 false
    cons.links := s.cons.links.map (fun l => { l with crcErr := 0 })
    tt.run := if s.tt.servoDone then s.tt.run.set 8 0 else s.tt.run
    tt.heldNow := s.tt.heldNow.set 8 false
    tt.servoDone := false }

/-- Sets whose every setpoint is 0xFFFF, released by lanes that are powered for a reset (R438). -/
def releaseIdle (s : State) : State := { s with ctl.released := { tick := s.tt.ticks } }

/-- The servo CAN FD values and the signal box's report of a tick set (R204, R311). -/
def readReports (set : List InRecord) (s : State) : State :=
  set.foldl (fun s r => match r.data with
    | .servoCan slot v => { s with inp.canIn := (slot, v, s.mono) :: s.inp.canIn.filter (fun c => c.1 != slot) }
    | .sbReport l r => { s with ctl.sbTouched := l, ctl.sbRepeats := r }
    | _ => s) { s with ctl.sbTouched := [], ctl.sbRepeats := ⟨false, false, false⟩ }

/-- The lanes take the tick set (R29 to R31): without a majority they run on an empty one. -/
def gatherTick (err : Lane3 Nat) (s : State) : State :=
  let (ok, s) := agreeOn .tick s.inp.tdig err s
  let set := if ok then s.inp.tcur else []
  readReports set (readSlots set s)

/-- The deviating bit of a lane stands at some island of this tick set (R273). -/
def laneDeviates (s : State) (l : Lane) : Bool :=
  s.isl.any (fun i => isOut i.cfg && decide (i.upMiss = 0) && i.up.flagsB.testBit l.num)

/-- Deviating ticks counted (R331, cause DEVIATING): the third in a row while the other lanes' bits are clear is a lane fault. -/
def countDeviating (s : State) : State :=
  let bad := lanesAll.map (fun l => (l, laneDeviates s l))
  bad.foldl (fun s x =>
    let alone := x.2 && !(bad.any (fun y => y.1 != x.1 && y.2))
    let y := laneOf s x.1
    let run := if alone then y.devRun + 1 else 0
    let s := setLane s x.1 { y with deviating := if x.2 then sat 32 (y.deviating + 1) else y.deviating, devRun := run }
    if 3 ≤ run then laneFault x.1 3 s else s) s

/-- What the lanes do at a tick strobe (R22, R29, R43): release, agree on the tick set, run the servo slot. -/
def laneTick (err : Lane3 Nat) (s : State) : State :=
  let s := stepPrbs (pulseMarks (tickAzimuths (gatherTick err (releaseSet s))))
  let s := stepCheckBack (if works s then chargeAct 8 (servoCharge s) [] (servoSlot s) else s)
  let s := snapAgain s
  countDeviating s

/-- What the link commands an island (Table 15-4, R268, R356): REGULATE to command outputs in Commissioning, Active and
Safe-Stop, CAPTURE at a takeover; a channel under a compliance check regulates (R286); everything else stays in THROUGH. -/
def linkCmdOf (s : State) (i : Isl) : LinkCmd :=
  if i.checkDrive.isSome && (s.pow.state == .commissioning || s.pow.state == .active) then .regulate
  else match i.cfg.role with
  | .command _ _ =>
    if !(isOut i.cfg) then .through
    else match s.pow.state with
      | .commissioning | .active | .safeStop =>
        if s.cons.capturing then .through else if s.cons.capLink then .capture else .regulate
      | _ => .through
  | _ => .through

/-- A fragment of longer data for the junction field: type, number and at most 6 bytes (Table 9-3). -/
def fragment (jType frag : Nat) (data : List Byte) : DownField :=
  { jType, frag := frag % 16, last := decide (data.length ≤ 6), payload := data.take 6 }

/-- The number of the fragment after this one: the next transfer begins at 0 again. -/
def nextFrag (frag : Nat) (data : List Byte) : Nat := if data.length ≤ 6 then 0 else (frag + 1) % 16

/-- The junction field of an island's next downstream slot (Table 9-3, R60, R268): a new link command first, then configuration, then
HART data; an output with nothing else to be sent has its link command repeated (the order is a DESIGN CHOICE; assumption 116). -/
def sendField (s : State) (i : Isl) : Isl :=
  let cmd := linkCmdOf s i
  let link : DownField := { jType := 3, last := true, payload := leBytes 1 cmd.code }
  if cmd != i.linkOut then { i with down := link, linkOut := cmd }
  else if !i.cfgDown.isEmpty then
    { i with down := fragment 1 i.cfgFrag i.cfgDown, cfgDown := i.cfgDown.drop 6, cfgFrag := nextFrag i.cfgFrag i.cfgDown }
  else match i.hartDown with
    | some (b :: t) => { i with down := fragment 2 i.hartFrag (b :: t), hartDown := some ((b :: t).drop 6),
                                hartFrag := nextFrag i.hartFrag (b :: t) }
    | _ => { i with down := if isOut i.cfg then link else {} }

/-- Configuration or HART data waits for later ticks (R60). -/
def downWaits (i : Isl) : Bool := !i.cfgDown.isEmpty || i.hartDown.any (fun b => !b.isEmpty)

/-- The downstream slots of a tick (R60, R268, R269), and an island-link deferral in a tick in which data waits. -/
def sendDown (s : State) : State :=
  let isl := s.isl.map (sendField s)
  { s with isl := isl, tt.islandDefer := if isl.any downWaits then sat 32 (s.tt.islandDefer + 1) else s.tt.islandDefer }

/-- What the junction die does at a tick strobe (R60, R71, R325, R346, R347, R359, R408). A silent module sends nothing (R337). -/
def dieTick (s : State) : State :=
  let s := if islandsUp s then sendDown (stepHarts s) else s
  let s := tickTime (sbStrobe s)
  let s := if junctionUp s then rollWest (sendHeartbeats s) else s
  let s := updateRecRegs s
  if junctionUp s then { s with cons.seq := (s.cons.seq + 1) % 2 ^ 32 } else s

/-- The work of a tick strobe. -/
def strobe (err : Lane3 Nat) (s : State) : State :=
  let s := newTick (closeTickSet s)
  let s := if lanesRun s then laneTick err s else if s.pow.resetLanes then releaseIdle s else s
  dieTick s

/-- TICK_STROBE (R19, R22, R43): `copyErr` is the difference of each lane's digest of the tick set. -/
def execTickStrobe (copyErr : Lane3 Nat) (s : State) : Host.Outcome State Fault Refusal :=
  .next (if !clockRuns s then s
  else if s.tt.strobeDue then strobe copyErr { s with tt.strobeDue := false }
  else
    let s := advance s
    strobe copyErr (if s.tt.tick = 0 then { s with tt.boundaryDue := true } else s))

end Sys2Proof.Machine
end

