-- ==== Sys2Proof/Machine/Dispatch.lean ====
section
/-! DEFINITION. One arm for each command of the block. -/

namespace Sys2Proof.Machine

/-- The effect of a command on everything but the queue. -/
def exec (i : Instr) (s : State) : Host.Outcome State Fault Refusal :=
  match i with
  | .tickStrobe copyErr => Sys2Proof.Machine.execTickStrobe copyErr s
  | .frameBoundary => Sys2Proof.Machine.execFrameBoundary s
  | .recordArrival r => Sys2Proof.Machine.execRecordArrival r s
  | .redelivery kind lane err complete => Sys2Proof.Machine.execRedelivery kind lane err complete s
  | .junctionInputPathFault kind => Sys2Proof.Machine.execJunctionInputPathFault kind s
  | .inputGather copyErr => Sys2Proof.Machine.execInputGather copyErr s
  | .fastPacketTimeout link src pgn => Sys2Proof.Machine.execFastPacketTimeout link src pgn s
  | .timeAlignment => Sys2Proof.Machine.execTimeAlignment s
  | .sensorDeviating q cand => Sys2Proof.Machine.execSensorDeviating q cand s
  | .sensorReadmit q cand => Sys2Proof.Machine.execSensorReadmit q cand s
  | .targetAssociation => Sys2Proof.Machine.execTargetAssociation s
  | .refNoData sensor index => Sys2Proof.Machine.execRefNoData sensor index s
  | .gridFusion => Sys2Proof.Machine.execGridFusion s
  | .refConflictRaised => Sys2Proof.Machine.execRefConflictRaised s
  | .refConflictCleared => Sys2Proof.Machine.execRefConflictCleared s
  | .conflictTimeout => Sys2Proof.Machine.execConflictTimeout s
  | .recentreMeasured => Sys2Proof.Machine.execRecentreMeasured s
  | .probationEnd ref => Sys2Proof.Machine.execProbationEnd ref s
  | .observer => Sys2Proof.Machine.execObserver s
  | .observerInitEnd => Sys2Proof.Machine.execObserverInitEnd s
  | .controlLaw => Sys2Proof.Machine.execControlLaw s
  | .positionTermsReturn => Sys2Proof.Machine.execPositionTermsReturn s
  | .periodLost axis => Sys2Proof.Machine.execPeriodLost axis s
  | .allocation => Sys2Proof.Machine.execAllocation s
  | .allocFailing => Sys2Proof.Machine.execAllocFailing s
  | .demandUnmet set => Sys2Proof.Machine.execDemandUnmet set s
  | .transitEntry thruster sector => Sys2Proof.Machine.execTransitEntry thruster sector s
  | .outputDistribution => Sys2Proof.Machine.execOutputDistribution s
  | .loopBankSwapApply => Sys2Proof.Machine.execLoopBankSwapApply s
  | .injectionStart => Sys2Proof.Machine.execInjectionStart s
  | .injectionEnd => Sys2Proof.Machine.execInjectionEnd s
  | .captureDone => Sys2Proof.Machine.execCaptureDone s
  | .checkpoint x => Sys2Proof.Machine.execCheckpoint x s
  | .hostService rep => Sys2Proof.Machine.execHostService rep s
  | .logging rep => Sys2Proof.Machine.execLogging rep s
  | .housekeeping rep found => Sys2Proof.Machine.execHousekeeping rep found s
  | .heldAtSignal act held => Sys2Proof.Machine.execHeldAtSignal act held s
  | .outcomeTimeout act lane => Sys2Proof.Machine.execOutcomeTimeout act lane s
  | .chainClosingHold running => Sys2Proof.Machine.execChainClosingHold running s
  | .persistentHold act => Sys2Proof.Machine.execPersistentHold act s
  | .deferredTrafficRelease x => Sys2Proof.Machine.execDeferredTrafficRelease x s
  | .deferredCommandEffect => Sys2Proof.Machine.execDeferredCommandEffect s
  | .sourceQualified id err => Sys2Proof.Machine.execSourceQualified id err s
  | .sourceLost id => Sys2Proof.Machine.execSourceLost id s
  | .stepApplied residual => Sys2Proof.Machine.execStepApplied residual s
  | .slewComplete => Sys2Proof.Machine.execSlewComplete s
  | .freerunEntry => Sys2Proof.Machine.execFreerunEntry s
  | .ext10mQualified => Sys2Proof.Machine.execExt10mQualified s
  | .ext10mLost => Sys2Proof.Machine.execExt10mLost s
  | .ppsOutPulse out => Sys2Proof.Machine.execPpsOutPulse out s
  | .ppsInEdge ns => Sys2Proof.Machine.execPpsInEdge ns s
  | .ptpMessage port m => Sys2Proof.Machine.execPtpMessage port m s
  | .ptpAnnounceTimeout port => Sys2Proof.Machine.execPtpAnnounceTimeout port s
  | .txStampQueued port e => Sys2Proof.Machine.execTxStampQueued port e s
  | .snapLatch value => Sys2Proof.Machine.execSnapLatch value s
  | .timeGet p => Sys2Proof.Machine.execTimeGet p s
  | .timeSource p => Sys2Proof.Machine.execTimeSource p s
  | .ptpConfig p => Sys2Proof.Machine.execPtpConfig p s
  | .txStampRead p => Sys2Proof.Machine.execTxStampRead p s
  | .ppsConfig p => Sys2Proof.Machine.execPpsConfig p s
  | .gnssEpoch e => Sys2Proof.Machine.execGnssEpoch e s
  | .epochBlockTimeout => Sys2Proof.Machine.execEpochBlockTimeout s
  | .channelStateChange channel ev => Sys2Proof.Machine.execChannelStateChange channel ev s
  | .modeFallback => Sys2Proof.Machine.execModeFallback s
  | .modeReturn => Sys2Proof.Machine.execModeReturn s
  | .rtcmFrame bytes => Sys2Proof.Machine.execRtcmFrame bytes s
  | .antennaFaultDetect antenna x => Sys2Proof.Machine.execAntennaFaultDetect antenna x s
  | .antennaRetry antenna normal => Sys2Proof.Machine.execAntennaRetry antenna normal s
  | .snapshotCapture c => Sys2Proof.Machine.execSnapshotCapture c s
  | .hotfixComplete h => Sys2Proof.Machine.execHotfixComplete h s
  | .gnssStatus p => Sys2Proof.Machine.execGnssStatus p s
  | .gnssRaw p => Sys2Proof.Machine.execGnssRaw p s
  | .gnssCorrections p => Sys2Proof.Machine.execGnssCorrections p s
  | .gnssMode p => Sys2Proof.Machine.execGnssMode p s
  | .integrityReport p => Sys2Proof.Machine.execIntegrityReport p s
  | .refEnable p => Sys2Proof.Machine.execRefEnable p s
  | .refDisable p => Sys2Proof.Machine.execRefDisable p s
  | .refStatus p => Sys2Proof.Machine.execRefStatus p s
  | .leverArmGet p => Sys2Proof.Machine.execLeverArmGet p s
  | .leverArmFreeze p => Sys2Proof.Machine.execLeverArmFreeze p s
  | .trackTableRead p => Sys2Proof.Machine.execTrackTableRead p s
  | .fusionStatus p => Sys2Proof.Machine.execFusionStatus p s
  | .gridSnapshot p => Sys2Proof.Machine.execGridSnapshot p s
  | .gridHoldExpiry => Sys2Proof.Machine.execGridHoldExpiry s
  | .conflictResolve p => Sys2Proof.Machine.execConflictResolve p s
  | .setpointSet p => Sys2Proof.Machine.execSetpointSet p s
  | .loopBankWrite p => Sys2Proof.Machine.execLoopBankWrite p s
  | .loopBankSwap p => Sys2Proof.Machine.execLoopBankSwap p s
  | .injectStart p => Sys2Proof.Machine.execInjectStart p s
  | .captureRead p => Sys2Proof.Machine.execCaptureRead p s
  | .repetitiveCtrl p => Sys2Proof.Machine.execRepetitiveCtrl p s
  | .allocStatus p => Sys2Proof.Machine.execAllocStatus p s
  | .thrusterEnable p => Sys2Proof.Machine.execThrusterEnable p s
  | .thrusterDisable p => Sys2Proof.Machine.execThrusterDisable p s
  | .allocMode p => Sys2Proof.Machine.execAllocMode p s
  | .attachBodySet p => Sys2Proof.Machine.execAttachBodySet p s
  | .applyMarker missed bad => Sys2Proof.Machine.execApplyMarker missed bad s
  | .upstreamSlot bad => Sys2Proof.Machine.execUpstreamSlot bad s
  | .linkFault ch => Sys2Proof.Machine.execLinkFault ch s
  | .splitAlarm ch => Sys2Proof.Machine.execSplitAlarm ch s
  | .islandSample ch x => Sys2Proof.Machine.execIslandSample ch x s
  | .complianceSet ch => Sys2Proof.Machine.execComplianceSet ch s
  | .complianceClear ch => Sys2Proof.Machine.execComplianceClear ch s
  | .readbackFault ch => Sys2Proof.Machine.execReadbackFault ch s
  | .alarmEntry ch => Sys2Proof.Machine.execAlarmEntry ch s
  | .alarmUndeliverable ch => Sys2Proof.Machine.execAlarmUndeliverable ch s
  | .assistedPowerFail ch => Sys2Proof.Machine.execAssistedPowerFail ch s
  | .linkSlotLossHold ch => Sys2Proof.Machine.execLinkSlotLossHold ch s
  | .holdTimeout ch => Sys2Proof.Machine.execHoldTimeout ch s
  | .energyLow ch => Sys2Proof.Machine.execEnergyLow ch s
  | .captureTimeout ch => Sys2Proof.Machine.execCaptureTimeout ch s
  | .seriesLimitedExpiry ch => Sys2Proof.Machine.execSeriesLimitedExpiry ch s
  | .decimationOutput ch raw => Sys2Proof.Machine.execDecimationOutput ch raw s
  | .overloadSet ch => Sys2Proof.Machine.execOverloadSet ch s
  | .overloadClear ch => Sys2Proof.Machine.execOverloadClear ch s
  | .noPulse ch => Sys2Proof.Machine.execNoPulse ch s
  | .hartFrameReceived ch f => Sys2Proof.Machine.execHartFrameReceived ch f s
  | .hartTransactionEnd ch r => Sys2Proof.Machine.execHartTransactionEnd ch r s
  | .multidropPoll ch r => Sys2Proof.Machine.execMultidropPoll ch r s
  | .missingRetry ch addr r => Sys2Proof.Machine.execMissingRetry ch addr r s
  | .configPendingApply ch => Sys2Proof.Machine.execConfigPendingApply ch s
  | .complianceCheckPhase x => Sys2Proof.Machine.execComplianceCheckPhase x s
  | .chanConfig p => Sys2Proof.Machine.execChanConfig p s
  | .chanStatus p => Sys2Proof.Machine.execChanStatus p s
  | .chanRead p => Sys2Proof.Machine.execChanRead p s
  | .hartTransact p => Sys2Proof.Machine.execHartTransact p s
  | .chanCharacteristic p => Sys2Proof.Machine.execChanCharacteristic p s
  | .filterConfig p => Sys2Proof.Machine.execFilterConfig p s
  | .complianceCheck p => Sys2Proof.Machine.execComplianceCheck p s
  | .sbCommandSet x => Sys2Proof.Machine.execSbCommandSet x s
  | .sbInternal cause => Sys2Proof.Machine.execSbInternal cause s
  | .safetyInputChange pin closed => Sys2Proof.Machine.execSafetyInputChange pin closed s
  | .discrepancy pair => Sys2Proof.Machine.execDiscrepancy pair s
  | .safeContactTimeout contactB => Sys2Proof.Machine.execSafeContactTimeout contactB s
  | .yawRateStop => Sys2Proof.Machine.execYawRateStop s
  | .sbSelfTestEnd passed openA openB => Sys2Proof.Machine.execSbSelfTestEnd passed openA openB s
  | .proofDue => Sys2Proof.Machine.execProofDue s
  | .resetPulse => Sys2Proof.Machine.execResetPulse s
  | .rstStuck => Sys2Proof.Machine.execRstStuck s
  | .rstStuckClear => Sys2Proof.Machine.execRstStuckClear s
  | .springbokRelease => Sys2Proof.Machine.execSpringbokRelease s
  | .springbokTest seenA seenB => Sys2Proof.Machine.execSpringbokTest seenA seenB s
  | .safetyStatus p => Sys2Proof.Machine.execSafetyStatus p s
  | .safetyLimitsGet p => Sys2Proof.Machine.execSafetyLimitsGet p s
  | .proofStatus p => Sys2Proof.Machine.execProofStatus p s
  | .egressCopy lane id err => Sys2Proof.Machine.execEgressCopy lane id err s
  | .egressTimeout id => Sys2Proof.Machine.execEgressTimeout id s
  | .reintegrationStart lane => Sys2Proof.Machine.execReintegrationStart lane s
  | .laneEnterService lane => Sys2Proof.Machine.execLaneEnterService lane s
  | .junctionPairDifference block unit => Sys2Proof.Machine.execJunctionPairDifference block unit s
  | .junctionBlockRecovered block unit => Sys2Proof.Machine.execJunctionBlockRecovered block unit s
  | .ringMessage east x => Sys2Proof.Machine.execRingMessage east x s
  | .ringLinkUp east => Sys2Proof.Machine.execRingLinkUp east s
  | .ringLinkDown east => Sys2Proof.Machine.execRingLinkDown east s
  | .linkDelayMeasure east roundTripPs turnPs => Sys2Proof.Machine.execLinkDelayMeasure east roundTripPs turnPs s
  | .rollCallStart => Sys2Proof.Machine.execRollCallStart s
  | .rollCallEnd r => Sys2Proof.Machine.execRollCallEnd r s
  | .noHome => Sys2Proof.Machine.execNoHome s
  | .roleAssignment => Sys2Proof.Machine.execRoleAssignment s
  | .heartbeatWord hbB slot word => Sys2Proof.Machine.execHeartbeatWord hbB slot word s
  | .leadLost addr => Sys2Proof.Machine.execLeadLost addr s
  | .carrierFault carrier addr => Sys2Proof.Machine.execCarrierFault carrier addr s
  | .arbConfirmed => Sys2Proof.Machine.execArbConfirmed s
  | .arbRefused => Sys2Proof.Machine.execArbRefused s
  | .leadYield => Sys2Proof.Machine.execLeadYield s
  | .splitViewClear => Sys2Proof.Machine.execSplitViewClear s
  | .takeoverStart => Sys2Proof.Machine.execTakeoverStart s
  | .takeoverRestore x => Sys2Proof.Machine.execTakeoverRestore x s
  | .takeoverFirstFrame => Sys2Proof.Machine.execTakeoverFirstFrame s
  | .takeoverCapture => Sys2Proof.Machine.execTakeoverCapture s
  | .transferShadowEnd => Sys2Proof.Machine.execTransferShadowEnd s
  | .transferRelease => Sys2Proof.Machine.execTransferRelease s
  | .transferAbort => Sys2Proof.Machine.execTransferAbort s
  | .consistStatus p => Sys2Proof.Machine.execConsistStatus p s
  | .rollCall p => Sys2Proof.Machine.execRollCall p s
  | .transferLead p => Sys2Proof.Machine.execTransferLead p s
  | .laneStatus p => Sys2Proof.Machine.execLaneStatus p s
  | .laneReintegrate p => Sys2Proof.Machine.execLaneReintegrate p s
  | .commandDatagram port d => Sys2Proof.Machine.execCommandDatagram port d s
  | .relayRecordExpiry index => Sys2Proof.Machine.execRelayRecordExpiry index s
  | .sessionTimeout slot => Sys2Proof.Machine.execSessionTimeout slot s
  | .completionReply slot tag => Sys2Proof.Machine.execCompletionReply slot tag s
  | .responder => Sys2Proof.Machine.execResponder s
  | .queueDoorbell queue tail f => Sys2Proof.Machine.execQueueDoorbell queue tail f s
  | .queueEnable queue value => Sys2Proof.Machine.execQueueEnable queue value s
  | .completionHeadWrite queue value => Sys2Proof.Machine.execCompletionHeadWrite queue value s
  | .vecPendClear high value => Sys2Proof.Machine.execVecPendClear high value s
  | .vecTest value => Sys2Proof.Machine.execVecTest value s
  | .registerWrite offset value => Sys2Proof.Machine.execRegisterWrite offset value s
  | .ping p => Sys2Proof.Machine.execPing p s
  | .getIdentity p => Sys2Proof.Machine.execGetIdentity p s
  | .openSession p => Sys2Proof.Machine.execOpenSession p s
  | .closeSession p => Sys2Proof.Machine.execCloseSession p s
  | .getResult p => Sys2Proof.Machine.execGetResult p s
  | .ackResult p => Sys2Proof.Machine.execAckResult p s
  | .getState p => Sys2Proof.Machine.execGetState p s
  | .setMode p => Sys2Proof.Machine.execSetMode p s
  | .imageBegin p => Sys2Proof.Machine.execImageBegin p s
  | .imageChunk p readbackOk => Sys2Proof.Machine.execImageChunk p readbackOk s
  | .imageTransferAbandon => Sys2Proof.Machine.execImageTransferAbandon s
  | .imageCommit p => Sys2Proof.Machine.execImageCommit p s
  | .imageCommitComplete readbackOk => Sys2Proof.Machine.execImageCommitComplete readbackOk s
  | .imageInfo p => Sys2Proof.Machine.execImageInfo p s
  | .timetableStatus p => Sys2Proof.Machine.execTimetableStatus p s
  | .timetableCounters p => Sys2Proof.Machine.execTimetableCounters p s
  | .recorderWrite fails => Sys2Proof.Machine.execRecorderWrite fails s
  | .recLoad => Sys2Proof.Machine.execRecLoad s
  | .recNext => Sys2Proof.Machine.execRecNext s
  | .recPrev => Sys2Proof.Machine.execRecPrev s
  | .recLoadComplete => Sys2Proof.Machine.execRecLoadComplete s
  | .recReadBlock p => Sys2Proof.Machine.execRecReadBlock p s
  | .recInfo p => Sys2Proof.Machine.execRecInfo p s
  | .recClear p => Sys2Proof.Machine.execRecClear p s
  | .recMark p => Sys2Proof.Machine.execRecMark p s
  | .displayFrameStart crackOhm => Sys2Proof.Machine.execDisplayFrameStart crackOhm s
  | .crackDetected => Sys2Proof.Machine.execCrackDetected s
  | .glassTemperatureSample temp => Sys2Proof.Machine.execGlassTemperatureSample temp s
  | .regionDead region => Sys2Proof.Machine.execRegionDead region s
  | .regionHoldEnd region => Sys2Proof.Machine.execRegionHoldEnd region s
  | .dispRegionWrite p => Sys2Proof.Machine.execDispRegionWrite p s
  | .dispStatus p => Sys2Proof.Machine.execDispStatus p s
  | .dispConfig p => Sys2Proof.Machine.execDispConfig p s
  | .supplyChange input ev mv => Sys2Proof.Machine.execSupplyChange input ev mv s
  | .vbakTest mv => Sys2Proof.Machine.execVbakTest mv s
  | .powerFail => Sys2Proof.Machine.execPowerFail s
  | .holdupStop atThreshold => Sys2Proof.Machine.execHoldupStop atThreshold s
  | .chamoisSecond => Sys2Proof.Machine.execChamoisSecond s
  | .chamoisCopy => Sys2Proof.Machine.execChamoisCopy s
  | .vbakCollapse => Sys2Proof.Machine.execVbakCollapse s
  | .overTemperature temp => Sys2Proof.Machine.execOverTemperature temp s
  | .faultRestart => Sys2Proof.Machine.execFaultRestart s
  | .layoverEntry => Sys2Proof.Machine.execLayoverEntry s
  | .layoverLanesOff => Sys2Proof.Machine.execLayoverLanesOff s
  | .sysRstAssert lowUs => Sys2Proof.Machine.execSysRstAssert lowUs s
  | .sysRstRelease railsOk => Sys2Proof.Machine.execSysRstRelease railsOk s
  | .bootStart b => Sys2Proof.Machine.execBootStart b s
  | .bootComplete b => Sys2Proof.Machine.execBootComplete b s
  | .watchdog railsOk => Sys2Proof.Machine.execWatchdog railsOk s
  | .powerStatus p => Sys2Proof.Machine.execPowerStatus p s
  | .powerMode p => Sys2Proof.Machine.execPowerMode p s
  | .laneMonitorFault lane supply => Sys2Proof.Machine.execLaneMonitorFault lane supply s
  | .tickStrobeMissing => Sys2Proof.Machine.execTickStrobeMissing s
  | .islandThermalLimit ch => Sys2Proof.Machine.execIslandThermalLimit ch s
  | .sentenceOverlength link => Sys2Proof.Machine.execSentenceOverlength link s
  | .ptpMessageTransmit port kind => Sys2Proof.Machine.execPtpMessageTransmit port kind s
  | .retainedRegionScrub err => Sys2Proof.Machine.execRetainedRegionScrub err s

end Sys2Proof.Machine
end

