-- ==== Sys2Proof/Laws/FrameBase.lean ====
section
/-! SUPPORT. The operations, the time base and the input sets: what each operation leaves alone. A lemma `f_only` says that an
observation of the state which is blind to the parts named in its hypothesis is the same after `f` as before it. -/

set_option maxRecDepth 20000
set_option linter.unusedSimpArgs false
set_option linter.unusedVariables false
set_option linter.unusedTactic false
set_option linter.unreachableTactic false

namespace Sys2Proof.Machine

/-! ### Machine/Ops.lean -/

/-- An observation of the state. -/
def look {α : Type} (π : State → α) (s : State) : α := π s

theorem look_foldl {α β : Type} (π : State → α) (f : State → β → State) (h : ∀ s x, look π (f s x) = look π s) (l : List β)
    (s : State) : look π (l.foldl f s) = look π s := by
  induction l generalizing s with
  | nil => rfl
  | cons a t ih => rw [List.foldl_cons, ih, h]

theorem look_ite {α : Type} {π : State → α} {c : Prop} [Decidable c] {a b s : State} (ha : look π a = look π s)
    (hb : look π b = look π s) : look π (if c then a else b) = look π s := by
  split
  · exact ha
  · exact hb

@[simp ↓] theorem setLane_only {α : Type} (π : State → α) (h : ∀ s x0, look π { s with lanes := x0 } = look π s) (s : State) (l : Lane) (v : LaneSt) :
    look π (setLane s l v) = look π s := by
  simp [setLane, h]

@[simp ↓] theorem assertVec_only {α : Type} (π : State → α) (h : ∀ s x0, look π { s with host := x0 } = look π s) (v : Nat) (s : State) :
    look π (assertVec v s) = look π s := by
  simp [assertVec, h]

@[simp ↓] theorem assertVecFrame_only {α : Type} (π : State → α) (h : ∀ s x0, look π { s with host := x0 } = look π s) (v src : Nat) (s : State) :
    look π (assertVecFrame v src s) = look π s := by
  simp only [assertVecFrame]; repeat' (first | (simp [h]; done) | split)

@[simp ↓] theorem assertQueueVec_only {α : Type} (π : State → α) (h : ∀ s x0, look π { s with host := x0 } = look π s) (q : Nat) (s : State) :
    look π (assertQueueVec q s) = look π s := by
  simp only [assertQueueVec]; repeat' (first | (simp [h]; done) | split)

@[simp ↓] theorem composeFull_only {α : Type} (π : State → α) (h : ∀ s x0 x1, look π { s with host := x0, log := x1 } = look π s) (s : State) :
    look π (composeFull s) = look π s := by
  simp only [composeFull]; repeat' (first | (simp [h]; done) | split)

@[simp ↓] theorem sequenceRec_only {α : Type} (π : State → α) (h : ∀ s x0 x1, look π { s with host := x0, log := x1 } = look π s) (r : Rec) (s : State) :
    look π (sequenceRec r s) = look π s := by
  simp [sequenceRec, h]

@[simp ↓] theorem stageRec_only {α : Type} (π : State → α) (h : ∀ s x0 x1, look π { s with host := x0, log := x1 } = look π s) (r : Rec) (s : State) :
    look π (stageRec r s) = look π s := by
  simp only [stageRec]; repeat' (first | (simp [h]; done) | split)

@[simp ↓] theorem stageLost_only {α : Type} (π : State → α) (h : ∀ s x0 x1, look π { s with host := x0, log := x1 } = look π s) (s : State) :
    look π (stageLost s) = look π s := by
  simp only [stageLost]; repeat' (first | (simp [h]; done) | split)

@[simp ↓] theorem logAt_only {α : Type} (π : State → α) (h : ∀ s x0 x1, look π { s with host := x0, log := x1 } = look π s) (source code lanes sec ns quality : Nat) (data : List Byte) (s : State) :
    look π (logAt source code lanes sec ns quality data s) = look π s := by
  simp [logAt, h]

@[simp ↓] theorem logJ_only {α : Type} (π : State → α) (h : ∀ s x0 x1, look π { s with host := x0, log := x1 } = look π s) (source code : Nat) (data : List Byte) (s : State) :
    look π (logJ source code data s) = look π s := by
  simp [logJ, h]

@[simp ↓] theorem logLMask_only {α : Type} (π : State → α) (h : ∀ s x0, look π { s with log := x0 } = look π s) (source code lanes : Nat) (data : List Byte) (s : State) :
    look π (logLMask source code lanes data s) = look π s := by
  simp [logLMask, h]

@[simp ↓] theorem logL_only {α : Type} (π : State → α) (h : ∀ s x0, look π { s with log := x0 } = look π s) (source code : Nat) (data : List Byte) (s : State) :
    look π (logL source code data s) = look π s := by
  simp [logL, h]

@[simp ↓] theorem changeState_only {α : Type} (π : State → α) (h : ∀ s x0 x1 x2, look π { s with host := x0, log := x1, pow := x2 } = look π s) (target : ModState) (reason : Nat) (s : State) :
    look π (changeState target reason s) = look π s := by
  simp [changeState, h]

@[simp ↓] theorem stopOutputs_only {α : Type} (π : State → α) (h : ∀ s x0, look π { s with cons := x0 } = look π s) (s : State) :
    look π (stopOutputs s) = look π s := by
  simp [stopOutputs, h]

@[simp ↓] theorem fallSilent_only {α : Type} (π : State → α) (h : ∀ s x0 x1 x2 x3 x4, look π { s with lanes := x0, cons := x1, host := x2, log := x3, pow := x4 } = look π s) (s : State) :
    look π (fallSilent s) = look π s := by
  simp only [fallSilent]; repeat' (first | (simp [h]; done) | split)

@[simp ↓] theorem afterLaneLoss_only {α : Type} (π : State → α) (h : ∀ s x0 x1 x2 x3 x4, look π { s with lanes := x0, cons := x1, host := x2, log := x3, pow := x4 } = look π s) (s : State) :
    look π (afterLaneLoss s) = look π s := by
  simp only [afterLaneLoss]; repeat' (first | (simp [h]; done) | split)

@[simp ↓] theorem excludeLane_only {α : Type} (π : State → α) (h : ∀ s x0 x1 x2 x3 x4 x5 x6, look π { s with tt := x0, inp := x1, lanes := x2, cons := x3, host := x4, log := x5, pow := x6 } = look π s) (l : Lane) (cause : Nat) (s : State) :
    look π (excludeLane l cause s) = look π s := by
  simp [excludeLane, h]

@[simp ↓] theorem laneFault_only {α : Type} (π : State → α) (h : ∀ s x0 x1 x2 x3 x4 x5 x6, look π { s with tt := x0, inp := x1, lanes := x2, cons := x3, host := x4, log := x5, pow := x6 } = look π s) (l : Lane) (cause : Nat) (s : State) :
    look π (laneFault l cause s) = look π s := by
  simp only [laneFault]; repeat' (first | (simp [h]; done) | split)

@[simp ↓] theorem onIsl_only {α : Type} (π : State → α) (h : ∀ s x0, look π { s with isl := x0 } = look π s) (ch : Nat) (f : Isl → Isl) (s : State) :
    look π (onIsl ch f s) = look π s := by
  simp [onIsl, h]


/-! ### Machine/Operands.lean -/

@[simp ↓] theorem chargeEgress_only {α : Type} (π : State → α) (h : ∀ s x0, look π { s with tt := x0 } = look π s) (w : Waiting)
    (s : State) : look π (chargeEgress w s).2 = look π s := by
  unfold chargeEgress; split <;> simp [h]

@[simp ↓] theorem chargeRing_only {α : Type} (π : State → α) (h : ∀ s x0, look π { s with tt := x0 } = look π s) (w : Waiting)
    (s : State) : look π (chargeRing w s).2 = look π s := by
  unfold chargeRing; split <;> simp [h]

@[simp ↓] theorem chargeMram_only {α : Type} (π : State → α) (h : ∀ s x0, look π { s with tt := x0 } = look π s) (w : Waiting)
    (s : State) : look π (chargeMram w s).2 = look π s := by
  unfold chargeMram; split <;> simp [h]

@[simp ↓] theorem castRing_only {α : Type} (π : State → α) (h : ∀ s x0 x1, look π { s with tt := x0, cons := x1 } = look π s) (w : Waiting) (body : RingBody) (dst : Nat) (timed : Bool) (s : State) :
    look π (castRing w body dst timed s) = look π s := by
  simp [castRing, h]

@[simp ↓] theorem startRing_only {α : Type} (π : State → α) (h : ∀ s x0 x1 x2, look π { s with tt := x0, cons := x1, host := x2 } = look π s) (w : Waiting) (s : State) :
    look π (startRing w s) = look π s := by
  simp only [startRing]; repeat' (first | (simp [h]; done) | split)

@[simp ↓] theorem sendRing_only {α : Type} (π : State → α) (h : ∀ s x0 x1 x2, look π { s with tt := x0, cons := x1, host := x2 } = look π s) (w : Waiting) (s : State) :
    look π (sendRing w s) = look π s := by
  simp only [sendRing]; repeat' (first | (simp [h]; done) | split)

@[simp ↓] theorem finishSlot_only {α : Type} (π : State → α) (h : ∀ s x0, look π { s with cons := x0 } = look π s) (slot : Nat) (verified : Bool) (s : State) :
    look π (finishSlot slot verified s) = look π s := by
  simp only [finishSlot]; repeat' (first | (simp [h]; done) | split)

@[simp ↓] theorem storePiece_only {α : Type} (π : State → α) (h : ∀ s x0 x1, look π { s with mram := x0, cons := x1 } = look π s) (slot index : Nat) (data : List Byte) (verified : Bool) (s : State) :
    look π (storePiece slot index data verified s) = look π s := by
  simp only [storePiece]; repeat' (first | (simp [h]; done) | split)

@[simp ↓] theorem putPiece_only {α : Type} (π : State → α) (h : ∀ s x0 x1 x2, look π { s with mram := x0, tt := x1, cons := x2 } = look π s) (index : Nat) (data : List Byte) (verified : Bool) (s : State) :
    look π (putPiece index data verified s) = look π s := by
  simp only [putPiece]; repeat' (first | (simp [h]; done) | split)

@[simp ↓] theorem storeFactory_only {α : Type} (π : State → α) (h : ∀ s x0 x1 x2, look π { s with mram := x0, cons := x1, pow := x2 } = look π s) (address : Option Nat) (s : State) :
    look π (storeFactory address s) = look π s := by
  simp only [storeFactory]; repeat' (first | (simp [h]; done) | split)

@[simp ↓] theorem writeFactory_only {α : Type} (π : State → α) (h : ∀ s x0 x1 x2 x3, look π { s with mram := x0, tt := x1, cons := x2, pow := x3 } = look π s) (address : Option Nat) (s : State) :
    look π (writeFactory address s) = look π s := by
  simp only [writeFactory]; repeat' (first | (simp [h]; done) | split)

@[simp ↓] theorem transmit_only {α : Type} (π : State → α) (h : ∀ s x0 x1 x2, look π { s with tt := x0, cons := x1, host := x2 } = look π s) (o : OutPkt) (s : State) :
    look π (transmit o s) = look π s := by
  simp only [transmit]; repeat' (first | (simp [h]; done) | split)

@[simp ↓] theorem startRaw_only {α : Type} (π : State → α) (h : ∀ s x0, look π { s with gnss := x0 } = look π s) (port : Nat) (d : List Byte) (s : State) :
    look π (startRaw port d s) = look π s := by
  simp [startRaw, h]

@[simp ↓] theorem sendRaw_only {α : Type} (π : State → α) (h : ∀ s x0 x1, look π { s with tt := x0, gnss := x1 } = look π s) (port : Nat) (d : List Byte) (s : State) :
    look π (sendRaw port d s) = look π s := by
  simp only [sendRaw]; repeat' (first | (simp [h]; done) | split)

@[simp ↓] theorem sendReply_only {α : Type} (π : State → α) (h : ∀ s x0 x1 x2, look π { s with tt := x0, cons := x1, host := x2 } = look π s) (o : OutPkt) (s : State) :
    look π (sendReply o s) = look π s := by
  unfold sendReply
  dsimp only
  refine look_ite ?_ (look_ite ?_ ?_)
  · rfl
  · rw [transmit_only π (by simp [h])]
    split <;> simp [h]
  · simp only [h]
    split <;> simp [h]

@[simp ↓] theorem sendOut_only {α : Type} (π : State → α) (h : ∀ s x0 x1 x2 x3, look π { s with tt := x0, gnss := x1, cons := x2, host := x3 } = look π s) (o : OutPkt) (s : State) :
    look π (sendOut o s) = look π s := by
  simp only [sendOut]; repeat' (first | (simp [h]; done) | split)

@[simp ↓] theorem emitReply_only {α : Type} (π : State → α) (h : ∀ s x0 x1 x2 x3, look π { s with tt := x0, gnss := x1, cons := x2, host := x3 } = look π s) (o : OutPkt) (s : State) :
    look π (emitReply o s) = look π s := by
  simp only [emitReply]; repeat' (first | (simp [h]; done) | split)

/-- A reply that leaves changes only the budgets, the ring's sequence number and the command interface (R330, R366). -/
@[simp ↓] theorem sendOut_reply_only {α : Type} (π : State → α) (h : ∀ s x0 x1 x2, look π { s with tt := x0, cons := x1, host := x2 } = look π s) (o : OutPkt)
    (ho : o.body = .reply) (s : State) : look π (sendOut o s) = look π s := by
  simp [sendOut, ho, h]

/-- A reply that is produced changes no more (R330, R379). -/
@[simp ↓] theorem emitReply_reply_only {α : Type} (π : State → α) (h : ∀ s x0 x1 x2, look π { s with tt := x0, cons := x1, host := x2 } = look π s) (o : OutPkt)
    (ho : o.body = .reply) (s : State) : look π (emitReply o s) = look π s := by
  simp only [emitReply]
  split <;> simp [ho, h]

@[simp ↓] theorem junctionReply_only {α : Type} (π : State → α) (h : ∀ s x0 x1 x2, look π { s with tt := x0, cons := x1, host := x2 } = look π s) (p : Packet) (status : Nat) (s : State) :
    look π (junctionReply p status s) = look π s := by
  simp [junctionReply, h]

@[simp ↓] theorem onSession_only {α : Type} (π : State → α) (h : ∀ s x0, look π { s with host := x0 } = look π s) (k : Nat) (f : Session → Session) (s : State) :
    look π (onSession k f s) = look π s := by
  simp [onSession, h]

@[simp ↓] theorem replyNoSlot_only {α : Type} (π : State → α) (h : ∀ s x0 x1 x2, look π { s with tt := x0, cons := x1, host := x2 } = look π s) (p : Packet) (d : Done) (session : Nat) (s : State) :
    look π (replyNoSlot p d session s) = look π s := by
  simp only [replyNoSlot]; repeat' (first | (simp [h]; done) | split)

@[simp ↓] theorem completeSlot_only {α : Type} (π : State → α) (h : ∀ s x0, look π { s with host := x0 } = look π s) (c : Task) (status : Nat) (result : List Byte) (s : State) :
    look π (completeSlot c status result s) = look π s := by
  simp only [completeSlot]; repeat' (first | (simp [h]; done) | split)

@[simp ↓] theorem closeSession_only {α : Type} (π : State → α) (h : ∀ s x0 x1, look π { s with host := x0, log := x1 } = look π s) (k kind : Nat) (s : State) :
    look π (closeSession k kind s) = look π s := by
  simp only [closeSession]; repeat' (first | (simp [h]; done) | split)

@[simp ↓] theorem closeAll_only {α : Type} (π : State → α) (h : ∀ s x0 x1, look π { s with host := x0, log := x1 } = look π s) (s : State) :
    look π (closeAll s) = look π s := by
  simp only [closeAll]; repeat' (first | (simp [h]; done) | (refine (look_foldl π _ ?_ _ _).trans ?_) | split | intro _ | simp [takeNat, takeQty, h])

@[simp ↓] theorem defer_only {α : Type} (π : State → α) (h : ∀ s x0, look π { s with host := x0 } = look π s) (d : Deferred) (s : State) :
    look π (defer d s) = look π s := by
  simp [defer, h]


@[simp ↓] theorem storeAndReply_only {α : Type} (π : State → α) (h : ∀ s x0 x1 x2, look π { s with tt := x0, cons := x1, host := x2 } = look π s)
    (k : Nat) (p : Packet) (d : Done) : look π (storeAndReply k p d) = look π d.state := by
  simp only [storeAndReply]
  split <;> simp [h]

/-- The checks leave the state, or the opcode's own meaning makes the next one. -/
theorem runChecks_state (o : OpSpec) (k a : Nat) (p : Packet) (s : State) :
    (runChecks (some o) k a p s).state = s ∨ (runChecks (some o) k a p s).state = (o.run k p s).state := by
  simp only [runChecks, fail]
  repeat' (first | (left; rfl; done) | (right; rfl; done) | split)

theorem limitReply_state (n : Nat) (b : State) (d : Done) :
    (limitReply n b d).state = b ∨ (limitReply n b d).state = d.state := by
  simp only [limitReply, fail]
  split
  · exact .inl rfl
  · exact .inr rfl

theorem checked_state (o : OpSpec) (n k a : Nat) (p : Packet) (s : State) :
    (limitReply n s (runChecks (some o) k a p s)).state = s ∨
    (limitReply n s (runChecks (some o) k a p s)).state = (o.run k p s).state := by
  rcases limitReply_state n s (runChecks (some o) k a p s) with h | h
  · exact .inl h
  · rcases runChecks_state o k a p s with g | g
    · exact .inl (h.trans g)
    · exact .inr (h.trans g)

/-- A command packet leaves alone what the reply path and the meaning of its opcode leave alone. -/
theorem processPacket_only {α : Type} (π : State → α) (o : OpSpec) (p : Packet) (s : State)
    (h : ∀ s x0 x1 x2, look π { s with tt := x0, cons := x1, host := x2 } = look π s)
    (hr : ∀ k p s, look π (o.run k p s).state = look π s) : look π (processPacket (some o) p s) = look π s := by
  have hc : ∀ n k a p s, look π (limitReply n s (runChecks (some o) k a p s)).state = look π s := by
    intro n k a p s
    rcases checked_state o n k a p s with g | g
    · rw [g]
    · rw [g]; exact hr k p s
  have hf : ∀ c s, (fail c s).state = s := fun _ _ => rfl
  simp only [processPacket]
  repeat' (first | (simp [hc, hf, h]; done) | split)

/-- A packet of an opcode outside Table 12-18 changes only the command interface and the budgets. -/
theorem processPacket_none_only {α : Type} (π : State → α) (p : Packet) (s : State)
    (h : ∀ s x0 x1 x2, look π { s with tt := x0, cons := x1, host := x2 } = look π s) : look π (processPacket none p s) = look π s := by
  have hr : ∀ k a p s, runChecks none k a p s = fail 0x0010 s := fun _ _ _ _ => rfl
  have hl : ∀ n (s : State), (limitReply n s (fail 0x0010 s)).state = s := by
    intro n s
    rcases limitReply_state n s (fail 0x0010 s) with g | g <;> rw [g]
    rfl
  have hf : ∀ c s, (fail c s).state = s := fun _ _ => rfl
  simp only [processPacket, hr]
  repeat' (first | (simp [hl, hf, h]; done) | split)

/-! ### Machine/Flags.lean -/

@[simp ↓] theorem chargeAct_only {α : Type} (π : State → α) (h : ∀ s x0 x1, look π { s with free := x0, tt := x1 } = look π s) (act most : Nat) (full : List Lane) (s : State) :
    look π (chargeAct act most full s) = look π s := by
  simp only [chargeAct]; repeat' (first | (simp [h]; done) | (refine (look_foldl π _ ?_ _ _).trans ?_) | split | intro _ | simp [takeNat, takeQty, h])

@[simp ↓] theorem chargeLeast_only {α : Type} (π : State → α) (h : ∀ s x0, look π { s with tt := x0 } = look π s) (act least : Nat) (s : State) :
    look π (chargeLeast act least s) = look π s := by
  simp [chargeLeast, h]

@[simp ↓] theorem newOutcome_only {α : Type} (π : State → α) (h : ∀ s x0, look π { s with tt := x0 } = look π s) (s : State) :
    look π (newOutcome s) = look π s := by
  simp [newOutcome, h]

@[simp ↓] theorem logLoops_only {α : Type} (π : State → α) (h : ∀ s x0 x1, look π { s with host := x0, log := x1 } = look π s) (before : List (List Loop)) (s : State) :
    look π (logLoops before s) = look π s := by
  simp only [logLoops]; repeat' (first | (simp [h]; done) | (refine (look_foldl π _ ?_ _ _).trans ?_) | split | intro _ | simp [takeNat, takeQty, h])

@[simp ↓] theorem settleServo_only {α : Type} (π : State → α) (h : ∀ s x0 x1 x2 x3, look π { s with tt := x0, servoUndo := x1, host := x2, log := x3 } = look π s) (s : State) :
    look π (settleServo s) = look π s := by
  simp only [settleServo]; repeat' (first | (simp [h]; done) | split)

@[simp ↓] theorem completeIn_only {α : Type} (π : State → α) (h : ∀ s x0 x1 x2 x3 x4, look π { s with free := x0, tt := x1, servoUndo := x2, host := x3, log := x4 } = look π s) (act most : Nat) (s : State) :
    look π (completeIn act most s) = look π s := by
  simp [completeIn, h]

@[simp ↓] theorem completeAct_only {α : Type} (π : State → α) (h : ∀ s x0 x1 x2 x3 x4, look π { s with free := x0, tt := x1, servoUndo := x2, host := x3, log := x4 } = look π s) (act : Nat) (s : State) :
    look π (completeAct act s) = look π s := by
  simp [completeAct, h]

@[simp ↓] theorem countHeld_only {α : Type} (π : State → α) (h : ∀ s x0 x1 x2, look π { s with tt := x0, lanes := x1, log := x2 } = look π s) (act : Nat) (lanes : List Lane) (s : State) :
    look π (countHeld act lanes s) = look π s := by
  simp [countHeld, h]

@[simp ↓] theorem agreedHold_only {α : Type} (π : State → α) (h : ∀ s x0 x1 x2 x3, look π { s with tt := x0, lanes := x1, host := x2, log := x3 } = look π s) (act : Nat) (lanes : List Lane) (s : State) :
    look π (agreedHold act lanes s) = look π s := by
  simp only [agreedHold]; repeat' (first | (simp [h]; done) | split)

@[simp ↓] theorem chargeTimeout_only {α : Type} (π : State → α) (h : ∀ s x0 x1 x2 x3 x4 x5 x6, look π { s with tt := x0, inp := x1, lanes := x2, cons := x3, host := x4, log := x5, pow := x6 } = look π s) (l : Lane) (s : State) :
    look π (chargeTimeout l s) = look π s := by
  simp only [chargeTimeout]; repeat' (first | (simp [h]; done) | split)

@[simp ↓] theorem endItems_only {α : Type} (π : State → α) (h : ∀ s x0 x1 x2 x3 x4 x5 x6 x7 x8, look π { s with free := x0, tt := x1, inp := x2, servoUndo := x3, lanes := x4, cons := x5, host := x6, log := x7, pow := x8 } = look π s) (act : Nat) (rep : Lane3 ItemReport) (s : State) :
    look π (endItems act rep s) = look π s := by
  simp only [endItems]; repeat' (first | (simp [h]; done) | (refine (look_foldl π _ ?_ _ _).trans ?_) | split | intro _ | simp [takeNat, takeQty, h])


/-! ### Machine/Time.lean -/

@[simp ↓] theorem setTimeState_only {α : Type} (π : State → α) (h : ∀ s x0 x1 x2, look π { s with time := x0, host := x1, log := x2 } = look π s) (v : Nat) (s : State) :
    look π (setTimeState v s) = look π s := by
  simp only [setTimeState]; repeat' (first | (simp [h]; done) | split)

@[simp ↓] theorem judgeState_only {α : Type} (π : State → α) (h : ∀ s x0 x1 x2, look π { s with time := x0, host := x1, log := x2 } = look π s) (fromInvalid : Bool) (s : State) :
    look π (judgeState fromInvalid s) = look π s := by
  simp only [judgeState]; repeat' (first | (simp [h]; done) | split)

@[simp ↓] theorem announceStep_only {α : Type} (π : State → α) (h : ∀ s x0 x1 x2, look π { s with time := x0, host := x1, log := x2 } = look π s) (id : Nat) (amount : Int) (s : State) :
    look π (announceStep id amount s) = look π s := by
  simp [announceStep, h]

@[simp ↓] theorem adoptSource_only {α : Type} (π : State → α) (h : ∀ s x0 x1 x2, look π { s with time := x0, host := x1, log := x2 } = look π s) (id : Nat) (s : State) :
    look π (adoptSource id s) = look π s := by
  simp only [adoptSource]; repeat' (first | (simp [h]; done) | split)

@[simp ↓] theorem reselect_only {α : Type} (π : State → α) (h : ∀ s x0 x1 x2, look π { s with time := x0, host := x1, log := x2 } = look π s) (s : State) :
    look π (reselect s) = look π s := by
  simp only [reselect]; repeat' (first | (simp [h]; done) | split)

@[simp ↓] theorem cancelStep_only {α : Type} (π : State → α) (h : ∀ s x0 x1 x2, look π { s with time := x0, host := x1, log := x2 } = look π s) (s : State) :
    look π (cancelStep s) = look π s := by
  simp only [cancelStep]; repeat' (first | (simp [h]; done) | split)

@[simp ↓] theorem deselect_only {α : Type} (π : State → α) (h : ∀ s x0 x1 x2, look π { s with time := x0, host := x1, log := x2 } = look π s) (id : Nat) (s : State) :
    look π (deselect id s) = look π s := by
  simp only [deselect]; repeat' (first | (simp [h]; done) | split)

@[simp ↓] theorem restartSource_only {α : Type} (π : State → α) (h : ∀ s x0, look π { s with time := x0 } = look π s) (id : Nat) (s : State) :
    look π (restartSource id s) = look π s := by
  simp [restartSource, h]

@[simp ↓] theorem loseSource_only {α : Type} (π : State → α) (h : ∀ s x0 x1 x2, look π { s with time := x0, host := x1, log := x2 } = look π s) (id : Nat) (s : State) :
    look π (loseSource id s) = look π s := by
  simp only [loseSource]; repeat' (first | (simp [h]; done) | split)

@[simp ↓] theorem roleSource_only {α : Type} (π : State → α) (h : ∀ s x0 x1 x2, look π { s with time := x0, host := x1, log := x2 } = look π s) (s : State) :
    look π (roleSource s) = look π s := by
  simp only [roleSource]; repeat' (first | (simp [h]; done) | split)

theorem execSourceQualified_only {α : Type} (π : State → α) (h : ∀ s x0 x1 x2, look π { s with time := x0, host := x1, log := x2 } = look π s) (id : Nat) (err : Int) (s : State) (t : State) (he : execSourceQualified id err s = .next t) :
    look π t = look π s := by
  simp only [execSourceQualified, Host.Outcome.next.injEq] at he; subst he; repeat' (first | (simp [h]; done) | split)

theorem execSourceLost_only {α : Type} (π : State → α) (h : ∀ s x0 x1 x2, look π { s with time := x0, host := x1, log := x2 } = look π s) (id : Nat) (s : State) (t : State) (he : execSourceLost id s = .next t) :
    look π t = look π s := by
  simp only [execSourceLost, Host.Outcome.next.injEq] at he; subst he; repeat' (first | (simp [h]; done) | split)

@[simp ↓] theorem hearSource_only {α : Type} (π : State → α) (h : ∀ s x0, look π { s with time := x0 } = look π s) (id : Nat) (s : State) :
    look π (hearSource id s) = look π s := by
  simp [hearSource, h]

@[simp ↓] theorem measureSource_only {α : Type} (π : State → α) (h : ∀ s x0 x1 x2, look π { s with time := x0, host := x1, log := x2 } = look π s) (id : Nat) (off : Int) (s : State) :
    look π (measureSource id off s) = look π s := by
  simp only [measureSource]; repeat' (first | (simp [h]; done) | split)

@[simp ↓] theorem ppsPulse_only {α : Type} (π : State → α) (h : ∀ s x0, look π { s with time := x0 } = look π s) (out : Nat) (s : State) :
    look π (ppsPulse out s) = look π s := by
  simp [ppsPulse, h]

@[simp ↓] theorem ppsPulses_only {α : Type} (π : State → α) (h : ∀ s x0, look π { s with time := x0 } = look π s) (s : State) :
    look π (ppsPulses s) = look π s := by
  simp [ppsPulses, h]

@[simp ↓] theorem stepNav_only {α : Type} (π : State → α) (h : ∀ s x0 x1 x2 x3, look π { s with inp := x0, gnss := x1, ref := x2, obs := x3 } = look π s) (amt : Int) (s : State) :
    look π (stepNav amt s) = look π s := by
  simp [stepNav, h]

theorem execStepApplied_only {α : Type} (π : State → α) (h : ∀ s x0 x1 x2 x3 x4 x5 x6, look π { s with time := x0, inp := x1, gnss := x2, ref := x3, obs := x4, host := x5, log := x6 } = look π s) (residual : Int) (s : State) (t : State) (he : execStepApplied residual s = .next t) :
    look π t = look π s := by
  simp only [execStepApplied, Host.Outcome.next.injEq] at he; subst he; repeat' (first | (simp [h]; done) | split)

theorem execSlewComplete_only {α : Type} (π : State → α) (h : ∀ s x0 x1 x2, look π { s with time := x0, host := x1, log := x2 } = look π s) (s : State) (t : State) (he : execSlewComplete s = .next t) :
    look π t = look π s := by
  simp only [execSlewComplete, Host.Outcome.next.injEq] at he; subst he; repeat' (first | (simp [h]; done) | split)

theorem execFreerunEntry_only {α : Type} (π : State → α) (h : ∀ s x0 x1 x2, look π { s with time := x0, host := x1, log := x2 } = look π s) (s : State) (t : State) (he : execFreerunEntry s = .next t) :
    look π t = look π s := by
  simp only [execFreerunEntry, Host.Outcome.next.injEq] at he; subst he; repeat' (first | (simp [h]; done) | split)

theorem execExt10mQualified_only {α : Type} (π : State → α) (h : ∀ s x0, look π { s with time := x0 } = look π s) (s : State) (t : State) (he : execExt10mQualified s = .next t) :
    look π t = look π s := by
  simp only [execExt10mQualified, Host.Outcome.next.injEq] at he; subst he; repeat' (first | (simp [h]; done) | split)

theorem execExt10mLost_only {α : Type} (π : State → α) (h : ∀ s x0, look π { s with time := x0 } = look π s) (s : State) (t : State) (he : execExt10mLost s = .next t) :
    look π t = look π s := by
  simp only [execExt10mLost, Host.Outcome.next.injEq] at he; subst he; simp [h]

theorem execPpsOutPulse_only {α : Type} (π : State → α) (h : ∀ s x0, look π { s with time := x0 } = look π s) (out : Nat) (s : State) (t : State) (he : execPpsOutPulse out s = .next t) :
    look π t = look π s := by
  simp only [execPpsOutPulse, Host.Outcome.next.injEq] at he; subst he; repeat' (first | (simp [h]; done) | split)

@[simp ↓] theorem labelled_only {α : Type} (π : State → α) (h : ∀ s x0 x1 x2, look π { s with time := x0, host := x1, log := x2 } = look π s) (label t : Nat) (good : Bool) (s : State) :
    look π (labelled label t good s) = look π s := by
  simp [labelled, h]

@[simp ↓] theorem unlabelled_only {α : Type} (π : State → α) (h : ∀ s x0 x1 x2, look π { s with time := x0, host := x1, log := x2 } = look π s) (t : Nat) (good : Bool) (s : State) :
    look π (unlabelled t good s) = look π s := by
  simp only [unlabelled]; repeat' (first | (simp [h]; done) | split)

@[simp ↓] theorem settlePps_only {α : Type} (π : State → α) (h : ∀ s x0 x1 x2, look π { s with time := x0, host := x1, log := x2 } = look π s) (s : State) :
    look π (settlePps s) = look π s := by
  simp only [settlePps]; repeat' (first | (simp [h]; done) | split)

theorem execPpsInEdge_only {α : Type} (π : State → α) (h : ∀ s x0 x1 x2, look π { s with time := x0, host := x1, log := x2 } = look π s) (ns : Nat) (s : State) (t : State) (he : execPpsInEdge ns s = .next t) :
    look π t = look π s := by
  simp only [execPpsInEdge, Host.Outcome.next.injEq] at he; subst he; repeat' (first | (simp [h]; done) | split)

@[simp ↓] theorem labelPps_only {α : Type} (π : State → α) (h : ∀ s x0 x1 x2, look π { s with time := x0, host := x1, log := x2 } = look π s) (link : Nat) (utc : Int) (doneNs : Nat) (s : State) :
    look π (labelPps link utc doneNs s) = look π s := by
  simp only [labelPps]; repeat' (first | (simp [h]; done) | split)

@[simp ↓] theorem ptpLost_only {α : Type} (π : State → α) (h : ∀ s x0 x1 x2, look π { s with time := x0, host := x1, log := x2 } = look π s) (s : State) :
    look π (ptpLost s) = look π s := by
  simp [ptpLost, h]

@[simp ↓] theorem decidePorts_only {α : Type} (π : State → α) (h : ∀ s x0 x1 x2, look π { s with time := x0, host := x1, log := x2 } = look π s) (s : State) :
    look π (decidePorts s) = look π s := by
  simp only [decidePorts]; repeat' (first | (simp [h]; done) | split)

@[simp ↓] theorem ptpAnnounce_only {α : Type} (π : State → α) (h : ∀ s x0 x1 x2, look π { s with time := x0, host := x1, log := x2 } = look π s) (port : Nat) (m : PtpMsg) (s : State) :
    look π (ptpAnnounce port m s) = look π s := by
  simp only [ptpAnnounce]; repeat' (first | (simp [h]; done) | split)

@[simp ↓] theorem ptpOffset_only {α : Type} (π : State → α) (h : ∀ s x0 x1 x2, look π { s with time := x0, host := x1, log := x2 } = look π s) (port : Nat) (o : Int) (s : State) :
    look π (ptpOffset port o s) = look π s := by
  simp [ptpOffset, h]

@[simp ↓] theorem ptpRequest_only {α : Type} (π : State → α) (h : ∀ s x0, look π { s with time := x0 } = look π s) (port : Nat) (m : PtpMsg) (s : State) :
    look π (ptpRequest port m s) = look π s := by
  simp [ptpRequest, h]

theorem execPtpMessage_only {α : Type} (π : State → α) (h : ∀ s x0 x1 x2, look π { s with time := x0, host := x1, log := x2 } = look π s) (port : Nat) (m : PtpMsg) (s : State) (t : State) (he : execPtpMessage port m s = .next t) :
    look π t = look π s := by
  simp only [execPtpMessage, Host.Outcome.next.injEq] at he; subst he; repeat' (first | (simp [h]; done) | split)

theorem execPtpAnnounceTimeout_only {α : Type} (π : State → α) (h : ∀ s x0 x1 x2, look π { s with time := x0, host := x1, log := x2 } = look π s) (port : Nat) (s : State) (t : State) (he : execPtpAnnounceTimeout port s = .next t) :
    look π t = look π s := by
  simp only [execPtpAnnounceTimeout, Host.Outcome.next.injEq] at he; subst he; repeat' (first | (simp [h]; done) | split)

@[simp ↓] theorem queueStamp_only {α : Type} (π : State → α) (h : ∀ s x0, look π { s with time := x0 } = look π s) (port : Nat) (e : StampReq) (s : State) :
    look π (queueStamp port e s) = look π s := by
  simp [queueStamp, h]

theorem execTxStampQueued_only {α : Type} (π : State → α) (h : ∀ s x0, look π { s with time := x0 } = look π s) (port : Nat) (e : StampReq) (s : State) (t : State) (he : execTxStampQueued port e s = .next t) :
    look π t = look π s := by
  simp only [execTxStampQueued, Host.Outcome.next.injEq] at he; subst he; repeat' (first | (simp [h]; done) | split)

@[simp ↓] theorem sendPtp_only {α : Type} (π : State → α) (h : ∀ s x0, look π { s with time := x0 } = look π s) (port : Nat) (k : PtpTx) (s : State) :
    look π (sendPtp port k s) = look π s := by
  simp only [sendPtp]; repeat' (first | (simp [h]; done) | split)

theorem execPtpMessageTransmit_only {α : Type} (π : State → α) (h : ∀ s x0 x1, look π { s with time := x0, tt := x1 } = look π s) (port : Nat) (kind : PtpTx) (s : State) (t : State) (he : execPtpMessageTransmit port kind s = .next t) :
    look π t = look π s := by
  simp only [execPtpMessageTransmit, Host.Outcome.next.injEq] at he; subst he; repeat' (first | (simp [h]; done) | split)

@[simp ↓] theorem latchSnap_only {α : Type} (π : State → α) (h : ∀ s x0, look π { s with time := x0 } = look π s) (s : State) :
    look π (latchSnap s) = look π s := by
  simp [latchSnap, h]

theorem execSnapLatch_only {α : Type} (π : State → α) (h : ∀ s x0, look π { s with time := x0 } = look π s) (value : Nat) (s : State) (t : State) (he : execSnapLatch value s = .next t) :
    look π t = look π s := by
  simp only [execSnapLatch, Host.Outcome.next.injEq] at he; subst he; repeat' (first | (simp [h]; done) | split)

@[simp ↓] theorem timeGetSpec_only {α : Type} (π : State → α) (k : Nat) (p : Packet) (s : State) :
    look π (timeGetSpec.run k p s).state = look π s := by
  simp [timeGetSpec, fail]

theorem execTimeGet_only {α : Type} (π : State → α) (h : ∀ s x0 x1 x2, look π { s with tt := x0, cons := x1, host := x2 } = look π s) (p : Packet) (s : State) (t : State) (he : execTimeGet p s = .next t) :
    look π t = look π s := by
  simp only [execTimeGet, Host.Outcome.next.injEq] at he; subst he; exact processPacket_only π _ _ _ (by simp [h]) (fun _ _ _ => by simp [h])

@[simp ↓] theorem timeSourceSpec_only {α : Type} (π : State → α) (h : ∀ s x0, look π { s with host := x0 } = look π s) (k : Nat) (p : Packet) (s : State) :
    look π (timeSourceSpec.run k p s).state = look π s := by
  simp only [timeSourceSpec, fail]; repeat' (first | (simp [h, fail]; done) | split)

theorem execTimeSource_only {α : Type} (π : State → α) (h : ∀ s x0 x1 x2, look π { s with tt := x0, cons := x1, host := x2 } = look π s) (p : Packet) (s : State) (t : State) (he : execTimeSource p s = .next t) :
    look π t = look π s := by
  simp only [execTimeSource, Host.Outcome.next.injEq] at he; subst he; exact processPacket_only π _ _ _ (by simp [h]) (fun _ _ _ => by simp [h])

@[simp ↓] theorem applyTimeSource_only {α : Type} (π : State → α) (h : ∀ s x0 x1 x2, look π { s with time := x0, host := x1, log := x2 } = look π s) (flags : Nat) (order : List Nat) (s : State) :
    look π (applyTimeSource flags order s) = look π s := by
  simp only [applyTimeSource]; repeat' (first | (simp [h]; done) | (refine (look_foldl π _ ?_ _ _).trans ?_) | split | intro _ | simp [takeNat, takeQty, h])

@[simp ↓] theorem ptpConfigSpec_only {α : Type} (π : State → α) (h : ∀ s x0, look π { s with host := x0 } = look π s) (k : Nat) (p : Packet) (s : State) :
    look π (ptpConfigSpec.run k p s).state = look π s := by
  simp only [ptpConfigSpec, fail]; repeat' (first | (simp [h, fail]; done) | split)

theorem execPtpConfig_only {α : Type} (π : State → α) (h : ∀ s x0 x1 x2, look π { s with tt := x0, cons := x1, host := x2 } = look π s) (p : Packet) (s : State) (t : State) (he : execPtpConfig p s = .next t) :
    look π t = look π s := by
  simp only [execPtpConfig, Host.Outcome.next.injEq] at he; subst he; exact processPacket_only π _ _ _ (by simp [h]) (fun _ _ _ => by simp [h])

@[simp ↓] theorem applyPtp_only {α : Type} (π : State → α) (h : ∀ s x0 x1 x2, look π { s with time := x0, host := x1, log := x2 } = look π s) (clock : Option PtpClock) (port : Nat) (cfg : Option PtpPort) (s : State) :
    look π (applyPtp clock port cfg s) = look π s := by
  simp only [applyPtp]; repeat' (first | (simp [h]; done) | split)

@[simp ↓] theorem txStampReadSpec_only {α : Type} (π : State → α) (h : ∀ s x0, look π { s with time := x0 } = look π s) (k : Nat) (p : Packet) (s : State) :
    look π (txStampReadSpec.run k p s).state = look π s := by
  simp only [txStampReadSpec, fail]; repeat' (first | (simp [h, fail]; done) | split)

theorem execTxStampRead_only {α : Type} (π : State → α) (h : ∀ s x0 x1 x2 x3, look π { s with time := x0, tt := x1, cons := x2, host := x3 } = look π s) (p : Packet) (s : State) (t : State) (he : execTxStampRead p s = .next t) :
    look π t = look π s := by
  simp only [execTxStampRead, Host.Outcome.next.injEq] at he; subst he; exact processPacket_only π _ _ _ (by simp [h]) (fun _ _ _ => by simp [h])

@[simp ↓] theorem ppsConfigSpec_only {α : Type} (π : State → α) (h : ∀ s x0, look π { s with host := x0 } = look π s) (k : Nat) (p : Packet) (s : State) :
    look π (ppsConfigSpec.run k p s).state = look π s := by
  simp only [ppsConfigSpec, fail]; repeat' (first | (simp [h, fail]; done) | split)

theorem execPpsConfig_only {α : Type} (π : State → α) (h : ∀ s x0 x1 x2, look π { s with tt := x0, cons := x1, host := x2 } = look π s) (p : Packet) (s : State) (t : State) (he : execPpsConfig p s = .next t) :
    look π t = look π s := by
  simp only [execPpsConfig, Host.Outcome.next.injEq] at he; subst he; exact processPacket_only π _ _ _ (by simp [h]) (fun _ _ _ => by simp [h])

@[simp ↓] theorem applyPps_only {α : Type} (π : State → α) (h : ∀ s x0, look π { s with time := x0 } = look π s) (target : Nat) (c : PpsCfg) (s : State) :
    look π (applyPps target c s) = look π s := by
  simp only [applyPps]; repeat' (first | (simp [h]; done) | split)

@[simp ↓] theorem timeFrom_only {α : Type} (π : State → α) (h : ∀ s x0 x1 x2, look π { s with time := x0, host := x1, log := x2 } = look π s) (g : ImageTime) (s : State) :
    look π (timeFrom g s) = look π s := by
  simp only [timeFrom]; repeat' (first | (simp [h]; done) | split)

@[simp ↓] theorem timeFromImage_only {α : Type} (π : State → α) (h : ∀ s x0 x1 x2, look π { s with time := x0, host := x1, log := x2 } = look π s) (s : State) :
    look π (timeFromImage s) = look π s := by
  simp [timeFromImage, h]

@[simp ↓] theorem consistTime_only {α : Type} (π : State → α) (h : ∀ s x0 x1 x2, look π { s with time := x0, host := x1, log := x2 } = look π s) (leadNs : Int) (hops : Nat) (s : State) :
    look π (consistTime leadNs hops s) = look π s := by
  simp [consistTime, h]

@[simp ↓] theorem restartSilent_only {α : Type} (π : State → α) (h : ∀ s x0, look π { s with time := x0 } = look π s) (s : State) :
    look π (restartSilent s) = look π s := by
  simp only [restartSilent]; repeat' (first | (simp [h]; done) | split)

@[simp ↓] theorem tickTime_only {α : Type} (π : State → α) (h : ∀ s x0 x1 x2, look π { s with time := x0, host := x1, log := x2 } = look π s) (s : State) :
    look π (tickTime s) = look π s := by
  simp only [tickTime]; repeat' (first | (simp [h]; done) | split)


/-! ### Machine/Input.lean -/

@[simp ↓] theorem dropRec_only {α : Type} (π : State → α) (h : ∀ s x0 x1 x2 x3, look π { s with tt := x0, inp := x1, host := x2, log := x3 } = look π s) (tick : Bool) (r : InRecord) (s : State) :
    look π (dropRec tick r s) = look π s := by
  simp only [dropRec]; repeat' (first | (simp [h]; done) | split)

@[simp ↓] theorem addRecord_only {α : Type} (π : State → α) (h : ∀ s x0 x1 x2 x3, look π { s with tt := x0, inp := x1, host := x2, log := x3 } = look π s) (r : InRecord) (s : State) :
    look π (addRecord r s) = look π s := by
  simp only [addRecord]; repeat' (first | (simp [h]; done) | split)

@[simp ↓] theorem discard_only {α : Type} (π : State → α) (h : ∀ s x0 x1, look π { s with inp := x0, log := x1 } = look π s) (link cause : Nat) (s : State) :
    look π (discard link cause s) = look π s := by
  simp only [discard]; repeat' (first | (simp [h]; done) | split)

@[simp ↓] theorem discardUnit_only {α : Type} (π : State → α) (h : ∀ s x0, look π { s with ref := x0 } = look π s) (sensor : Bool) (i : Nat) (s : State) :
    look π (discardUnit sensor i s) = look π s := by
  simp only [discardUnit]; repeat' (first | (simp [h]; done) | split)

@[simp ↓] theorem discardBound_only {α : Type} (π : State → α) (h : ∀ s x0 x1 x2, look π { s with inp := x0, ref := x1, log := x2 } = look π s) (link cause : Nat) (takes : Binding → Bool) (s : State) :
    look π (discardBound link cause takes s) = look π s := by
  simp only [discardBound]; repeat' (first | (simp [h]; done) | (refine (look_foldl π _ ?_ _ _).trans ?_) | split | intro _ | simp [takeNat, takeQty, h])

@[simp ↓] theorem onUnit_only {α : Type} (π : State → α) (h : ∀ s x0, look π { s with ref := x0 } = look π s) (sensor : Bool) (i : Nat) (f : RefUnit → RefUnit) (s : State) :
    look π (onUnit sensor i f s) = look π s := by
  simp only [onUnit]; repeat' (first | (simp [h]; done) | split)

@[simp ↓] theorem deliverParsed_only {α : Type} (π : State → α) (h : ∀ s x0 x1 x2, look π { s with inp := x0, ref := x1, log := x2 } = look π s) (sensor : Bool) (i link k : Nat) (b : Binding) (a : Int) (d : Decoded) (s : State) :
    look π (deliverParsed sensor i link k b a d s) = look π s := by
  simp only [deliverParsed]; repeat' (first | (simp [h]; done) | split)

@[simp ↓] theorem parseSentence_only {α : Type} (π : State → α) (h : ∀ s x0 x1 x2, look π { s with inp := x0, ref := x1, log := x2 } = look π s) (link : Nat) (a : Int) (x : List Byte × Bool) (s : State) :
    look π (parseSentence link a x s) = look π s := by
  simp only [parseSentence]; repeat' (first | (simp [h]; done) | (refine (look_foldl π _ ?_ _ _).trans ?_) | split | intro _ | simp [takeNat, takeQty, h])

@[simp ↓] theorem parsePgn_only {α : Type} (π : State → α) (h : ∀ s x0 x1 x2, look π { s with inp := x0, ref := x1, log := x2 } = look π s) (link src pgn : Nat) (a : Int) (d : List Byte) (s : State) :
    look π (parsePgn link src pgn a d s) = look π s := by
  simp only [parsePgn]; repeat' (first | (simp [h]; done) | (refine (look_foldl π _ ?_ _ _).trans ?_) | split | intro _ | simp [takeNat, takeQty, h])

@[simp ↓] theorem dropFast_only {α : Type} (π : State → α) (h : ∀ s x0 x1 x2, look π { s with inp := x0, ref := x1, log := x2 } = look π s) (link src : Nat) (s : State) :
    look π (dropFast link src s) = look π s := by
  simp [dropFast, h]

@[simp ↓] theorem parseCan_only {α : Type} (π : State → α) (h : ∀ s x0 x1 x2, look π { s with inp := x0, ref := x1, log := x2 } = look π s) (link stamp pgn src frameIndex total : Nat) (data : List Byte) (s : State) :
    look π (parseCan link stamp pgn src frameIndex total data s) = look π s := by
  simp only [parseCan]; repeat' (first | (simp [h]; done) | split)

@[simp ↓] theorem takeEpochAt_only {α : Type} (π : State → α) (h : ∀ s x0 x1, look π { s with inp := x0, ref := x1 } = look π s) (e : EpochRes) (withheld : Bool) (stamp : Int) (s : State) (i : Nat) :
    look π (takeEpochAt e withheld stamp s i) = look π s := by
  simp only [takeEpochAt]; repeat' (first | (simp [h]; done) | split)

@[simp ↓] theorem parseRecord_only {α : Type} (π : State → α) (h : ∀ s x0 x1 x2 x3, look π { s with inp := x0, gnss := x1, ref := x2, log := x3 } = look π s) (s : State) (r : InRecord) :
    look π (parseRecord s r) = look π s := by
  unfold parseRecord
  split
  · exact look_foldl π _ (fun _ _ => by simp [h]) _ _
  · simp [h]
  · simp [h]
  · split <;> simp [h]
  · split
    · rfl
    · exact (look_foldl π _ (fun s x => by simp [h]) _ _).trans (by simp [h])
  · simp [h]

@[simp ↓] theorem takeRecord_only {α : Type} (π : State → α) (h : ∀ s x0 x1 x2 x3 x4, look π { s with time := x0, tt := x1, inp := x2, host := x3, log := x4 } = look π s) (r : InRecord) (s : State) :
    look π (takeRecord r s) = look π s := by
  simp only [takeRecord]; repeat' (first | (simp [h]; done) | split)

theorem execRecordArrival_only {α : Type} (π : State → α) (h : ∀ s x0 x1 x2 x3 x4, look π { s with time := x0, tt := x1, inp := x2, host := x3, log := x4 } = look π s) (r : InRecord) (s : State) (t : State) (he : execRecordArrival r s = .next t) :
    look π t = look π s := by
  simp only [execRecordArrival, Host.Outcome.next.injEq] at he; subst he; repeat' (first | (simp [h]; done) | split)

theorem execRedelivery_only {α : Type} (π : State → α) (h : ∀ s x0 x1 x2 x3 x4 x5 x6, look π { s with tt := x0, inp := x1, lanes := x2, cons := x3, host := x4, log := x5, pow := x6 } = look π s) (kind : SetKind) (lane : Lane) (err : Nat) (complete : Bool) (s : State) (t : State) (he : execRedelivery kind lane err complete s = .next t) :
    look π t = look π s := by
  simp only [execRedelivery, Host.Outcome.next.injEq] at he; subst he; repeat' (first | (simp [h]; done) | split)

theorem execJunctionInputPathFault_only {α : Type} (π : State → α) (h : ∀ s x0 x1 x2 x3 x4, look π { s with lanes := x0, cons := x1, host := x2, log := x3, pow := x4 } = look π s) (kind : SetKind) (s : State) (t : State) (he : execJunctionInputPathFault kind s = .next t) :
    look π t = look π s := by
  simp only [execJunctionInputPathFault, Host.Outcome.next.injEq] at he; subst he; repeat' (first | (simp [h]; done) | split)

@[simp ↓] theorem agreeOn_only {α : Type} (π : State → α) (h : ∀ s x0 x1, look π { s with inp := x0, log := x1 } = look π s)
    (kind : SetKind) (jx : Nat) (err : Lane3 Nat) (s : State) : look π (agreeOn kind jx err s).2 = look π s := by
  unfold agreeOn
  split <;> cases kind <;> simp [h]

theorem execInputGather_only {α : Type} (π : State → α) (h : ∀ s x0 x1 x2 x3 x4 x5 x6 x7, look π { s with free := x0, tt := x1, inp := x2, gnss := x3, ref := x4, servoUndo := x5, host := x6, log := x7 } = look π s) (copyErr : Lane3 Nat) (s : State) (t : State) (he : execInputGather copyErr s = .next t) :
    look π t = look π s := by
  simp only [execInputGather, Host.Outcome.next.injEq] at he; subst he
  refine look_ite ?_ rfl
  rw [completeAct_only π (by simp [h])]
  refine look_ite ((look_foldl π _ (fun s r => parseRecord_only π (by simp [h]) s r) _ _).trans ?_) ?_ <;> simp [h]

theorem execFastPacketTimeout_only {α : Type} (π : State → α) (h : ∀ s x0 x1 x2, look π { s with inp := x0, ref := x1, log := x2 } = look π s) (link src pgn : Nat) (s : State) (t : State) (he : execFastPacketTimeout link src pgn s = .next t) :
    look π t = look π s := by
  simp only [execFastPacketTimeout, Host.Outcome.next.injEq] at he; subst he; repeat' (first | (simp [h]; done) | split)

theorem execSentenceOverlength_only {α : Type} (π : State → α) (h : ∀ s x0 x1 x2, look π { s with inp := x0, ref := x1, log := x2 } = look π s) (link : Nat) (s : State) (t : State) (he : execSentenceOverlength link s = .next t) :
    look π t = look π s := by
  simp only [execSentenceOverlength, Host.Outcome.next.injEq] at he; subst he
  refine look_ite rfl ((look_foldl π _ (fun s x => ?_) _ _).trans ?_)
  · split <;> simp [h]
  · simp [h]

end Sys2Proof.Machine
end

