-- ==== Sys2Proof/Laws/FrameNav.lean ====
section
/-! SUPPORT. The channels, the references and fusion: what each operation leaves alone. A lemma `f_only` says that an
observation of the state which is blind to the parts named in its hypothesis is the same after `f` as before it. -/

set_option maxRecDepth 20000
set_option linter.unusedSimpArgs false
set_option linter.unusedVariables false
set_option linter.unusedTactic false
set_option linter.unreachableTactic false

namespace Sys2Proof.Machine

/-! ### Machine/Channels.lean -/

@[simp ↓] theorem judgeChan_only {α : Type} (π : State → α) (h : ∀ s x0 x1 x2, look π { s with isl := x0, host := x1, log := x2 } = look π s) (ch : Nat) (s : State) :
    look π (judgeChan ch s) = look π s := by
  simp only [judgeChan]; repeat' (first | (simp [h]; done) | split)

@[simp ↓] theorem readSlots_only {α : Type} (π : State → α) (h : ∀ s x0 x1 x2, look π { s with isl := x0, host := x1, log := x2 } = look π s) (set : List InRecord) (s : State) :
    look π (readSlots set s) = look π s := by
  unfold readSlots
  exact (look_foldl π _ (fun _ _ => by simp [h]) _ _).trans (by simp [h])

theorem execLinkFault_only {α : Type} (π : State → α) (h : ∀ s x0 x1 x2, look π { s with isl := x0, host := x1, log := x2 } = look π s) (ch : Nat) (s : State) (t : State) (he : execLinkFault ch s = .next t) :
    look π t = look π s := by
  simp only [execLinkFault, Host.Outcome.next.injEq] at he; subst he; repeat' (first | (simp [h]; done) | split)

theorem execUpstreamSlot_only {α : Type} (π : State → α) (h : ∀ s x0 x1 x2 x3 x4, look π { s with tt := x0, inp := x1, isl := x2, host := x3, log := x4 } = look π s) (bad : List Nat) (s : State) (t : State) (he : execUpstreamSlot bad s = .next t) :
    look π t = look π s := by
  simp only [execUpstreamSlot, Host.Outcome.next.injEq] at he; subst he; repeat' (first | (simp [h]; done) | (refine (look_foldl π _ ?_ _ _).trans ?_) | split | intro _ | simp [takeNat, takeQty, h])

theorem execApplyMarker_only {α : Type} (π : State → α) (h : ∀ s x0, look π { s with isl := x0 } = look π s) (missed bad : List Nat) (s : State) (t : State) (he : execApplyMarker missed bad s = .next t) :
    look π t = look π s := by
  simp only [execApplyMarker, Host.Outcome.next.injEq] at he; subst he; repeat' (first | (simp [h]; done) | split)

theorem execSplitAlarm_only {α : Type} (π : State → α) (h : ∀ s x0, look π { s with isl := x0 } = look π s) (ch : Nat) (s : State) (t : State) (he : execSplitAlarm ch s = .next t) :
    look π t = look π s := by
  simp only [execSplitAlarm, Host.Outcome.next.injEq] at he; subst he; repeat' (first | (simp [h]; done) | split)

theorem execIslandSample_only {α : Type} (π : State → α) (h : ∀ s x0, look π { s with isl := x0 } = look π s) (ch : Nat) (x : IslSample) (s : State) (t : State) (he : execIslandSample ch x s = .next t) :
    look π t = look π s := by
  simp only [execIslandSample, Host.Outcome.next.injEq] at he; subst he; repeat' (first | (simp [h]; done) | split)

theorem execComplianceSet_only {α : Type} (π : State → α) (h : ∀ s x0, look π { s with isl := x0 } = look π s) (ch : Nat) (s : State) (t : State) (he : execComplianceSet ch s = .next t) :
    look π t = look π s := by
  simp only [execComplianceSet, Host.Outcome.next.injEq] at he; subst he; repeat' (first | (simp [h]; done) | split)

theorem execComplianceClear_only {α : Type} (π : State → α) (h : ∀ s x0, look π { s with isl := x0 } = look π s) (ch : Nat) (s : State) (t : State) (he : execComplianceClear ch s = .next t) :
    look π t = look π s := by
  simp only [execComplianceClear, Host.Outcome.next.injEq] at he; subst he; repeat' (first | (simp [h]; done) | split)

theorem execReadbackFault_only {α : Type} (π : State → α) (h : ∀ s x0, look π { s with isl := x0 } = look π s) (ch : Nat) (s : State) (t : State) (he : execReadbackFault ch s = .next t) :
    look π t = look π s := by
  simp only [execReadbackFault, Host.Outcome.next.injEq] at he; subst he; repeat' (first | (simp [h]; done) | split)

theorem execAlarmEntry_only {α : Type} (π : State → α) (h : ∀ s x0, look π { s with isl := x0 } = look π s) (ch : Nat) (s : State) (t : State) (he : execAlarmEntry ch s = .next t) :
    look π t = look π s := by
  simp only [execAlarmEntry, Host.Outcome.next.injEq] at he; subst he; repeat' (first | (simp [h]; done) | split)

theorem execAlarmUndeliverable_only {α : Type} (π : State → α) (h : ∀ s x0, look π { s with isl := x0 } = look π s) (ch : Nat) (s : State) (t : State) (he : execAlarmUndeliverable ch s = .next t) :
    look π t = look π s := by
  simp only [execAlarmUndeliverable, Host.Outcome.next.injEq] at he; subst he; repeat' (first | (simp [h]; done) | split)

theorem execAssistedPowerFail_only {α : Type} (π : State → α) (h : ∀ s x0, look π { s with isl := x0 } = look π s) (ch : Nat) (s : State) (t : State) (he : execAssistedPowerFail ch s = .next t) :
    look π t = look π s := by
  simp only [execAssistedPowerFail, Host.Outcome.next.injEq] at he; subst he; repeat' (first | (simp [h]; done) | split)

theorem execLinkSlotLossHold_only {α : Type} (π : State → α) (h : ∀ s x0, look π { s with isl := x0 } = look π s) (ch : Nat) (s : State) (t : State) (he : execLinkSlotLossHold ch s = .next t) :
    look π t = look π s := by
  simp only [execLinkSlotLossHold, Host.Outcome.next.injEq] at he; subst he; repeat' (first | (simp [h]; done) | split)

theorem execHoldTimeout_only {α : Type} (π : State → α) (h : ∀ s x0, look π { s with isl := x0 } = look π s) (ch : Nat) (s : State) (t : State) (he : execHoldTimeout ch s = .next t) :
    look π t = look π s := by
  simp only [execHoldTimeout, Host.Outcome.next.injEq] at he; subst he; repeat' (first | (simp [h]; done) | split)

theorem execEnergyLow_only {α : Type} (π : State → α) (h : ∀ s x0, look π { s with isl := x0 } = look π s) (ch : Nat) (s : State) (t : State) (he : execEnergyLow ch s = .next t) :
    look π t = look π s := by
  simp only [execEnergyLow, Host.Outcome.next.injEq] at he; subst he; simp [h]

theorem execCaptureTimeout_only {α : Type} (π : State → α) (h : ∀ s x0, look π { s with isl := x0 } = look π s) (ch : Nat) (s : State) (t : State) (he : execCaptureTimeout ch s = .next t) :
    look π t = look π s := by
  simp only [execCaptureTimeout, Host.Outcome.next.injEq] at he; subst he; repeat' (first | (simp [h]; done) | split)

theorem execSeriesLimitedExpiry_only {α : Type} (π : State → α) (h : ∀ s x0, look π { s with isl := x0 } = look π s) (ch : Nat) (s : State) (t : State) (he : execSeriesLimitedExpiry ch s = .next t) :
    look π t = look π s := by
  simp only [execSeriesLimitedExpiry, Host.Outcome.next.injEq] at he; subst he; repeat' (first | (simp [h]; done) | split)

theorem execDecimationOutput_only {α : Type} (π : State → α) (h : ∀ s x0, look π { s with isl := x0 } = look π s) (ch : Nat) (raw : Int) (s : State) (t : State) (he : execDecimationOutput ch raw s = .next t) :
    look π t = look π s := by
  simp only [execDecimationOutput, Host.Outcome.next.injEq] at he; subst he; repeat' (first | (simp [h]; done) | split)

theorem execOverloadSet_only {α : Type} (π : State → α) (h : ∀ s x0, look π { s with isl := x0 } = look π s) (ch : Nat) (s : State) (t : State) (he : execOverloadSet ch s = .next t) :
    look π t = look π s := by
  simp only [execOverloadSet, Host.Outcome.next.injEq] at he; subst he; repeat' (first | (simp [h]; done) | split)

theorem execOverloadClear_only {α : Type} (π : State → α) (h : ∀ s x0, look π { s with isl := x0 } = look π s) (ch : Nat) (s : State) (t : State) (he : execOverloadClear ch s = .next t) :
    look π t = look π s := by
  simp only [execOverloadClear, Host.Outcome.next.injEq] at he; subst he; repeat' (first | (simp [h]; done) | split)

theorem execNoPulse_only {α : Type} (π : State → α) (h : ∀ s x0, look π { s with isl := x0 } = look π s) (ch : Nat) (s : State) (t : State) (he : execNoPulse ch s = .next t) :
    look π t = look π s := by
  simp only [execNoPulse, Host.Outcome.next.injEq] at he; subst he; repeat' (first | (simp [h]; done) | split)

theorem execHartFrameReceived_only {α : Type} (π : State → α) (h : ∀ s x0, look π { s with isl := x0 } = look π s) (ch : Nat) (f : HartFrame) (s : State) (t : State) (he : execHartFrameReceived ch f s = .next t) :
    look π t = look π s := by
  simp only [execHartFrameReceived, Host.Outcome.next.injEq] at he; subst he; repeat' (first | (simp [h]; done) | split)

@[simp ↓] theorem endHart_only {α : Type} (π : State → α) (h : ∀ s x0 x1, look π { s with isl := x0, host := x1 } = look π s) (ch : Nat) (r : HartResult) (s : State) :
    look π (endHart ch r s) = look π s := by
  simp only [endHart]; repeat' (first | (simp [h]; done) | split)

theorem execHartTransactionEnd_only {α : Type} (π : State → α) (h : ∀ s x0 x1, look π { s with isl := x0, host := x1 } = look π s) (ch : Nat) (r : HartResult) (s : State) (t : State) (he : execHartTransactionEnd ch r s = .next t) :
    look π t = look π s := by
  simp only [execHartTransactionEnd, Host.Outcome.next.injEq] at he; subst he; repeat' (first | (simp [h]; done) | split)

@[simp ↓] theorem stepHart_only {α : Type} (π : State → α) (h : ∀ s x0 x1, look π { s with isl := x0, host := x1 } = look π s) (ch : Nat) (s : State) :
    look π (stepHart ch s) = look π s := by
  simp only [stepHart]; repeat' (first | (simp [h]; done) | split)

@[simp ↓] theorem stepHarts_only {α : Type} (π : State → α) (h : ∀ s x0 x1, look π { s with isl := x0, host := x1 } = look π s) (s : State) :
    look π (stepHarts s) = look π s := by
  simp only [stepHarts]; repeat' (first | (simp [h]; done) | (refine (look_foldl π _ ?_ _ _).trans ?_) | split | intro _ | simp [takeNat, takeQty, h])

theorem execMultidropPoll_only {α : Type} (π : State → α) (h : ∀ s x0, look π { s with isl := x0 } = look π s) (ch : Nat) (r : Option PollReply) (s : State) (t : State) (he : execMultidropPoll ch r s = .next t) :
    look π t = look π s := by
  simp only [execMultidropPoll, Host.Outcome.next.injEq] at he; subst he; repeat' (first | (simp [h]; done) | split)

theorem execMissingRetry_only {α : Type} (π : State → α) (h : ∀ s x0, look π { s with isl := x0 } = look π s) (ch : Nat) (addr : Nat) (r : Option PollReply) (s : State) (t : State) (he : execMissingRetry ch addr r s = .next t) :
    look π t = look π s := by
  simp only [execMissingRetry, Host.Outcome.next.injEq] at he; subst he; repeat' (first | (simp [h]; done) | split)

@[simp ↓] theorem applyChanCfg_only {α : Type} (π : State → α) (h : ∀ s x0, look π { s with isl := x0 } = look π s) (ch : Nat) (c : ChanCfg) (s : State) :
    look π (applyChanCfg ch c s) = look π s := by
  simp [applyChanCfg, h]

theorem execConfigPendingApply_only {α : Type} (π : State → α) (h : ∀ s x0, look π { s with isl := x0 } = look π s) (ch : Nat) (s : State) (t : State) (he : execConfigPendingApply ch s = .next t) :
    look π t = look π s := by
  simp only [execConfigPendingApply, Host.Outcome.next.injEq] at he; subst he; repeat' (first | (simp [h]; done) | split)

@[simp ↓] theorem applyChanClear_only {α : Type} (π : State → α) (h : ∀ s x0, look π { s with isl := x0 } = look π s) (ch : Nat) (s : State) :
    look π (applyChanClear ch s) = look π s := by
  simp [applyChanClear, h]

@[simp ↓] theorem applyChanChar_only {α : Type} (π : State → α) (h : ∀ s x0, look π { s with isl := x0 } = look π s) (ch : Nat) (c : CharCfg) (s : State) :
    look π (applyChanChar ch c s) = look π s := by
  simp [applyChanChar, h]

@[simp ↓] theorem applyFilter_only {α : Type} (π : State → α) (h : ∀ s x0, look π { s with isl := x0 } = look π s) (ch depth dc : Nat) (tau : Qty) (s : State) :
    look π (applyFilter ch depth dc tau s) = look π s := by
  simp [applyFilter, h]

@[simp ↓] theorem chanConfigSpec_only {α : Type} (π : State → α) (h : ∀ s x0, look π { s with host := x0 } = look π s) (k : Nat) (p : Packet) (s : State) :
    look π (chanConfigSpec.run k p s).state = look π s := by
  simp only [chanConfigSpec, fail]; repeat' (first | (simp [h, fail]; done) | split)

theorem execChanConfig_only {α : Type} (π : State → α) (h : ∀ s x0 x1 x2, look π { s with tt := x0, cons := x1, host := x2 } = look π s) (p : Packet) (s : State) (t : State) (he : execChanConfig p s = .next t) :
    look π t = look π s := by
  simp only [execChanConfig, Host.Outcome.next.injEq] at he; subst he; exact processPacket_only π _ _ _ (by simp [h]) (fun _ _ _ => by simp [h])

@[simp ↓] theorem chanStatusSpec_only {α : Type} (π : State → α) (k : Nat) (p : Packet) (s : State) :
    look π (chanStatusSpec.run k p s).state = look π s := by
  simp only [chanStatusSpec, fail]; repeat' (first | (simp [fail]; done) | split)

theorem execChanStatus_only {α : Type} (π : State → α) (h : ∀ s x0 x1 x2, look π { s with tt := x0, cons := x1, host := x2 } = look π s) (p : Packet) (s : State) (t : State) (he : execChanStatus p s = .next t) :
    look π t = look π s := by
  simp only [execChanStatus, Host.Outcome.next.injEq] at he; subst he; exact processPacket_only π _ _ _ (by simp [h]) (fun _ _ _ => by simp [h])

@[simp ↓] theorem chanReadSpec_only {α : Type} (π : State → α) (h : ∀ s x0 x1 x2 x3 x4 x5 x6 x7 x8 x9 x10 x11 x12 x13, look π { s with free := x0, time := x1, tt := x2, inp := x3, ctl := x4, servoUndo := x5, alloc := x6, isl := x7, sb := x8, lanes := x9, cons := x10, host := x11, log := x12, pow := x13 } = look π s) (k : Nat) (p : Packet) (s : State) :
    look π (chanReadSpec.run k p s).state = look π s := by
  simp only [chanReadSpec, fail]; repeat' (first | (simp [h, fail]; done) | split)

theorem execChanRead_only {α : Type} (π : State → α) (h : ∀ s x0 x1 x2 x3 x4 x5 x6 x7 x8 x9 x10 x11 x12 x13, look π { s with free := x0, time := x1, tt := x2, inp := x3, ctl := x4, servoUndo := x5, alloc := x6, isl := x7, sb := x8, lanes := x9, cons := x10, host := x11, log := x12, pow := x13 } = look π s) (p : Packet) (s : State) (t : State) (he : execChanRead p s = .next t) :
    look π t = look π s := by
  simp only [execChanRead, Host.Outcome.next.injEq] at he; subst he; exact processPacket_only π _ _ _ (by simp [h]) (fun _ _ _ => by simp [h])

@[simp ↓] theorem hartTransactSpec_only {α : Type} (π : State → α) (h : ∀ s x0, look π { s with isl := x0 } = look π s) (k : Nat) (p : Packet) (s : State) :
    look π (hartTransactSpec.run k p s).state = look π s := by
  simp only [hartTransactSpec, fail]; repeat' (first | (simp [h, fail]; done) | split)

theorem execHartTransact_only {α : Type} (π : State → α) (h : ∀ s x0 x1 x2 x3, look π { s with tt := x0, isl := x1, cons := x2, host := x3 } = look π s) (p : Packet) (s : State) (t : State) (he : execHartTransact p s = .next t) :
    look π t = look π s := by
  simp only [execHartTransact, Host.Outcome.next.injEq] at he; subst he; exact processPacket_only π _ _ _ (by simp [h]) (fun _ _ _ => by simp [h])

@[simp ↓] theorem chanCharSpec_only {α : Type} (π : State → α) (h : ∀ s x0, look π { s with host := x0 } = look π s) (k : Nat) (p : Packet) (s : State) :
    look π (chanCharSpec.run k p s).state = look π s := by
  simp only [chanCharSpec, fail]; repeat' (first | (simp [h, fail]; done) | split)

theorem execChanCharacteristic_only {α : Type} (π : State → α) (h : ∀ s x0 x1 x2, look π { s with tt := x0, cons := x1, host := x2 } = look π s) (p : Packet) (s : State) (t : State) (he : execChanCharacteristic p s = .next t) :
    look π t = look π s := by
  simp only [execChanCharacteristic, Host.Outcome.next.injEq] at he; subst he; exact processPacket_only π _ _ _ (by simp [h]) (fun _ _ _ => by simp [h])

@[simp ↓] theorem filterConfigSpec_only {α : Type} (π : State → α) (h : ∀ s x0, look π { s with host := x0 } = look π s) (k : Nat) (p : Packet) (s : State) :
    look π (filterConfigSpec.run k p s).state = look π s := by
  simp only [filterConfigSpec, fail]; repeat' (first | (simp [h, fail]; done) | split)

theorem execFilterConfig_only {α : Type} (π : State → α) (h : ∀ s x0 x1 x2, look π { s with tt := x0, cons := x1, host := x2 } = look π s) (p : Packet) (s : State) (t : State) (he : execFilterConfig p s = .next t) :
    look π t = look π s := by
  simp only [execFilterConfig, Host.Outcome.next.injEq] at he; subst he; exact processPacket_only π _ _ _ (by simp [h]) (fun _ _ _ => by simp [h])

@[simp ↓] theorem endCheck_only {α : Type} (π : State → α) (h : ∀ s x0 x1 x2 x3, look π { s with isl := x0, check := x1, host := x2, log := x3 } = look π s) (outcome : Nat) (vMin heldMs : Int) (s : State) :
    look π (endCheck outcome vMin heldMs s) = look π s := by
  simp only [endCheck]; repeat' (first | (simp [h]; done) | split)

@[simp ↓] theorem stepCheckBack_only {α : Type} (π : State → α) (h : ∀ s x0, look π { s with isl := x0 } = look π s) (s : State) :
    look π (stepCheckBack s) = look π s := by
  simp [stepCheckBack, h]

@[simp ↓] theorem abortCheck_only {α : Type} (π : State → α) (h : ∀ s x0 x1 x2 x3, look π { s with isl := x0, check := x1, host := x2, log := x3 } = look π s) (s : State) :
    look π (abortCheck s) = look π s := by
  simp [abortCheck, h]

theorem execComplianceCheckPhase_only {α : Type} (π : State → α) (h : ∀ s x0 x1 x2 x3, look π { s with isl := x0, check := x1, host := x2, log := x3 } = look π s) (x : CheckMeas) (s : State) (t : State) (he : execComplianceCheckPhase x s = .next t) :
    look π t = look π s := by
  simp only [execComplianceCheckPhase, Host.Outcome.next.injEq] at he; subst he; repeat' (first | (simp [h]; done) | split)

@[simp ↓] theorem complianceCheckSpec_only {α : Type} (π : State → α) (h : ∀ s x0 x1, look π { s with isl := x0, check := x1 } = look π s) (k : Nat) (p : Packet) (s : State) :
    look π (complianceCheckSpec.run k p s).state = look π s := by
  simp only [complianceCheckSpec, fail]; repeat' (first | (simp [h, fail]; done) | split)

theorem execComplianceCheck_only {α : Type} (π : State → α) (h : ∀ s x0 x1 x2 x3 x4, look π { s with tt := x0, isl := x1, check := x2, cons := x3, host := x4 } = look π s) (p : Packet) (s : State) (t : State) (he : execComplianceCheck p s = .next t) :
    look π t = look π s := by
  simp only [execComplianceCheck, Host.Outcome.next.injEq] at he; subst he; exact processPacket_only π _ _ _ (by simp [h]) (fun _ _ _ => by simp [h])

theorem execIslandThermalLimit_only {α : Type} (π : State → α) (h : ∀ s x0, look π { s with isl := x0 } = look π s) (ch : Nat) (s : State) (t : State) (he : execIslandThermalLimit ch s = .next t) :
    look π t = look π s := by
  simp only [execIslandThermalLimit, Host.Outcome.next.injEq] at he; subst he; repeat' (first | (simp [h]; done) | split)


/-! ### Machine/Refs.lean -/

@[simp ↓] theorem deliver_only {α : Type} (π : State → α) (h : ∀ s x0 x1 x2, look π { s with inp := x0, ref := x1, log := x2 } = look π s) (p : Parsed) (tv : Int) (s : State) :
    look π (deliver p tv s) = look π s := by
  simp only [deliver]; repeat' (first | (simp [h]; done) | split)

@[simp ↓] theorem enterUnaligned_only {α : Type} (π : State → α) (h : ∀ s x0 x1 x2, look π { s with ref := x0, host := x1, log := x2 } = look π s) (sensor : Bool) (i b : Nat) (d : Int) (s : State) :
    look π (enterUnaligned sensor i b d s) = look π s := by
  simp only [enterUnaligned]; repeat' (first | (simp [h]; done) | split)

@[simp ↓] theorem alignRecord_only {α : Type} (π : State → α) (h : ∀ s x0 x1 x2 x3, look π { s with inp := x0, ref := x1, host := x2, log := x3 } = look π s) (s : State) (p : Parsed) :
    look π (alignRecord s p) = look π s := by
  simp only [alignRecord]; repeat' (first | (simp [h]; done) | split)

@[simp ↓] theorem missUpdate_only {α : Type} (π : State → α) (h : ∀ s x0, look π { s with ref := x0 } = look π s) (sensor : Bool) (i : Nat) (s : State) :
    look π (missUpdate sensor i s) = look π s := by
  simp [missUpdate, h]

@[simp ↓] theorem missAll_only {α : Type} (π : State → α) (h : ∀ s x0, look π { s with ref := x0 } = look π s) (s : State) :
    look π (missAll s) = look π s := by
  unfold missAll
  exact look_foldl π _ (fun s x => by split <;> simp [h]) _ _

@[simp ↓] theorem missDue_only {α : Type} (π : State → α) (h : ∀ s x0, look π { s with ref := x0 } = look π s) (s : State) :
    look π (missDue s) = look π s := by
  unfold missDue
  exact look_foldl π _ (fun s x => by dsimp only; split <;> simp [h]) _ _

@[simp ↓] theorem voteOne_only {α : Type} (π : State → α) (h : ∀ s x0 x1 x2, look π { s with ref := x0, host := x1, log := x2 } = look π s) (s : State) (q : VoteQ) :
    look π (voteOne s q) = look π s := by
  simp only [voteOne]; repeat' (first | (simp [h]; done) | split)

@[simp ↓] theorem keepAttitude_only {α : Type} (π : State → α) (h : ∀ s x0, look π { s with ref := x0 } = look π s) (s : State) :
    look π (keepAttitude s) = look π s := by
  simp [keepAttitude, h]

@[simp ↓] theorem withholdInternal_only {α : Type} (π : State → α) (h : ∀ s x0, look π { s with ref := x0 } = look π s) (s : State) :
    look π (withholdInternal s) = look π s := by
  simp only [withholdInternal]; repeat' (first | (simp [h]; done) | split)

theorem execTimeAlignment_only {α : Type} (π : State → α) (h : ∀ s x0 x1 x2 x3 x4 x5 x6, look π { s with free := x0, tt := x1, inp := x2, ref := x3, servoUndo := x4, host := x5, log := x6 } = look π s) (s : State) (t : State) (he : execTimeAlignment s = .next t) :
    look π t = look π s := by
  simp only [execTimeAlignment, Host.Outcome.next.injEq] at he; subst he
  refine look_ite (look_ite ?_ ?_) rfl
  · rw [completeAct_only π (by simp [h])]
    simp only [h]
    rw [keepAttitude_only π (by simp [h])]
    refine (look_foldl π _ (fun s x => voteOne_only π (by simp [h]) s x) _ _).trans ?_
    rw [withholdInternal_only π (by simp [h])]
    refine look_ite ?_ ?_
    · simp [h]
    · rw [missDue_only π (by simp [h])]
      exact (look_foldl π _ (fun s x => alignRecord_only π (by simp [h]) s x) _ _).trans (by simp [h])
  · simp [h]

theorem execSensorDeviating_only {α : Type} (π : State → α) (h : ∀ s x0 x1, look π { s with ref := x0, log := x1 } = look π s) (q : VoteQ) (cand : Nat) (s : State) (t : State) (he : execSensorDeviating q cand s = .next t) :
    look π t = look π s := by
  simp only [execSensorDeviating, Host.Outcome.next.injEq] at he; subst he; repeat' (first | (simp [h]; done) | split)

theorem execSensorReadmit_only {α : Type} (π : State → α) (h : ∀ s x0, look π { s with ref := x0 } = look π s) (q : VoteQ) (cand : Nat) (s : State) (t : State) (he : execSensorReadmit q cand s = .next t) :
    look π t = look π s := by
  simp only [execSensorReadmit, Host.Outcome.next.injEq] at he; subst he; repeat' (first | (simp [h]; done) | split)

theorem execRefNoData_only {α : Type} (π : State → α) (h : ∀ s x0, look π { s with ref := x0 } = look π s) (sensor : Bool) (index : Nat) (s : State) (t : State) (he : execRefNoData sensor index s = .next t) :
    look π t = look π s := by
  simp only [execRefNoData, Host.Outcome.next.injEq] at he; subst he; repeat' (first | (simp [h]; done) | split)

@[simp ↓] theorem trackOverflow_only {α : Type} (π : State → α) (h : ∀ s x0 x1, look π { s with ref := x0, log := x1 } = look π s) (i : Nat) (s : State) :
    look π (trackOverflow i s) = look π s := by
  simp only [trackOverflow]; repeat' (first | (simp [h]; done) | split)

@[simp ↓] theorem freeTracks_only {α : Type} (π : State → α) (h : ∀ s x0, look π { s with ref := x0 } = look π s) (i : Nat) (s : State) :
    look π (freeTracks i s) = look π s := by
  simp [freeTracks, h]

@[simp ↓] theorem placeCandidate_only {α : Type} (π : State → α) (h : ∀ s x0 x1, look π { s with ref := x0, log := x1 } = look π s)
    (x : State × List Nat) (r : Row) : look π (placeCandidate x r).1 = look π x.1 := by
  obtain ⟨s, f⟩ := x
  simp only [placeCandidate]
  repeat' (first | (simp [h]; done) | split)

theorem foldl_placeCandidate_only {α : Type} (π : State → α)
    (h : ∀ s x0 x1, look π { s with ref := x0, log := x1 } = look π s) (l : List Row) (x : State × List Nat) :
    look π (l.foldl placeCandidate x).1 = look π x.1 := by
  induction l generalizing x with
  | nil => rfl
  | cons a t ih => rw [List.foldl_cons, ih, placeCandidate_only π h]

@[simp ↓] theorem associate_only {α : Type} (π : State → α) (h : ∀ s x0 x1, look π { s with ref := x0, log := x1 } = look π s) (s : State) :
    look π (associate s) = look π s := by
  unfold associate
  refine (look_foldl π _ (fun s i => ?_) _ _).trans ((foldl_placeCandidate_only π h _ _).trans ?_)
  · dsimp only
    split <;> split <;> simp [h]
  · simp [h]

theorem execTargetAssociation_only {α : Type} (π : State → α) (h : ∀ s x0 x1 x2 x3 x4 x5, look π { s with free := x0, tt := x1, ref := x2, servoUndo := x3, host := x4, log := x5 } = look π s) (s : State) (t : State) (he : execTargetAssociation s = .next t) :
    look π t = look π s := by
  simp only [execTargetAssociation, Host.Outcome.next.injEq] at he; subst he; repeat' (first | (simp [h]; done) | split)

@[simp ↓] theorem refSetSpec_only {α : Type} (π : State → α) (h : ∀ s x0, look π { s with host := x0 } = look π s) (on : Bool) (k : Nat) (p : Packet) (s : State) :
    look π ((refSetSpec on).run k p s).state = look π s := by
  simp only [refSetSpec, fail]; repeat' (first | (simp [h, fail]; done) | split)

theorem execRefEnable_only {α : Type} (π : State → α) (h : ∀ s x0 x1 x2, look π { s with tt := x0, cons := x1, host := x2 } = look π s) (p : Packet) (s : State) (t : State) (he : execRefEnable p s = .next t) :
    look π t = look π s := by
  simp only [execRefEnable, Host.Outcome.next.injEq] at he; subst he; exact processPacket_only π _ _ _ (by simp [h]) (fun _ _ _ => by simp [h])

theorem execRefDisable_only {α : Type} (π : State → α) (h : ∀ s x0 x1 x2, look π { s with tt := x0, cons := x1, host := x2 } = look π s) (p : Packet) (s : State) (t : State) (he : execRefDisable p s = .next t) :
    look π t = look π s := by
  simp only [execRefDisable, Host.Outcome.next.injEq] at he; subst he; exact processPacket_only π _ _ _ (by simp [h]) (fun _ _ _ => by simp [h])

@[simp ↓] theorem applyRefSet_only {α : Type} (π : State → α) (h : ∀ s x0, look π { s with ref := x0 } = look π s) (sensor : Bool) (i : Nat) (on : Bool) (s : State) :
    look π (applyRefSet sensor i on s) = look π s := by
  simp [applyRefSet, h]

@[simp ↓] theorem refStatusSpec_only {α : Type} (π : State → α) (k : Nat) (p : Packet) (s : State) :
    look π (refStatusSpec.run k p s).state = look π s := by
  simp only [refStatusSpec, fail]; repeat' (first | (simp [fail]; done) | split)

theorem execRefStatus_only {α : Type} (π : State → α) (h : ∀ s x0 x1 x2, look π { s with tt := x0, cons := x1, host := x2 } = look π s) (p : Packet) (s : State) (t : State) (he : execRefStatus p s = .next t) :
    look π t = look π s := by
  simp only [execRefStatus, Host.Outcome.next.injEq] at he; subst he; exact processPacket_only π _ _ _ (by simp [h]) (fun _ _ _ => by simp [h])

@[simp ↓] theorem leverGetSpec_only {α : Type} (π : State → α) (k : Nat) (p : Packet) (s : State) :
    look π (leverGetSpec.run k p s).state = look π s := by
  simp only [leverGetSpec, fail]; repeat' (first | (simp [fail]; done) | split)

theorem execLeverArmGet_only {α : Type} (π : State → α) (h : ∀ s x0 x1 x2, look π { s with tt := x0, cons := x1, host := x2 } = look π s) (p : Packet) (s : State) (t : State) (he : execLeverArmGet p s = .next t) :
    look π t = look π s := by
  simp only [execLeverArmGet, Host.Outcome.next.injEq] at he; subst he; exact processPacket_only π _ _ _ (by simp [h]) (fun _ _ _ => by simp [h])

@[simp ↓] theorem leverFreezeSpec_only {α : Type} (π : State → α) (h : ∀ s x0, look π { s with host := x0 } = look π s) (k : Nat) (p : Packet) (s : State) :
    look π (leverFreezeSpec.run k p s).state = look π s := by
  simp only [leverFreezeSpec, fail]; repeat' (first | (simp [h, fail]; done) | split)

theorem execLeverArmFreeze_only {α : Type} (π : State → α) (h : ∀ s x0 x1 x2, look π { s with tt := x0, cons := x1, host := x2 } = look π s) (p : Packet) (s : State) (t : State) (he : execLeverArmFreeze p s = .next t) :
    look π t = look π s := by
  simp only [execLeverArmFreeze, Host.Outcome.next.injEq] at he; subst he; exact processPacket_only π _ _ _ (by simp [h]) (fun _ _ _ => by simp [h])

@[simp ↓] theorem applyLever_only {α : Type} (π : State → α) (h : ∀ s x0, look π { s with ref := x0 } = look π s) (i op : Nat) (s : State) :
    look π (applyLever i op s) = look π s := by
  simp [applyLever, h]

@[simp ↓] theorem trackReadSpec_only {α : Type} (π : State → α) (k : Nat) (p : Packet) (s : State) :
    look π (trackReadSpec.run k p s).state = look π s := by
  simp only [trackReadSpec, fail]; repeat' (first | (simp [fail]; done) | split)

theorem execTrackTableRead_only {α : Type} (π : State → α) (h : ∀ s x0 x1 x2, look π { s with tt := x0, cons := x1, host := x2 } = look π s) (p : Packet) (s : State) (t : State) (he : execTrackTableRead p s = .next t) :
    look π t = look π s := by
  simp only [execTrackTableRead, Host.Outcome.next.injEq] at he; subst he; exact processPacket_only π _ _ _ (by simp [h]) (fun _ _ _ => by simp [h])


/-! ### Machine/Fusion.lean -/

@[simp ↓] theorem leverAll_only {α : Type} (π : State → α) (h : ∀ s x0 x1 x2, look π { s with ref := x0, host := x1, log := x2 } = look π s) (terms : List RefTerms) (s : State) :
    look π (leverAll terms s) = look π s := by
  unfold leverAll
  refine look_foldl π _ (fun s i => ?_) _ _
  refine look_ite ?_ ?_ <;> simp [h]

@[simp ↓] theorem initStep_only {α : Type} (π : State → α) (h : ∀ s x0, look π { s with obs := x0 } = look π s) (A : List RefTerms) (s : State) :
    look π (initStep A s) = look π s := by
  simp only [initStep]; repeat' (first | (simp [h]; done) | (refine (look_foldl π _ ?_ _ _).trans ?_) | split | intro _ | simp [takeNat, takeQty, h])

@[simp ↓] theorem fuse_only {α : Type} (π : State → α) (h : ∀ s x0 x1 x2 x3 x4, look π { s with ref := x0, fus := x1, obs := x2, host := x3, log := x4 } = look π s) (s : State) :
    look π (fuse s) = look π s := by
  simp [fuse, h]

theorem execGridFusion_only {α : Type} (π : State → α) (h : ∀ s x0 x1 x2 x3 x4 x5 x6 x7, look π { s with free := x0, tt := x1, ref := x2, fus := x3, obs := x4, servoUndo := x5, host := x6, log := x7 } = look π s) (s : State) (t : State) (he : execGridFusion s = .next t) :
    look π t = look π s := by
  simp only [execGridFusion, Host.Outcome.next.injEq] at he; subst he; repeat' (first | (simp [h]; done) | split)

theorem execRefConflictRaised_only {α : Type} (π : State → α) (h : ∀ s x0 x1 x2 x3, look π { s with ref := x0, fus := x1, host := x2, log := x3 } = look π s) (s : State) (t : State) (he : execRefConflictRaised s = .next t) :
    look π t = look π s := by
  simp only [execRefConflictRaised, Host.Outcome.next.injEq] at he; subst he; repeat' (first | (simp [h]; done) | split)

@[simp ↓] theorem clearConflict_only {α : Type} (π : State → α) (h : ∀ s x0 x1 x2 x3, look π { s with ref := x0, fus := x1, host := x2, log := x3 } = look π s) (s : State) :
    look π (clearConflict s) = look π s := by
  simp [clearConflict, h]

theorem execRefConflictCleared_only {α : Type} (π : State → α) (h : ∀ s x0 x1 x2 x3, look π { s with ref := x0, fus := x1, host := x2, log := x3 } = look π s) (s : State) (t : State) (he : execRefConflictCleared s = .next t) :
    look π t = look π s := by
  simp only [execRefConflictCleared, Host.Outcome.next.injEq] at he; subst he; repeat' (first | (simp [h]; done) | split)

@[simp ↓] theorem endInjection_only {α : Type} (π : State → α) (h : ∀ s x0 x1 x2, look π { s with ctl := x0, host := x1, log := x2 } = look π s) (reason : Nat) (s : State) :
    look π (endInjection reason s) = look π s := by
  simp only [endInjection]; repeat' (first | (simp [h]; done) | split)

@[simp ↓] theorem updateLevel_only {α : Type} (π : State → α) (h : ∀ s x0 x1 x2 x3, look π { s with obs := x0, ctl := x1, host := x2, log := x3 } = look π s) (s : State) :
    look π (updateLevel s) = look π s := by
  simp only [updateLevel]; repeat' (first | (simp [h]; done) | split)

theorem execConflictTimeout_only {α : Type} (π : State → α) (h : ∀ s x0 x1 x2 x3 x4, look π { s with fus := x0, obs := x1, ctl := x2, host := x3, log := x4 } = look π s) (s : State) (t : State) (he : execConflictTimeout s = .next t) :
    look π t = look π s := by
  simp only [execConflictTimeout, Host.Outcome.next.injEq] at he; subst he; repeat' (first | (simp [h]; done) | split)

theorem execRecentreMeasured_only {α : Type} (π : State → α) (h : ∀ s x0, look π { s with fus := x0 } = look π s) (s : State) (t : State) (he : execRecentreMeasured s = .next t) :
    look π t = look π s := by
  simp only [execRecentreMeasured, Host.Outcome.next.injEq] at he; subst he; repeat' (first | (simp [h]; done) | split)

theorem execProbationEnd_only {α : Type} (π : State → α) (h : ∀ s x0, look π { s with ref := x0 } = look π s) (ref : Nat) (s : State) (t : State) (he : execProbationEnd ref s = .next t) :
    look π t = look π s := by
  simp only [execProbationEnd, Host.Outcome.next.injEq] at he; subst he; repeat' (first | (simp [h]; done) | split)

@[simp ↓] theorem positionReset_only {α : Type} (π : State → α) (h : ∀ s x0 x1 x2, look π { s with obs := x0, set := x1, log := x2 } = look π s) (at' : Int) (m : Qty × Qty × Qty × Qty × Qty) (s : State) :
    look π (positionReset at' m s) = look π s := by
  simp [positionReset, h]

@[simp ↓] theorem observe_only {α : Type} (π : State → α) (h : ∀ s x0 x1 x2 x3 x4, look π { s with obs := x0, set := x1, ctl := x2, host := x3, log := x4 } = look π s) (s : State) :
    look π (observe s) = look π s := by
  simp only [observe]; repeat' (first | (simp [h]; done) | split)

theorem execObserver_only {α : Type} (π : State → α) (h : ∀ s x0 x1 x2 x3 x4 x5 x6 x7, look π { s with free := x0, tt := x1, obs := x2, set := x3, ctl := x4, servoUndo := x5, host := x6, log := x7 } = look π s) (s : State) (t : State) (he : execObserver s = .next t) :
    look π t = look π s := by
  simp only [execObserver, Host.Outcome.next.injEq] at he; subst he; repeat' (first | (simp [h]; done) | split)

theorem execObserverInitEnd_only {α : Type} (π : State → α) (h : ∀ s x0 x1 x2 x3 x4 x5, look π { s with ref := x0, obs := x1, set := x2, ctl := x3, host := x4, log := x5 } = look π s) (s : State) (t : State) (he : execObserverInitEnd s = .next t) :
    look π t = look π s := by
  simp only [execObserverInitEnd, Host.Outcome.next.injEq] at he; subst he; repeat' (first | (simp [h]; done) | split)

@[simp ↓] theorem fusionStatusSpec_only {α : Type} (π : State → α) (k : Nat) (p : Packet) (s : State) :
    look π (fusionStatusSpec.run k p s).state = look π s := by
  simp [fusionStatusSpec, fail]

theorem execFusionStatus_only {α : Type} (π : State → α) (h : ∀ s x0 x1 x2, look π { s with tt := x0, cons := x1, host := x2 } = look π s) (p : Packet) (s : State) (t : State) (he : execFusionStatus p s = .next t) :
    look π t = look π s := by
  simp only [execFusionStatus, Host.Outcome.next.injEq] at he; subst he; exact processPacket_only π _ _ _ (by simp [h]) (fun _ _ _ => by simp [h])

@[simp ↓] theorem gridSnapshotSpec_only {α : Type} (π : State → α) (h : ∀ s x0, look π { s with fus := x0 } = look π s) (k : Nat) (p : Packet) (s : State) :
    look π (gridSnapshotSpec.run k p s).state = look π s := by
  simp only [gridSnapshotSpec, fail]; repeat' (first | (simp [h, fail]; done) | split)

theorem execGridSnapshot_only {α : Type} (π : State → α) (h : ∀ s x0 x1 x2 x3, look π { s with tt := x0, fus := x1, cons := x2, host := x3 } = look π s) (p : Packet) (s : State) (t : State) (he : execGridSnapshot p s = .next t) :
    look π t = look π s := by
  simp only [execGridSnapshot, Host.Outcome.next.injEq] at he; subst he; exact processPacket_only π _ _ _ (by simp [h]) (fun _ _ _ => by simp [h])

theorem execGridHoldExpiry_only {α : Type} (π : State → α) (h : ∀ s x0, look π { s with fus := x0 } = look π s) (s : State) (t : State) (he : execGridHoldExpiry s = .next t) :
    look π t = look π s := by
  simp only [execGridHoldExpiry, Host.Outcome.next.injEq] at he; subst he; repeat' (first | (simp [h]; done) | split)

@[simp ↓] theorem conflictResolveSpec_only {α : Type} (π : State → α) (h : ∀ s x0, look π { s with host := x0 } = look π s) (k : Nat) (p : Packet) (s : State) :
    look π (conflictResolveSpec.run k p s).state = look π s := by
  simp only [conflictResolveSpec, fail]; repeat' (first | (simp [h, fail]; done) | split)

theorem execConflictResolve_only {α : Type} (π : State → α) (h : ∀ s x0 x1 x2, look π { s with tt := x0, cons := x1, host := x2 } = look π s) (p : Packet) (s : State) (t : State) (he : execConflictResolve p s = .next t) :
    look π t = look π s := by
  simp only [execConflictResolve, Host.Outcome.next.injEq] at he; subst he; exact processPacket_only π _ _ _ (by simp [h]) (fun _ _ _ => by simp [h])

@[simp ↓] theorem applyResolve_only {α : Type} (π : State → α) (h : ∀ s x0 x1 x2 x3 x4 x5, look π { s with ref := x0, fus := x1, obs := x2, set := x3, host := x4, log := x5 } = look π s) (op : Nat) (mask : List Nat) (s : State) :
    look π (applyResolve op mask s) = look π s := by
  simp only [applyResolve]; repeat' (first | (simp [h]; done) | split)

@[simp ↓] theorem applyPosition_only {α : Type} (π : State → α) (h : ∀ s x0, look π { s with set := x0 } = look π s) (flags : Nat) (n e hd v r : Qty) (s : State) :
    look π (applyPosition flags n e hd v r s) = look π s := by
  simp [applyPosition, h]

@[simp ↓] theorem applyTrack_only {α : Type} (π : State → α) (h : ∀ s x0, look π { s with set := x0 } = look π s) (wps : List Waypoint) (along : Bool) (v r : Qty) (s : State) :
    look π (applyTrack wps along v r s) = look π s := by
  simp [applyTrack, h]

end Sys2Proof.Machine
end

