-- ==== Sys2Proof/Laws/FrameControl.lean ====
section
/-! SUPPORT. The control engine, allocation and the signal box: what each operation leaves alone. A lemma `f_only` says that an
observation of the state which is blind to the parts named in its hypothesis is the same after `f` as before it. -/

set_option maxRecDepth 20000
set_option linter.unusedSimpArgs false
set_option linter.unusedVariables false
set_option linter.unusedTactic false
set_option linter.unreachableTactic false

namespace Sys2Proof.Machine

/-! ### Machine/Servo.lean -/

@[simp ↓] theorem tickAzimuths_only {α : Type} (π : State → α) (h : ∀ s x0, look π { s with alloc := x0 } = look π s) (s : State) :
    look π (tickAzimuths s) = look π s := by
  simp [tickAzimuths, h]

@[simp ↓] theorem boundarySnap_only {α : Type} (π : State → α) (h : ∀ s x0 x1, look π { s with ctl := x0, alloc := x1 } = look π s) (s : State) :
    look π (boundarySnap s) = look π s := by
  simp [boundarySnap, h]

@[simp ↓] theorem servoSlot_only {α : Type} (π : State → α) (h : ∀ s x0 x1 x2, look π { s with tt := x0, ctl := x1, servoUndo := x2 } = look π s) (s : State) :
    look π (servoSlot s) = look π s := by
  simp [servoSlot, h]

@[simp ↓] theorem snapAgain_only {α : Type} (π : State → α) (h : ∀ s x0 x1, look π { s with ctl := x0, alloc := x1 } = look π s) (s : State) :
    look π (snapAgain s) = look π s := by
  simp only [snapAgain]; repeat' (first | (simp [h]; done) | split)

@[simp ↓] theorem redoServo_only {α : Type} (π : State → α) (h : ∀ s x0 x1, look π { s with ctl := x0, alloc := x1 } = look π s) (s : State) :
    look π (redoServo s) = look π s := by
  simp only [redoServo]; repeat' (first | (simp [h]; done) | split)

@[simp ↓] theorem undoServo_only {α : Type} (π : State → α) (h : ∀ s x0 x1 x2, look π { s with ctl := x0, servoUndo := x1, alloc := x2 } = look π s) (s : State) :
    look π (undoServo s) = look π s := by
  simp only [undoServo]; repeat' (first | (simp [h]; done) | split)

@[simp ↓] theorem releaseSet_only {α : Type} (π : State → α) (h : ∀ s x0, look π { s with ctl := x0 } = look π s) (s : State) :
    look π (releaseSet s) = look π s := by
  simp [releaseSet, h]

@[simp ↓] theorem sampleCapture_only {α : Type} (π : State → α) (h : ∀ s x0, look π { s with ctl := x0 } = look π s) (s : State) :
    look π (sampleCapture s) = look π s := by
  simp only [sampleCapture]; repeat' (first | (simp [h]; done) | split)

@[simp ↓] theorem stepPrbs_only {α : Type} (π : State → α) (h : ∀ s x0, look π { s with ctl := x0 } = look π s) (s : State) :
    look π (stepPrbs s) = look π s := by
  simp only [stepPrbs]; repeat' (first | (simp [h]; done) | split)

theorem execInjectionStart_only {α : Type} (π : State → α) (h : ∀ s x0 x1, look π { s with ctl := x0, alloc := x1 } = look π s) (s : State) (t : State) (he : execInjectionStart s = .next t) :
    look π t = look π s := by
  simp only [execInjectionStart, Host.Outcome.next.injEq] at he; subst he; repeat' (first | (simp [h]; done) | split)

theorem execInjectionEnd_only {α : Type} (π : State → α) (h : ∀ s x0 x1 x2, look π { s with ctl := x0, host := x1, log := x2 } = look π s) (s : State) (t : State) (he : execInjectionEnd s = .next t) :
    look π t = look π s := by
  simp only [execInjectionEnd, Host.Outcome.next.injEq] at he; subst he; repeat' (first | (simp [h]; done) | split)

theorem execCaptureDone_only {α : Type} (π : State → α) (h : ∀ s x0, look π { s with ctl := x0 } = look π s) (s : State) (t : State) (he : execCaptureDone s = .next t) :
    look π t = look π s := by
  simp only [execCaptureDone, Host.Outcome.next.injEq] at he; subst he; repeat' (first | (simp [h]; done) | split)

@[simp ↓] theorem injectStartSpec_only {α : Type} (π : State → α) (h : ∀ s x0 x1 x2, look π { s with ctl := x0, host := x1, log := x2 } = look π s) (k : Nat) (p : Packet) (s : State) :
    look π (injectStartSpec.run k p s).state = look π s := by
  unfold injectStartSpec; repeat' (first | (simp [h, fail]; done) | (refine (look_foldl π _ ?_ _ _).trans ?_) | split | intro _ | simp [takeNat, takeQty, h])

theorem execInjectStart_only {α : Type} (π : State → α) (h : ∀ s x0 x1 x2 x3 x4, look π { s with tt := x0, ctl := x1, cons := x2, host := x3, log := x4 } = look π s) (p : Packet) (s : State) (t : State) (he : execInjectStart p s = .next t) :
    look π t = look π s := by
  simp only [execInjectStart, Host.Outcome.next.injEq] at he; subst he; exact processPacket_only π _ _ _ (by simp [h]) (fun _ _ _ => by simp [h])

@[simp ↓] theorem applyInject_only {α : Type} (π : State → α) (h : ∀ s x0, look π { s with ctl := x0 } = look π s) (j : Inject) (s : State) :
    look π (applyInject j s) = look π s := by
  simp only [applyInject]; repeat' (first | (simp [h]; done) | split)

@[simp ↓] theorem captureReadSpec_only {α : Type} (π : State → α) (k : Nat) (p : Packet) (s : State) :
    look π (captureReadSpec.run k p s).state = look π s := by
  simp only [captureReadSpec, fail]; repeat' (first | (simp [fail]; done) | split)

theorem execCaptureRead_only {α : Type} (π : State → α) (h : ∀ s x0 x1 x2, look π { s with tt := x0, cons := x1, host := x2 } = look π s) (p : Packet) (s : State) (t : State) (he : execCaptureRead p s = .next t) :
    look π t = look π s := by
  simp only [execCaptureRead, Host.Outcome.next.injEq] at he; subst he; exact processPacket_only π _ _ _ (by simp [h]) (fun _ _ _ => by simp [h])

@[simp ↓] theorem loopBankWriteSpec_only {α : Type} (π : State → α) (h : ∀ s x0, look π { s with ctl := x0 } = look π s) (k : Nat) (p : Packet) (s : State) :
    look π (loopBankWriteSpec.run k p s).state = look π s := by
  simp only [loopBankWriteSpec, fail]; repeat' (first | (simp [h, fail]; done) | split)

theorem execLoopBankWrite_only {α : Type} (π : State → α) (h : ∀ s x0 x1 x2 x3, look π { s with tt := x0, ctl := x1, cons := x2, host := x3 } = look π s) (p : Packet) (s : State) (t : State) (he : execLoopBankWrite p s = .next t) :
    look π t = look π s := by
  simp only [execLoopBankWrite, Host.Outcome.next.injEq] at he; subst he; exact processPacket_only π _ _ _ (by simp [h]) (fun _ _ _ => by simp [h])

@[simp ↓] theorem loopBankSwapSpec_only {α : Type} (π : State → α) (h : ∀ s x0 x1, look π { s with ctl := x0, host := x1 } = look π s) (k : Nat) (p : Packet) (s : State) :
    look π (loopBankSwapSpec.run k p s).state = look π s := by
  simp only [loopBankSwapSpec, fail]; repeat' (first | (simp [h, fail]; done) | split)

theorem execLoopBankSwap_only {α : Type} (π : State → α) (h : ∀ s x0 x1 x2 x3, look π { s with tt := x0, ctl := x1, cons := x2, host := x3 } = look π s) (p : Packet) (s : State) (t : State) (he : execLoopBankSwap p s = .next t) :
    look π t = look π s := by
  simp only [execLoopBankSwap, Host.Outcome.next.injEq] at he; subst he; exact processPacket_only π _ _ _ (by simp [h]) (fun _ _ _ => by simp [h])

@[simp ↓] theorem applySwapAxes_only {α : Type} (π : State → α) (h : ∀ s x0, look π { s with ctl := x0 } = look π s) (s : State) :
    look π (applySwapAxes s) = look π s := by
  simp only [applySwapAxes]; repeat' (first | (simp [h]; done) | split)

theorem execLoopBankSwapApply_only {α : Type} (π : State → α) (h : ∀ s x0 x1 x2, look π { s with ctl := x0, servoUndo := x1, alloc := x2 } = look π s) (s : State) (t : State) (he : execLoopBankSwapApply s = .next t) :
    look π t = look π s := by
  simp only [execLoopBankSwapApply, Host.Outcome.next.injEq] at he; subst he; repeat' (first | (simp [h]; done) | split)


/-! ### Machine/Control.lean -/

@[simp ↓] theorem logFlags_only {α : Type} (π : State → α) (h : ∀ s x0 x1, look π { s with host := x0, log := x1 } = look π s) (before : Nat) (s : State) :
    look π (logFlags before s) = look π s := by
  simp [logFlags, h]

@[simp ↓] theorem tipStep_only {α : Type} (π : State → α) (h : ∀ s x0 x1 x2 x3, look π { s with ctl := x0, alloc := x1, host := x2, log := x3 } = look π s) (s : State) :
    look π (tipStep s) = look π s := by
  simp only [tipStep]; repeat' (first | (simp [h]; done) | split)

@[simp ↓] theorem refStep_only {α : Type} (π : State → α) (h : ∀ s x0, look π { s with set := x0 } = look π s) (s : State) :
    look π (refStep s) = look π s := by
  simp only [refStep]; repeat' (first | (simp [h]; done) | split)

@[simp ↓] theorem enterMode_only {α : Type} (π : State → α) (h : ∀ s x0, look π { s with set := x0 } = look π s) (m : DpMode) (body : Nat) (s : State) :
    look π (enterMode m body s) = look π s := by
  simp [enterMode, h]

@[simp ↓] theorem applyMode_only {α : Type} (π : State → α) (h : ∀ s x0 x1 x2 x3, look π { s with set := x0, ctl := x1, host := x2, log := x3 } = look π s) (m : DpMode) (body : Nat) (s : State) :
    look π (applyMode m body s) = look π s := by
  simp only [applyMode]; repeat' (first | (simp [h]; done) | split)

@[simp ↓] theorem setpointSetSpec_only {α : Type} (π : State → α) (h : ∀ s x0, look π { s with host := x0 } = look π s) (k : Nat) (p : Packet) (s : State) :
    look π (setpointSetSpec.run k p s).state = look π s := by
  simp only [setpointSetSpec, fail]; repeat' (first | (simp [h, fail]; done) | split)

theorem execSetpointSet_only {α : Type} (π : State → α) (h : ∀ s x0 x1 x2, look π { s with tt := x0, cons := x1, host := x2 } = look π s) (p : Packet) (s : State) (t : State) (he : execSetpointSet p s = .next t) :
    look π t = look π s := by
  simp only [execSetpointSet, Host.Outcome.next.injEq] at he; subst he; exact processPacket_only π _ _ _ (by simp [h]) (fun _ _ _ => by simp [h])

@[simp ↓] theorem applyTip_only {α : Type} (π : State → α) (h : ∀ s x0, look π { s with set := x0 } = look π s) (flags : Nat) (n e hd depth v r : Qty) (body : Nat) (s : State) :
    look π (applyTip flags n e hd depth v r body s) = look π s := by
  simp [applyTip, h]

@[simp ↓] theorem pulseMarks_only {α : Type} (π : State → α) (h : ∀ s x0, look π { s with ctl := x0 } = look π s) (s : State) :
    look π (pulseMarks s) = look π s := by
  simp [pulseMarks, h]

theorem execPeriodLost_only {α : Type} (π : State → α) (h : ∀ s x0 x1, look π { s with ctl := x0, log := x1 } = look π s) (axis : Nat) (s : State) (t : State) (he : execPeriodLost axis s = .next t) :
    look π t = look π s := by
  simp only [execPeriodLost, Host.Outcome.next.injEq] at he; subst he; repeat' (first | (simp [h]; done) | split)

@[simp ↓] theorem joyFaults_only {α : Type} (π : State → α) (h : ∀ s x0 x1 x2, look π { s with ctl := x0, host := x1, log := x2 } = look π s) (s : State) :
    look π (joyFaults s) = look π s := by
  simp only [joyFaults]; repeat' (first | (simp [h]; done) | (refine (look_foldl π _ ?_ _ _).trans ?_) | split | intro _ | simp [takeNat, takeQty, h])

@[simp ↓] theorem levelStep_only {α : Type} (π : State → α) (h : ∀ s x0, look π { s with ctl := x0 } = look π s) (s : State) :
    look π (levelStep s) = look π s := by
  simp only [levelStep]; repeat' (first | (simp [h]; done) | split)

@[simp ↓] theorem restartRef_only {α : Type} (π : State → α) (h : ∀ s x0, look π { s with set := x0 } = look π s) (s : State) :
    look π (restartRef s) = look π s := by
  simp only [restartRef]; repeat' (first | (simp [h]; done) | split)

@[simp ↓] theorem lawFrame_only {α : Type} (π : State → α) (h : ∀ s x0 x1 x2 x3 x4, look π { s with set := x0, ctl := x1, alloc := x2, host := x3, log := x4 } = look π s) (s : State) :
    look π (lawFrame s) = look π s := by
  simp [lawFrame, h]

theorem execControlLaw_only {α : Type} (π : State → α) (h : ∀ s x0 x1 x2 x3 x4 x5 x6 x7, look π { s with free := x0, tt := x1, set := x2, ctl := x3, servoUndo := x4, alloc := x5, host := x6, log := x7 } = look π s) (s : State) (t : State) (he : execControlLaw s = .next t) :
    look π t = look π s := by
  simp only [execControlLaw, Host.Outcome.next.injEq] at he; subst he; repeat' (first | (simp [h]; done) | split)

theorem execPositionTermsReturn_only {α : Type} (π : State → α) (h : ∀ s x0, look π { s with ctl := x0 } = look π s) (s : State) (t : State) (he : execPositionTermsReturn s = .next t) :
    look π t = look π s := by
  simp only [execPositionTermsReturn, Host.Outcome.next.injEq] at he; subst he; repeat' (first | (simp [h]; done) | split)

@[simp ↓] theorem applyRepetitive_only {α : Type} (π : State → α) (h : ∀ s x0, look π { s with ctl := x0 } = look π s) (axes action source : Nat) (period : Qty) (channel : Nat) (s : State) :
    look π (applyRepetitive axes action source period channel s) = look π s := by
  simp [applyRepetitive, h]

@[simp ↓] theorem repetitiveSpec_only {α : Type} (π : State → α) (h : ∀ s x0 x1, look π { s with ctl := x0, host := x1 } = look π s) (k : Nat) (p : Packet) (s : State) :
    look π (repetitiveSpec.run k p s).state = look π s := by
  simp only [repetitiveSpec, fail]; repeat' (first | (simp [h, fail]; done) | split)

theorem execRepetitiveCtrl_only {α : Type} (π : State → α) (h : ∀ s x0 x1 x2 x3, look π { s with tt := x0, ctl := x1, cons := x2, host := x3 } = look π s) (p : Packet) (s : State) (t : State) (he : execRepetitiveCtrl p s = .next t) :
    look π t = look π s := by
  simp only [execRepetitiveCtrl, Host.Outcome.next.injEq] at he; subst he; exact processPacket_only π _ _ _ (by simp [h]) (fun _ _ _ => by simp [h])


/-! ### Machine/Alloc.lean -/

@[simp ↓] theorem stepThrs_only {α : Type} (π : State → α) (h : ∀ s x0, look π { s with alloc := x0 } = look π s) (s : State) :
    look π (stepThrs s) = look π s := by
  simp [stepThrs, h]

@[simp ↓] theorem logThrs_only {α : Type} (π : State → α) (h : ∀ s x0 x1, look π { s with host := x0, log := x1 } = look π s) (before : List Thr) (s : State) :
    look π (logThrs before s) = look π s := by
  simp only [logThrs]; repeat' (first | (simp [h]; done) | (refine (look_foldl π _ ?_ _ _).trans ?_) | split | intro _ | simp [takeNat, takeQty, h])

@[simp ↓] theorem pickCones_only {α : Type} (π : State → α) (h : ∀ s x0, look π { s with alloc := x0 } = look π s) (s : State) :
    look π (pickCones s) = look π s := by
  simp only [pickCones]; repeat' (first | (simp [h]; done) | (refine (look_foldl π _ ?_ _ _).trans ?_) | split | intro _ | simp [takeNat, takeQty, h])

@[simp ↓] theorem setOutcome_only {α : Type} (π : State → α) (h : ∀ s x0 x1 x2, look π { s with alloc := x0, host := x1, log := x2 } = look π s) (o : Nat) (s : State) :
    look π (setOutcome o s) = look π s := by
  simp only [setOutcome]; repeat' (first | (simp [h]; done) | split)

@[simp ↓] theorem solveFrame_only {α : Type} (π : State → α) (h : ∀ s x0 x1 x2, look π { s with alloc := x0, host := x1, log := x2 } = look π s) (s : State) :
    look π (solveFrame s) = look π s := by
  simp [solveFrame, h]

@[simp ↓] theorem allocFrame_only {α : Type} (π : State → α) (h : ∀ s x0 x1 x2, look π { s with alloc := x0, host := x1, log := x2 } = look π s) (s : State) :
    look π (allocFrame s) = look π s := by
  simp only [allocFrame]; repeat' (first | (simp [h]; done) | split)

theorem execAllocation_only {α : Type} (π : State → α) (h : ∀ s x0 x1 x2 x3 x4 x5, look π { s with free := x0, tt := x1, servoUndo := x2, alloc := x3, host := x4, log := x5 } = look π s) (s : State) (t : State) (he : execAllocation s = .next t) :
    look π t = look π s := by
  simp only [execAllocation, Host.Outcome.next.injEq] at he; subst he; repeat' (first | (simp [h]; done) | split)

theorem execAllocFailing_only {α : Type} (π : State → α) (h : ∀ s x0 x1 x2, look π { s with alloc := x0, host := x1, log := x2 } = look π s) (s : State) (t : State) (he : execAllocFailing s = .next t) :
    look π t = look π s := by
  simp only [execAllocFailing, Host.Outcome.next.injEq] at he; subst he; repeat' (first | (simp [h]; done) | split)

theorem execDemandUnmet_only {α : Type} (π : State → α) (h : ∀ s x0 x1 x2, look π { s with alloc := x0, host := x1, log := x2 } = look π s) (set : Bool) (s : State) (t : State) (he : execDemandUnmet set s = .next t) :
    look π t = look π s := by
  simp only [execDemandUnmet, Host.Outcome.next.injEq] at he; subst he; repeat' (first | (simp [h]; done) | split)

theorem execTransitEntry_only {α : Type} (π : State → α) (h : ∀ s x0 x1 x2, look π { s with alloc := x0, host := x1, log := x2 } = look π s) (thruster sector : Nat) (s : State) (t : State) (he : execTransitEntry thruster sector s = .next t) :
    look π t = look π s := by
  simp only [execTransitEntry, Host.Outcome.next.injEq] at he; subst he; repeat' (first | (simp [h]; done) | split)

@[simp ↓] theorem projectAll_only {α : Type} (π : State → α) (h : ∀ s x0 x1, look π { s with free := x0, alloc := x1 } = look π s) (s : State) :
    look π (projectAll s) = look π s := by
  simp [projectAll, h]

@[simp ↓] theorem setRefs_only {α : Type} (π : State → α) (h : ∀ s x0 x1, look π { s with ctl := x0, alloc := x1 } = look π s) (s : State) :
    look π (setRefs s) = look π s := by
  simp only [setRefs]; repeat' (first | (simp [h]; done) | (refine (look_foldl π _ ?_ _ _).trans ?_) | split | intro _ | simp [takeNat, takeQty, h])

@[simp ↓] theorem outputFrame_only {α : Type} (π : State → α) (h : ∀ s x0 x1 x2 x3 x4, look π { s with free := x0, ctl := x1, alloc := x2, host := x3, log := x4 } = look π s) (s : State) :
    look π (outputFrame s) = look π s := by
  simp only [outputFrame]; repeat' (first | (simp [h]; done) | split)

theorem execOutputDistribution_only {α : Type} (π : State → α) (h : ∀ s x0 x1 x2 x3 x4 x5 x6, look π { s with free := x0, tt := x1, ctl := x2, servoUndo := x3, alloc := x4, host := x5, log := x6 } = look π s) (s : State) (t : State) (he : execOutputDistribution s = .next t) :
    look π t = look π s := by
  simp only [execOutputDistribution, Host.Outcome.next.injEq] at he; subst he; repeat' (first | (simp [h]; done) | split)

@[simp ↓] theorem allocStatusSpec_only {α : Type} (π : State → α) (k : Nat) (p : Packet) (s : State) :
    look π (allocStatusSpec.run k p s).state = look π s := by
  simp [allocStatusSpec, fail]

theorem execAllocStatus_only {α : Type} (π : State → α) (h : ∀ s x0 x1 x2, look π { s with tt := x0, cons := x1, host := x2 } = look π s) (p : Packet) (s : State) (t : State) (he : execAllocStatus p s = .next t) :
    look π t = look π s := by
  simp only [execAllocStatus, Host.Outcome.next.injEq] at he; subst he; exact processPacket_only π _ _ _ (by simp [h]) (fun _ _ _ => by simp [h])

@[simp ↓] theorem thrusterEnableSpec_only {α : Type} (π : State → α) (h : ∀ s x0, look π { s with host := x0 } = look π s) (k : Nat) (p : Packet) (s : State) :
    look π (thrusterEnableSpec.run k p s).state = look π s := by
  simp only [thrusterEnableSpec, fail]; repeat' (first | (simp [h, fail]; done) | split)

theorem execThrusterEnable_only {α : Type} (π : State → α) (h : ∀ s x0 x1 x2, look π { s with tt := x0, cons := x1, host := x2 } = look π s) (p : Packet) (s : State) (t : State) (he : execThrusterEnable p s = .next t) :
    look π t = look π s := by
  simp only [execThrusterEnable, Host.Outcome.next.injEq] at he; subst he; exact processPacket_only π _ _ _ (by simp [h]) (fun _ _ _ => by simp [h])

@[simp ↓] theorem thrusterDisableSpec_only {α : Type} (π : State → α) (h : ∀ s x0, look π { s with host := x0 } = look π s) (k : Nat) (p : Packet) (s : State) :
    look π (thrusterDisableSpec.run k p s).state = look π s := by
  simp only [thrusterDisableSpec, fail]; repeat' (first | (simp [h, fail]; done) | split)

theorem execThrusterDisable_only {α : Type} (π : State → α) (h : ∀ s x0 x1 x2, look π { s with tt := x0, cons := x1, host := x2 } = look π s) (p : Packet) (s : State) (t : State) (he : execThrusterDisable p s = .next t) :
    look π t = look π s := by
  simp only [execThrusterDisable, Host.Outcome.next.injEq] at he; subst he; exact processPacket_only π _ _ _ (by simp [h]) (fun _ _ _ => by simp [h])

@[simp ↓] theorem applyThrEnable_only {α : Type} (π : State → α) (h : ∀ s x0, look π { s with alloc := x0 } = look π s) (t : Nat) (s : State) :
    look π (applyThrEnable t s) = look π s := by
  simp [applyThrEnable, h]

@[simp ↓] theorem applyThrDisable_only {α : Type} (π : State → α) (h : ∀ s x0, look π { s with alloc := x0 } = look π s) (t : Nat) (force : Bool) (s : State) :
    look π (applyThrDisable t force s) = look π s := by
  simp [applyThrDisable, h]

@[simp ↓] theorem allocModeSpec_only {α : Type} (π : State → α) (h : ∀ s x0, look π { s with host := x0 } = look π s) (k : Nat) (p : Packet) (s : State) :
    look π (allocModeSpec.run k p s).state = look π s := by
  simp only [allocModeSpec, fail]; repeat' (first | (simp [h, fail]; done) | split)

theorem execAllocMode_only {α : Type} (π : State → α) (h : ∀ s x0 x1 x2, look π { s with tt := x0, cons := x1, host := x2 } = look π s) (p : Packet) (s : State) (t : State) (he : execAllocMode p s = .next t) :
    look π t = look π s := by
  simp only [execAllocMode, Host.Outcome.next.injEq] at he; subst he; exact processPacket_only π _ _ _ (by simp [h]) (fun _ _ _ => by simp [h])

@[simp ↓] theorem applyAllocMode_only {α : Type} (π : State → α) (h : ∀ s x0, look π { s with alloc := x0 } = look π s) (policy groups flags : Nat) (s : State) :
    look π (applyAllocMode policy groups flags s) = look π s := by
  simp [applyAllocMode, h]

@[simp ↓] theorem attachBodySetSpec_only {α : Type} (π : State → α) (h : ∀ s x0, look π { s with host := x0 } = look π s) (k : Nat) (p : Packet) (s : State) :
    look π (attachBodySetSpec.run k p s).state = look π s := by
  simp only [attachBodySetSpec, fail]; repeat' (first | (simp [h, fail]; done) | split)

theorem execAttachBodySet_only {α : Type} (π : State → α) (h : ∀ s x0 x1 x2, look π { s with tt := x0, cons := x1, host := x2 } = look π s) (p : Packet) (s : State) (t : State) (he : execAttachBodySet p s = .next t) :
    look π t = look π s := by
  simp only [execAttachBodySet, Host.Outcome.next.injEq] at he; subst he; exact processPacket_only π _ _ _ (by simp [h]) (fun _ _ _ => by simp [h])

@[simp ↓] theorem applyBody_only {α : Type} (π : State → α) (h : ∀ s x0, look π { s with alloc := x0 } = look π s) (b : Nat) (inUse : Bool) (ov : Nat) (vals : List Qty) (vTol : Qty) (s : State) :
    look π (applyBody b inUse ov vals vTol s) = look π s := by
  simp [applyBody, h]


/-! ### Machine/SignalBox.lean -/

@[simp ↓] theorem springAssert_only {α : Type} (π : State → α) (h : ∀ s x0 x1, look π { s with isl := x0, sb := x1 } = look π s) (s : State) :
    look π (springAssert s) = look π s := by
  simp [springAssert, h]

@[simp ↓] theorem sbRecord_only {α : Type} (π : State → α) (h : ∀ s x0, look π { s with sb := x0 } = look π s) (code : Nat) (data : List Byte) (s : State) :
    look π (sbRecord code data s) = look π s := by
  simp [sbRecord, h]

@[simp ↓] theorem dropProof_only {α : Type} (π : State → α) (h : ∀ s x0, look π { s with sb := x0 } = look π s) (s : State) :
    look π (dropProof s) = look π s := by
  simp only [dropProof]; repeat' (first | (simp [h]; done) | split)

@[simp ↓] theorem sbGoto_only {α : Type} (π : State → α) (h : ∀ s x0 x1, look π { s with isl := x0, sb := x1 } = look π s) (target : SbState) (cause : Nat) (s : State) :
    look π (sbGoto target cause s) = look π s := by
  simp only [sbGoto]; repeat' (first | (simp [h]; done) | split)

@[simp ↓] theorem proofStep_only {α : Type} (π : State → α) (h : ∀ s x0, look π { s with sb := x0 } = look π s) (s : State) :
    look π (proofStep s) = look π s := by
  simp only [proofStep]; repeat' (first | (simp [h]; done) | split)

@[simp ↓] theorem laterCauses_only {α : Type} (π : State → α) (h : ∀ s x0, look π { s with sb := x0 } = look π s) (cs : List Nat) (s : State) :
    look π (laterCauses cs s) = look π s := by
  simp only [laterCauses]; repeat' (first | (simp [h]; done) | (refine (look_foldl π _ ?_ _ _).trans ?_) | split | intro _ | simp [takeNat, takeQty, h])

@[simp ↓] theorem sbEval_only {α : Type} (π : State → α) (h : ∀ s x0 x1, look π { s with isl := x0, sb := x1 } = look π s) (prev : List Nat) (s : State) :
    look π (sbEval prev s) = look π s := by
  simp only [sbEval]; repeat' (first | (simp [h]; done) | split)

@[simp ↓] theorem sbFault_only {α : Type} (π : State → α) (h : ∀ s x0 x1, look π { s with isl := x0, sb := x1 } = look π s) (cause : Nat) (s : State) :
    look π (sbFault cause s) = look π s := by
  simp only [sbFault]; repeat' (first | (simp [h]; done) | split)

@[simp ↓] theorem yawWatch_only {α : Type} (π : State → α) (h : ∀ s x0 x1, look π { s with isl := x0, sb := x1 } = look π s) (s : State) (yaw : Option Qty) :
    look π (yawWatch s yaw) = look π s := by
  simp only [yawWatch]; repeat' (first | (simp [h]; done) | split)

@[simp ↓] theorem sbTick_only {α : Type} (π : State → α) (h : ∀ s x0 x1 x2 x3 x4 x5, look π { s with tt := x0, inp := x1, isl := x2, sb := x3, host := x4, log := x5 } = look π s) (s : State) (x : SbTickIn) :
    look π (sbTick s x) = look π s := by
  simp [sbTick, h]

theorem execSbCommandSet_only {α : Type} (π : State → α) (h : ∀ s x0 x1 x2 x3 x4 x5, look π { s with tt := x0, inp := x1, isl := x2, sb := x3, host := x4, log := x5 } = look π s) (x : SbTickIn) (s : State) (t : State) (he : execSbCommandSet x s = .next t) :
    look π t = look π s := by
  simp only [execSbCommandSet, Host.Outcome.next.injEq] at he; subst he; repeat' (first | (simp [h]; done) | split)

theorem execSbInternal_only {α : Type} (π : State → α) (h : ∀ s x0 x1, look π { s with isl := x0, sb := x1 } = look π s) (cause : SbFaultKind) (s : State) (t : State) (he : execSbInternal cause s = .next t) :
    look π t = look π s := by
  simp only [execSbInternal, Host.Outcome.next.injEq] at he; subst he; repeat' (first | (simp [h]; done) | split)

@[simp ↓] theorem rstChange_only {α : Type} (π : State → α) (h : ∀ s x0, look π { s with sb := x0 } = look π s) (high : Bool) (s : State) :
    look π (rstChange high s) = look π s := by
  simp only [rstChange]; repeat' (first | (simp [h]; done) | split)

theorem execSafetyInputChange_only {α : Type} (π : State → α) (h : ∀ s x0 x1, look π { s with isl := x0, sb := x1 } = look π s) (pin : SafetyPin) (closed : Bool) (s : State) (t : State) (he : execSafetyInputChange pin closed s = .next t) :
    look π t = look π s := by
  simp only [execSafetyInputChange, Host.Outcome.next.injEq] at he; subst he; repeat' (first | (simp [h]; done) | split)

theorem execDiscrepancy_only {α : Type} (π : State → α) (h : ∀ s x0 x1, look π { s with isl := x0, sb := x1 } = look π s) (pair : SafetyPair) (s : State) (t : State) (he : execDiscrepancy pair s = .next t) :
    look π t = look π s := by
  simp only [execDiscrepancy, Host.Outcome.next.injEq] at he; subst he; repeat' (first | (simp [h]; done) | split)

theorem execSafeContactTimeout_only {α : Type} (π : State → α) (h : ∀ s x0 x1, look π { s with isl := x0, sb := x1 } = look π s) (contactB : Bool) (s : State) (t : State) (he : execSafeContactTimeout contactB s = .next t) :
    look π t = look π s := by
  simp only [execSafeContactTimeout, Host.Outcome.next.injEq] at he; subst he; repeat' (first | (simp [h]; done) | split)

@[simp ↓] theorem contactsTested_only {α : Type} (π : State → α) (h : ∀ s x0 x1, look π { s with isl := x0, sb := x1 } = look π s) (s : State) :
    look π (contactsTested s) = look π s := by
  simp only [contactsTested]; repeat' (first | (simp [h]; done) | split)

theorem execYawRateStop_only {α : Type} (π : State → α) (h : ∀ s x0 x1, look π { s with isl := x0, sb := x1 } = look π s) (s : State) (t : State) (he : execYawRateStop s = .next t) :
    look π t = look π s := by
  simp only [execYawRateStop, Host.Outcome.next.injEq] at he; subst he; repeat' (first | (simp [h]; done) | split)

theorem execSbSelfTestEnd_only {α : Type} (π : State → α) (h : ∀ s x0 x1, look π { s with isl := x0, sb := x1 } = look π s) (passed openA openB : Bool) (s : State) (t : State) (he : execSbSelfTestEnd passed openA openB s = .next t) :
    look π t = look π s := by
  simp only [execSbSelfTestEnd, Host.Outcome.next.injEq] at he; subst he; repeat' (first | (simp [h]; done) | split)

theorem execProofDue_only {α : Type} (π : State → α) (h : ∀ s x0, look π { s with sb := x0 } = look π s) (s : State) (t : State) (he : execProofDue s = .next t) :
    look π t = look π s := by
  simp only [execProofDue, Host.Outcome.next.injEq] at he; subst he; repeat' (first | (simp [h]; done) | split)

theorem execResetPulse_only {α : Type} (π : State → α) (h : ∀ s x0 x1 x2 x3, look π { s with isl := x0, sb := x1, host := x2, log := x3 } = look π s) (s : State) (t : State) (he : execResetPulse s = .next t) :
    look π t = look π s := by
  simp only [execResetPulse, Host.Outcome.next.injEq] at he; subst he; repeat' (first | (simp [h]; done) | split)

theorem execRstStuck_only {α : Type} (π : State → α) (h : ∀ s x0, look π { s with sb := x0 } = look π s) (s : State) (t : State) (he : execRstStuck s = .next t) :
    look π t = look π s := by
  simp only [execRstStuck, Host.Outcome.next.injEq] at he; subst he; repeat' (first | (simp [h]; done) | split)

theorem execRstStuckClear_only {α : Type} (π : State → α) (h : ∀ s x0, look π { s with sb := x0 } = look π s) (s : State) (t : State) (he : execRstStuckClear s = .next t) :
    look π t = look π s := by
  simp only [execRstStuckClear, Host.Outcome.next.injEq] at he; subst he; repeat' (first | (simp [h]; done) | split)

theorem execSpringbokRelease_only {α : Type} (π : State → α) (h : ∀ s x0, look π { s with sb := x0 } = look π s) (s : State) (t : State) (he : execSpringbokRelease s = .next t) :
    look π t = look π s := by
  simp only [execSpringbokRelease, Host.Outcome.next.injEq] at he; subst he; repeat' (first | (simp [h]; done) | split)

theorem execSpringbokTest_only {α : Type} (π : State → α) (h : ∀ s x0, look π { s with sb := x0 } = look π s) (seenA seenB : Bool) (s : State) (t : State) (he : execSpringbokTest seenA seenB s = .next t) :
    look π t = look π s := by
  simp only [execSpringbokTest, Host.Outcome.next.injEq] at he; subst he; repeat' (first | (simp [h]; done) | split)

@[simp ↓] theorem sbStrobe_only {α : Type} (π : State → α) (h : ∀ s x0 x1 x2 x3, look π { s with isl := x0, sb := x1, host := x2, log := x3 } = look π s) (s : State) :
    look π (sbStrobe s) = look π s := by
  simp only [sbStrobe]; repeat' (first | (simp [h]; done) | (refine (look_foldl π _ ?_ _ _).trans ?_) | split | intro _ | simp [takeNat, takeQty, h])

@[simp ↓] theorem safetyStatusSpec_only {α : Type} (π : State → α) (k : Nat) (p : Packet) (s : State) :
    look π (safetyStatusSpec.run k p s).state = look π s := by
  simp [safetyStatusSpec, fail]

theorem execSafetyStatus_only {α : Type} (π : State → α) (h : ∀ s x0 x1 x2, look π { s with tt := x0, cons := x1, host := x2 } = look π s) (p : Packet) (s : State) (t : State) (he : execSafetyStatus p s = .next t) :
    look π t = look π s := by
  simp only [execSafetyStatus, Host.Outcome.next.injEq] at he; subst he; exact processPacket_only π _ _ _ (by simp [h]) (fun _ _ _ => by simp [h])

@[simp ↓] theorem safetyLimitsGetSpec_only {α : Type} (π : State → α) (k : Nat) (p : Packet) (s : State) :
    look π (safetyLimitsGetSpec.run k p s).state = look π s := by
  simp only [safetyLimitsGetSpec, fail]; repeat' (first | (simp [fail]; done) | split)

theorem execSafetyLimitsGet_only {α : Type} (π : State → α) (h : ∀ s x0 x1 x2, look π { s with tt := x0, cons := x1, host := x2 } = look π s) (p : Packet) (s : State) (t : State) (he : execSafetyLimitsGet p s = .next t) :
    look π t = look π s := by
  simp only [execSafetyLimitsGet, Host.Outcome.next.injEq] at he; subst he; exact processPacket_only π _ _ _ (by simp [h]) (fun _ _ _ => by simp [h])

@[simp ↓] theorem proofStatusSpec_only {α : Type} (π : State → α) (k : Nat) (p : Packet) (s : State) :
    look π (proofStatusSpec.run k p s).state = look π s := by
  simp [proofStatusSpec, fail]

theorem execProofStatus_only {α : Type} (π : State → α) (h : ∀ s x0 x1 x2, look π { s with tt := x0, cons := x1, host := x2 } = look π s) (p : Packet) (s : State) (t : State) (he : execProofStatus p s = .next t) :
    look π t = look π s := by
  simp only [execProofStatus, Host.Outcome.next.injEq] at he; subst he; exact processPacket_only π _ _ _ (by simp [h]) (fun _ _ _ => by simp [h])

end Sys2Proof.Machine
end

