-- ==== Sys2Proof/Laws/FrameConsist.lean ====
section
/-! SUPPORT. The GNSS receiver, the lanes and the consist: what each operation leaves alone. A lemma `f_only` says that an
observation of the state which is blind to the parts named in its hypothesis is the same after `f` as before it. -/

set_option maxRecDepth 20000
set_option linter.unusedSimpArgs false
set_option linter.unusedVariables false
set_option linter.unusedTactic false
set_option linter.unreachableTactic false

namespace Sys2Proof.Machine

/-! ### Machine/Gnss.lean -/

theorem execChannelStateChange_only {α : Type} (π : State → α) (h : ∀ s x0, look π { s with gnss := x0 } = look π s) (channel : Nat) (ev : TrackEvent) (s : State) (t : State) (he : execChannelStateChange channel ev s = .next t) :
    look π t = look π s := by
  simp only [execChannelStateChange, Host.Outcome.next.injEq] at he; subst he; repeat' (first | (simp [h]; done) | split)

@[simp ↓] theorem setGnssFlag_only {α : Type} (π : State → α) (h : ∀ s x0 x1 x2, look π { s with gnss := x0, host := x1, log := x2 } = look π s) (b : Nat) (s : State) :
    look π (setGnssFlag b s) = look π s := by
  simp only [setGnssFlag]; repeat' (first | (simp [h]; done) | split)

@[simp ↓] theorem clearGnssFlag_only {α : Type} (π : State → α) (h : ∀ s x0 x1 x2, look π { s with gnss := x0, host := x1, log := x2 } = look π s) (b : Nat) (s : State) :
    look π (clearGnssFlag b s) = look π s := by
  simp only [clearGnssFlag]; repeat' (first | (simp [h]; done) | split)

@[simp ↓] theorem noteCond_only {α : Type} (π : State → α) (h : ∀ s x0, look π { s with gnss := x0 } = look π s) (b : Nat) (present : Bool) (s : State) :
    look π (noteCond b present s) = look π s := by
  simp [noteCond, h]

@[simp ↓] theorem flagNow_only {α : Type} (π : State → α) (h : ∀ s x0 x1 x2, look π { s with gnss := x0, host := x1, log := x2 } = look π s) (b : Nat) (c : Bool) (s : State) :
    look π (flagNow b c s) = look π s := by
  simp only [flagNow]; repeat' (first | (simp [h]; done) | split)

@[simp ↓] theorem clearLatched_only {α : Type} (π : State → α) (h : ∀ s x0 x1 x2, look π { s with gnss := x0, host := x1, log := x2 } = look π s) (b : Nat) (s : State) :
    look π (clearLatched b s) = look π s := by
  simp only [clearLatched]; repeat' (first | (simp [h]; done) | split)

@[simp ↓] theorem flagExcluded_only {α : Type} (π : State → α) (h : ∀ s x0 x1 x2, look π { s with gnss := x0, host := x1, log := x2 } = look π s) (w : EpochWork) (s : State) :
    look π (flagExcluded w s) = look π s := by
  simp only [flagExcluded]; repeat' (first | (simp [h]; done) | split)

@[simp ↓] theorem flagClock_only {α : Type} (π : State → α) (h : ∀ s x0 x1 x2, look π { s with gnss := x0, host := x1, log := x2 } = look π s) (w : EpochWork) (s : State) :
    look π (flagClock w s) = look π s := by
  simp only [flagClock]; repeat' (first | (simp [h]; done) | split)

@[simp ↓] theorem flagIono_only {α : Type} (π : State → α) (h : ∀ s x0 x1 x2, look π { s with gnss := x0, host := x1, log := x2 } = look π s) (w : EpochWork) (s : State) :
    look π (flagIono w s) = look π s := by
  simp only [flagIono]; repeat' (first | (simp [h]; done) | split)

@[simp ↓] theorem flagsRange_only {α : Type} (π : State → α) (h : ∀ s x0 x1 x2, look π { s with gnss := x0, host := x1, log := x2 } = look π s) (w : EpochWork) (s : State) :
    look π (flagsRange w s) = look π s := by
  simp [flagsRange, h]

@[simp ↓] theorem flagsSpread_only {α : Type} (π : State → α) (h : ∀ s x0 x1 x2, look π { s with gnss := x0, host := x1, log := x2 } = look π s) (w : EpochWork) (s : State) :
    look π (flagsSpread w s) = look π s := by
  simp only [flagsSpread]; repeat' (first | (simp [h]; done) | split)

@[simp ↓] theorem flagsEven_only {α : Type} (π : State → α) (h : ∀ s x0 x1 x2, look π { s with gnss := x0, host := x1, log := x2 } = look π s) (w : EpochWork) (s : State) :
    look π (flagsEven w s) = look π s := by
  simp only [flagsEven]; repeat' (first | (simp [h]; done) | split)

@[simp ↓] theorem flagsGain_only {α : Type} (π : State → α) (h : ∀ s x0 x1 x2, look π { s with gnss := x0, host := x1, log := x2 } = look π s) (e : EpochIn) (w : EpochWork) (s : State) :
    look π (flagsGain e w s) = look π s := by
  simp only [flagsGain]; repeat' (first | (simp [h]; done) | split)

@[simp ↓] theorem flagsSpoof_only {α : Type} (π : State → α) (h : ∀ s x0 x1 x2, look π { s with gnss := x0, host := x1, log := x2 } = look π s) (e : EpochIn) (w : EpochWork) (s : State) :
    look π (flagsSpoof e w s) = look π s := by
  simp [flagsSpoof, h]

@[simp ↓] theorem fixBaseline_only {α : Type} (π : State → α) (h : ∀ s x0, look π { s with gnss := x0 } = look π s) (w : EpochWork) (s : State) :
    look π (fixBaseline w s) = look π s := by
  simp [fixBaseline, h]

@[simp ↓] theorem flagsRest_only {α : Type} (π : State → α) (h : ∀ s x0 x1 x2, look π { s with gnss := x0, host := x1, log := x2 } = look π s) (w : EpochWork) (s : State) :
    look π (flagsRest w s) = look π s := by
  simp only [flagsRest]; repeat' (first | (simp [h]; done) | split)

@[simp ↓] theorem abandonRaw_only {α : Type} (π : State → α) (h : ∀ s x0 x1 x2, look π { s with tt := x0, gnss := x1, host := x2 } = look π s) (port : Nat) (s : State) :
    look π (abandonRaw port s) = look π s := by
  simp only [abandonRaw]; repeat' (first | (simp [h]; done) | split)

@[simp ↓] theorem rawOutput_only {α : Type} (π : State → α) (h : ∀ s x0 x1 x2 x3, look π { s with tt := x0, gnss := x1, cons := x2, host := x3 } = look π s) (r : EpochRes) (s : State) :
    look π (rawOutput r s) = look π s := by
  simp only [rawOutput]; repeat' (first | (simp [h]; done) | (refine (look_foldl π _ ?_ _ _).trans ?_) | split | intro _ | simp [takeNat, takeQty, h])

@[simp ↓] theorem leapAdded_only {α : Type} (π : State → α) (h : ∀ s x0 x1 x2, look π { s with time := x0, host := x1, log := x2 } = look π s) (l : Option (Nat × Int)) (s : State) :
    look π (leapAdded l s) = look π s := by
  simp only [leapAdded]; repeat' (first | (simp [h]; done) | split)

@[simp ↓] theorem epochTime_only {α : Type} (π : State → α) (h : ∀ s x0 x1 x2 x3, look π { s with time := x0, gnss := x1, host := x2, log := x3 } = look π s) (w : EpochWork) (s : State) :
    look π (epochTime w s) = look π s := by
  simp only [epochTime]; repeat' (first | (simp [h]; done) | split)

@[simp ↓] theorem noteDual_only {α : Type} (π : State → α) (h : ∀ s x0, look π { s with gnss := x0 } = look π s) (w : EpochWork) (s : State) :
    look π (noteDual w s) = look π s := by
  simp [noteDual, h]

@[simp ↓] theorem keepNav_only {α : Type} (π : State → α) (h : ∀ s x0, look π { s with gnss := x0 } = look π s) (b : List Byte) (s : State) :
    look π (keepNav b s) = look π s := by
  simp [keepNav, h]

@[simp ↓] theorem settleEpoch_only {α : Type} (π : State → α) (h : ∀ s x0, look π { s with gnss := x0 } = look π s) (e : EpochIn) (w : EpochWork) (s : State) :
    look π (settleEpoch e w s) = look π s := by
  simp [settleEpoch, h]

@[simp ↓] theorem takeEpoch_only {α : Type} (π : State → α) (h : ∀ s x0 x1 x2 x3 x4 x5 x6, look π { s with time := x0, tt := x1, inp := x2, gnss := x3, cons := x4, host := x5, log := x6 } = look π s) (e : EpochIn) (s : State) :
    look π (takeEpoch e s) = look π s := by
  simp only [takeEpoch]; repeat' (first | (simp [h]; done) | (refine (look_foldl π _ ?_ _ _).trans ?_) | split | intro _ | simp [takeNat, takeQty, h])

@[simp ↓] theorem enterGnssMode_only {α : Type} (π : State → α) (h : ∀ s x0, look π { s with gnss := x0 } = look π s) (m : Nat) (s : State) :
    look π (enterGnssMode m s) = look π s := by
  simp only [enterGnssMode]; repeat' (first | (simp [h]; done) | split)

@[simp ↓] theorem takeMode_only {α : Type} (π : State → α) (h : ∀ s x0 x1 x2, look π { s with gnss := x0, host := x1, log := x2 } = look π s) (s : State) :
    look π (takeMode s) = look π s := by
  simp only [takeMode]; repeat' (first | (simp [h]; done) | split)

theorem execGnssEpoch_only {α : Type} (π : State → α) (h : ∀ s x0 x1 x2 x3 x4 x5 x6, look π { s with time := x0, tt := x1, inp := x2, gnss := x3, cons := x4, host := x5, log := x6 } = look π s) (e : EpochIn) (s : State) (t : State) (he : execGnssEpoch e s = .next t) :
    look π t = look π s := by
  simp only [execGnssEpoch, Host.Outcome.next.injEq] at he; subst he; repeat' (first | (simp [h]; done) | split)

theorem execEpochBlockTimeout_only {α : Type} (π : State → α) (h : ∀ s x0 x1, look π { s with gnss := x0, ref := x1 } = look π s) (s : State) (t : State) (he : execEpochBlockTimeout s = .next t) :
    look π t = look π s := by
  simp only [execEpochBlockTimeout, Host.Outcome.next.injEq] at he; subst he
  refine look_ite ((look_foldl π _ (fun s x => ?_) _ _).trans (by simp [h])) rfl
  split
  · split <;> simp [h]
  · rfl

theorem execModeFallback_only {α : Type} (π : State → α) (h : ∀ s x0, look π { s with gnss := x0 } = look π s) (s : State) (t : State) (he : execModeFallback s = .next t) :
    look π t = look π s := by
  simp only [execModeFallback, Host.Outcome.next.injEq] at he; subst he; repeat' (first | (simp [h]; done) | split)

theorem execModeReturn_only {α : Type} (π : State → α) (h : ∀ s x0, look π { s with gnss := x0 } = look π s) (s : State) (t : State) (he : execModeReturn s = .next t) :
    look π t = look π s := by
  simp only [execModeReturn, Host.Outcome.next.injEq] at he; subst he; repeat' (first | (simp [h]; done) | split)

@[simp ↓] theorem keepCorr_only {α : Type} (π : State → α) (h : ∀ s x0, look π { s with gnss := x0 } = look π s) (kinds : List Nat) (n : Nat) (pay : List Byte) (s : State) :
    look π (keepCorr kinds n pay s) = look π s := by
  simp [keepCorr, h]

@[simp ↓] theorem useMessage_only {α : Type} (π : State → α) (h : ∀ s x0, look π { s with gnss := x0 } = look π s) (n : Nat) (pay : List Byte) (s : State) :
    look π (useMessage n pay s) = look π s := by
  simp only [useMessage]; repeat' (first | (simp [h]; done) | split)

@[simp ↓] theorem rtcmFrame_only {α : Type} (π : State → α) (h : ∀ s x0, look π { s with gnss := x0 } = look π s) (bs : List Byte) (s : State) :
    look π (rtcmFrame bs s) = look π s := by
  simp only [rtcmFrame]; repeat' (first | (simp [h]; done) | split)

theorem execRtcmFrame_only {α : Type} (π : State → α) (h : ∀ s x0, look π { s with gnss := x0 } = look π s) (bytes : List Byte) (s : State) (t : State) (he : execRtcmFrame bytes s = .next t) :
    look π t = look π s := by
  simp only [execRtcmFrame, Host.Outcome.next.injEq] at he; subst he; repeat' (first | (simp [h]; done) | split)

@[simp ↓] theorem sendNav_only {α : Type} (π : State → α) (h : ∀ s x0 x1 x2 x3, look π { s with tt := x0, gnss := x1, cons := x2, host := x3 } = look π s) (s : State) :
    look π (sendNav s) = look π s := by
  simp only [sendNav]; repeat' (first | (simp [h]; done) | split)

@[simp ↓] theorem noteAntenna_only {α : Type} (π : State → α) (h : ∀ s x0, look π { s with gnss := x0 } = look π s) (i microamps : Nat) (atLimit : Bool) (s : State) :
    look π (noteAntenna i microamps atLimit s) = look π s := by
  simp [noteAntenna, h]

theorem execAntennaFaultDetect_only {α : Type} (π : State → α) (h : ∀ s x0 x1 x2, look π { s with gnss := x0, host := x1, log := x2 } = look π s) (antenna : Nat) (x : AntennaIn) (s : State) (t : State) (he : execAntennaFaultDetect antenna x s = .next t) :
    look π t = look π s := by
  simp only [execAntennaFaultDetect, Host.Outcome.next.injEq] at he; subst he; repeat' (first | (simp [h]; done) | split)

theorem execAntennaRetry_only {α : Type} (π : State → α) (h : ∀ s x0, look π { s with gnss := x0 } = look π s) (antenna : Nat) (normal : Bool) (s : State) (t : State) (he : execAntennaRetry antenna normal s = .next t) :
    look π t = look π s := by
  simp only [execAntennaRetry, Host.Outcome.next.injEq] at he; subst he; repeat' (first | (simp [h]; done) | split)

theorem execSnapshotCapture_only {α : Type} (π : State → α) (h : ∀ s x0, look π { s with gnss := x0 } = look π s) (c : CaptureIn) (s : State) (t : State) (he : execSnapshotCapture c s = .next t) :
    look π t = look π s := by
  simp only [execSnapshotCapture, Host.Outcome.next.injEq] at he; subst he; repeat' (first | (simp [h]; done) | split)

theorem execHotfixComplete_only {α : Type} (π : State → α) (h : ∀ s x0 x1 x2 x3 x4, look π { s with tt := x0, inp := x1, gnss := x2, host := x3, log := x4 } = look π s) (hq : HotfixIn) (s : State) (t : State) (he : execHotfixComplete hq s = .next t) :
    look π t = look π s := by
  simp only [execHotfixComplete, Host.Outcome.next.injEq] at he; subst he
  split
  · rfl
  · split
    · simp [h]
    · refine look_ite ?_ ?_
      · rw [addRecord_only π (by simp [h])]; simp [h]
      · simp [h]

@[simp ↓] theorem deliverHotfix_only {α : Type} (π : State → α) (h : ∀ s x0 x1, look π { s with inp := x0, gnss := x1 } = look π s) (s : State) :
    look π (deliverHotfix s) = look π s := by
  simp only [deliverHotfix]; repeat' (first | (simp [h]; done) | split)

@[simp ↓] theorem startHotfix_only {α : Type} (π : State → α) (h : ∀ s x0, look π { s with gnss := x0 } = look π s) (s : State) :
    look π (startHotfix s) = look π s := by
  simp [startHotfix, h]

@[simp ↓] theorem gnssLayover_only {α : Type} (π : State → α) (h : ∀ s x0, look π { s with gnss := x0 } = look π s) (s : State) :
    look π (gnssLayover s) = look π s := by
  simp [gnssLayover, h]

@[simp ↓] theorem gnssSettings_only {α : Type} (π : State → α) (h : ∀ s x0, look π { s with gnss := x0 } = look π s) (g : ImageGnss) (s : State) :
    look π (gnssSettings g s) = look π s := by
  simp [gnssSettings, h]

@[simp ↓] theorem gnssFromImage_only {α : Type} (π : State → α) (h : ∀ s x0, look π { s with gnss := x0 } = look π s) (s : State) :
    look π (gnssFromImage s) = look π s := by
  simp only [gnssFromImage]; repeat' (first | (simp [h]; done) | split)

@[simp ↓] theorem gnssBoot_only {α : Type} (π : State → α) (h : ∀ s x0 x1 x2, look π { s with gnss := x0, host := x1, log := x2 } = look π s) (s : State) :
    look π (gnssBoot s) = look π s := by
  simp only [gnssBoot]; repeat' (first | (simp [h]; done) | split)

@[simp ↓] theorem gnssStatusSpec_only {α : Type} (π : State → α) (k : Nat) (p : Packet) (s : State) :
    look π (gnssStatusSpec.run k p s).state = look π s := by
  simp [gnssStatusSpec, fail]

theorem execGnssStatus_only {α : Type} (π : State → α) (h : ∀ s x0 x1 x2, look π { s with tt := x0, cons := x1, host := x2 } = look π s) (p : Packet) (s : State) (t : State) (he : execGnssStatus p s = .next t) :
    look π t = look π s := by
  simp only [execGnssStatus, Host.Outcome.next.injEq] at he; subst he; exact processPacket_only π _ _ _ (by simp [h]) (fun _ _ _ => by simp [h])

@[simp ↓] theorem gnssRawSpec_only {α : Type} (π : State → α) (k : Nat) (p : Packet) (s : State) :
    look π (gnssRawSpec.run k p s).state = look π s := by
  simp only [gnssRawSpec, fail]; repeat' (first | (simp [fail]; done) | split)

theorem execGnssRaw_only {α : Type} (π : State → α) (h : ∀ s x0 x1 x2, look π { s with tt := x0, cons := x1, host := x2 } = look π s) (p : Packet) (s : State) (t : State) (he : execGnssRaw p s = .next t) :
    look π t = look π s := by
  simp only [execGnssRaw, Host.Outcome.next.injEq] at he; subst he; exact processPacket_only π _ _ _ (by simp [h]) (fun _ _ _ => by simp [h])

@[simp ↓] theorem gnssCorrectionsSpec_only {α : Type} (π : State → α) (h : ∀ s x0, look π { s with gnss := x0 } = look π s) (k : Nat) (p : Packet) (s : State) :
    look π (gnssCorrectionsSpec.run k p s).state = look π s := by
  simp only [gnssCorrectionsSpec, fail]; repeat' (first | (simp [h, fail]; done) | (refine (look_foldl π _ ?_ _ _).trans ?_) | split | intro _ | simp [takeNat, takeQty, h])

theorem execGnssCorrections_only {α : Type} (π : State → α) (h : ∀ s x0 x1 x2 x3, look π { s with tt := x0, gnss := x1, cons := x2, host := x3 } = look π s) (p : Packet) (s : State) (t : State) (he : execGnssCorrections p s = .next t) :
    look π t = look π s := by
  simp only [execGnssCorrections, Host.Outcome.next.injEq] at he; subst he; exact processPacket_only π _ _ _ (by simp [h]) (fun _ _ _ => by simp [h])

@[simp ↓] theorem gnssModeSpec_only {α : Type} (π : State → α) (h : ∀ s x0, look π { s with host := x0 } = look π s) (k : Nat) (p : Packet) (s : State) :
    look π (gnssModeSpec.run k p s).state = look π s := by
  simp only [gnssModeSpec, fail]; repeat' (first | (simp [h, fail]; done) | split)

theorem execGnssMode_only {α : Type} (π : State → α) (h : ∀ s x0 x1 x2, look π { s with tt := x0, cons := x1, host := x2 } = look π s) (p : Packet) (s : State) (t : State) (he : execGnssMode p s = .next t) :
    look π t = look π s := by
  simp only [execGnssMode, Host.Outcome.next.injEq] at he; subst he; exact processPacket_only π _ _ _ (by simp [h]) (fun _ _ _ => by simp [h])

@[simp ↓] theorem rateAtBoundary_only {α : Type} (π : State → α) (h : ∀ s x0, look π { s with gnss := x0 } = look π s) (s : State) :
    look π (rateAtBoundary s) = look π s := by
  simp only [rateAtBoundary]; repeat' (first | (simp [h]; done) | split)

@[simp ↓] theorem applyGnssMode_only {α : Type} (π : State → α) (h : ∀ s x0, look π { s with gnss := x0 } = look π s) (mode solMax rate mask flags : Nat) (s : State) :
    look π (applyGnssMode mode solMax rate mask flags s) = look π s := by
  simp only [applyGnssMode]; repeat' (first | (simp [h]; done) | split)

@[simp ↓] theorem integrityReportSpec_only {α : Type} (π : State → α) (k : Nat) (p : Packet) (s : State) :
    look π (integrityReportSpec.run k p s).state = look π s := by
  simp [integrityReportSpec, fail]

theorem execIntegrityReport_only {α : Type} (π : State → α) (h : ∀ s x0 x1 x2, look π { s with tt := x0, cons := x1, host := x2 } = look π s) (p : Packet) (s : State) (t : State) (he : execIntegrityReport p s = .next t) :
    look π t = look π s := by
  simp only [execIntegrityReport, Host.Outcome.next.injEq] at he; subst he; exact processPacket_only π _ _ _ (by simp [h]) (fun _ _ _ => by simp [h])


/-! ### Machine/Lanes.lean -/

@[simp ↓] theorem onVoting_only {α : Type} (π : State → α) (h : ∀ s x0, look π { s with host := x0 } = look π s) (id : Nat) (f : Voting → Voting) (s : State) :
    look π (onVoting id f s) = look π s := by
  simp [onVoting, h]

@[simp ↓] theorem dropVoting_only {α : Type} (π : State → α) (h : ∀ s x0, look π { s with host := x0 } = look π s) (id : Nat) (s : State) :
    look π (dropVoting id s) = look π s := by
  simp [dropVoting, h]

@[simp ↓] theorem chargeEgressErr_only {α : Type} (π : State → α) (h : ∀ s x0 x1 x2 x3 x4 x5 x6, look π { s with tt := x0, inp := x1, lanes := x2, cons := x3, host := x4, log := x5, pow := x6 } = look π s) (l : Lane) (s : State) :
    look π (chargeEgressErr l s) = look π s := by
  simp only [chargeEgressErr]; repeat' (first | (simp [h]; done) | split)

@[simp ↓] theorem judgeEgress_only {α : Type} (π : State → α) (h : ∀ s x0 x1 x2 x3 x4 x5 x6 x7, look π { s with tt := x0, inp := x1, gnss := x2, lanes := x3, cons := x4, host := x5, log := x6, pow := x7 } = look π s) (v : Voting) (s : State) :
    look π (judgeEgress v s) = look π s := by
  simp only [judgeEgress]; repeat' (first | (simp [h]; done) | (refine (look_foldl π _ ?_ _ _).trans ?_) | split | intro _ | simp [takeNat, takeQty, h])

theorem execEgressCopy_only {α : Type} (π : State → α) (h : ∀ s x0 x1 x2 x3 x4 x5 x6 x7, look π { s with tt := x0, inp := x1, gnss := x2, lanes := x3, cons := x4, host := x5, log := x6, pow := x7 } = look π s) (lane : Lane) (id : Nat) (err : Nat) (s : State) (t : State) (he : execEgressCopy lane id err s = .next t) :
    look π t = look π s := by
  simp only [execEgressCopy, Host.Outcome.next.injEq] at he; subst he; repeat' (first | (simp [h]; done) | split)

theorem execEgressTimeout_only {α : Type} (π : State → α) (h : ∀ s x0 x1 x2 x3 x4 x5 x6 x7, look π { s with tt := x0, inp := x1, gnss := x2, lanes := x3, cons := x4, host := x5, log := x6, pow := x7 } = look π s) (id : Nat) (s : State) (t : State) (he : execEgressTimeout id s = .next t) :
    look π t = look π s := by
  simp only [execEgressTimeout, Host.Outcome.next.injEq] at he; subst he; repeat' (first | (simp [h]; done) | (refine (look_foldl π _ ?_ _ _).trans ?_) | split | intro _ | simp [takeNat, takeQty, h])

@[simp ↓] theorem beginReint_only {α : Type} (π : State → α) (h : ∀ s x0, look π { s with lanes := x0 } = look π s) (l : Lane) (s : State) :
    look π (beginReint l s) = look π s := by
  simp [beginReint, h]

theorem execReintegrationStart_only {α : Type} (π : State → α) (h : ∀ s x0, look π { s with lanes := x0 } = look π s) (lane : Lane) (s : State) (t : State) (he : execReintegrationStart lane s = .next t) :
    look π t = look π s := by
  simp only [execReintegrationStart, Host.Outcome.next.injEq] at he; subst he; repeat' (first | (simp [h]; done) | split)

theorem execLaneEnterService_only {α : Type} (π : State → α) (h : ∀ s x0 x1 x2, look π { s with lanes := x0, host := x1, log := x2 } = look π s) (lane : Lane) (s : State) (t : State) (he : execLaneEnterService lane s = .next t) :
    look π t = look π s := by
  simp only [execLaneEnterService, Host.Outcome.next.injEq] at he; subst he; repeat' (first | (simp [h]; done) | split)

theorem execLaneMonitorFault_only {α : Type} (π : State → α) (h : ∀ s x0 x1 x2 x3 x4 x5 x6, look π { s with tt := x0, inp := x1, lanes := x2, cons := x3, host := x4, log := x5, pow := x6 } = look π s) (lane : Lane) (supply : Bool) (s : State) (t : State) (he : execLaneMonitorFault lane supply s = .next t) :
    look π t = look π s := by
  simp only [execLaneMonitorFault, Host.Outcome.next.injEq] at he; subst he; repeat' (first | (simp [h]; done) | split)

theorem execTickStrobeMissing_only {α : Type} (π : State → α) (h : ∀ s x0 x1 x2 x3 x4, look π { s with lanes := x0, cons := x1, host := x2, log := x3, pow := x4 } = look π s) (s : State) (t : State) (he : execTickStrobeMissing s = .next t) :
    look π t = look π s := by
  simp only [execTickStrobeMissing, Host.Outcome.next.injEq] at he; subst he; repeat' (first | (simp [h]; done) | split)

@[simp ↓] theorem setBlock_only {α : Type} (π : State → α) (h : ∀ s x0, look π { s with jx := x0 } = look π s) (b : BlockFault) (s : State) :
    look π (setBlock b s) = look π s := by
  simp [setBlock, h]

@[simp ↓] theorem scrubFound_only {α : Type} (π : State → α) (h : ∀ s x0 x1 x2 x3 x4 x5, look π { s with lanes := x0, jx := x1, cons := x2, host := x3, log := x4, pow := x5 } = look π s) (err : ScrubFind) (s : State) :
    look π (scrubFound err s) = look π s := by
  simp only [scrubFound]; repeat' (first | (simp [h]; done) | split)

theorem execRetainedRegionScrub_only {α : Type} (π : State → α) (h : ∀ s x0 x1 x2 x3 x4 x5, look π { s with lanes := x0, jx := x1, cons := x2, host := x3, log := x4, pow := x5 } = look π s) (err : ScrubFind) (s : State) (t : State) (he : execRetainedRegionScrub err s = .next t) :
    look π t = look π s := by
  simp only [execRetainedRegionScrub, Host.Outcome.next.injEq] at he; subst he; repeat' (first | (simp [h]; done) | split)

@[simp ↓] theorem assembleFull_only {α : Type} (π : State → α) (h : ∀ s x0 x1, look π { s with tt := x0, cons := x1 } = look π s) (d : Fast) (s : State) :
    look π (assembleFull d s) = look π s := by
  simp only [assembleFull]; repeat' (first | (simp [h]; done) | split)

@[simp ↓] theorem voteCheckpoint_only {α : Type} (π : State → α) (h : ∀ s x0 x1 x2 x3 x4 x5 x6, look π { s with tt := x0, inp := x1, lanes := x2, cons := x3, host := x4, log := x5, pow := x6 } = look π s) (err : Lane3 Nat) (s : State) :
    look π (voteCheckpoint err s).2 = look π s := by
  unfold voteCheckpoint
  dsimp only
  split
  · rfl
  · split
    · simp [h]
    · exact look_foldl π _ (fun s l => by simp [h]) _ _
@[simp ↓] theorem sendPieces_only {α : Type} (π : State → α) (h : ∀ s x0 x1 x2 x3, look π { s with mram := x0, tt := x1, cons := x2, host := x3 } = look π s) (verified : Bool) (k : Nat) (s : State) :
    look π (sendPieces verified k s) = look π s := by
  induction k generalizing s with
  | zero => rfl
  | succ n ih =>
    simp only [sendPieces]
    refine look_ite rfl ?_
    rw [ih, putPiece_only π (by simp [h])]
    simp [h]

@[simp ↓] theorem sendCheckpoints_only {α : Type} (π : State → α) (h : ∀ s x0 x1 x2 x3 x4 x5 x6 x7, look π { s with mram := x0, tt := x1, inp := x2, lanes := x3, cons := x4, host := x5, log := x6, pow := x7 } = look π s) (copyErr : Lane3 Nat) (verified : Bool) (s : State) :
    look π (sendCheckpoints copyErr verified s) = look π s := by
  simp only [sendCheckpoints]
  refine look_ite rfl (look_ite ?_ ?_)
  · simp [h]
  · rw [sendPieces_only π (by simp [h])]
    simp [h]

@[simp ↓] theorem judgeDigests_only {α : Type} (π : State → α) (h : ∀ s x0 x1 x2 x3 x4 x5 x6, look π { s with tt := x0, inp := x1, lanes := x2, cons := x3, host := x4, log := x5, pow := x6 } = look π s) (err : Lane3 Nat) (s : State) :
    look π (judgeDigests err s) = look π s := by
  simp only [judgeDigests]; repeat' (first | (simp [h]; done) | (refine (look_foldl π _ ?_ _ _).trans ?_) | split | intro _ | simp [takeNat, takeQty, h])

@[simp ↓] theorem reintegrateAt_only {α : Type} (π : State → α) (h : ∀ s x0 x1 x2 x3 x4 x5 x6, look π { s with tt := x0, inp := x1, lanes := x2, cons := x3, host := x4, log := x5, pow := x6 } = look π s) (full : Bool) (err : Lane3 Nat) (l : Lane) (s : State) :
    look π (reintegrateAt full err l s) = look π s := by
  simp only [reintegrateAt]; repeat' (first | (simp [h]; done) | split)

theorem execCheckpoint_only {α : Type} (π : State → α) (h : ∀ s x0 x1 x2 x3 x4 x5 x6 x7 x8 x9, look π { s with free := x0, mram := x1, tt := x2, inp := x3, servoUndo := x4, lanes := x5, cons := x6, host := x7, log := x8, pow := x9 } = look π s) (x : CkptIn) (s : State) (t : State) (he : execCheckpoint x s = .next t) :
    look π t = look π s := by
  simp only [execCheckpoint, Host.Outcome.next.injEq] at he; subst he
  refine look_ite (look_ite ((look_foldl π _ (fun s x => reintegrateAt_only π (by simp [h]) _ _ _ s) _ _).trans ?_) ?_) rfl <;>
    refine look_ite ?_ ?_ <;> (try rw [judgeDigests_only π (by simp [h])]) <;> rw [completeAct_only π (by simp [h])] <;>
    refine look_ite ?_ ?_ <;> simp [h]

@[simp ↓] theorem laneStatusSpec_only {α : Type} (π : State → α) (k : Nat) (p : Packet) (s : State) :
    look π (laneStatusSpec.run k p s).state = look π s := by
  simp [laneStatusSpec, fail]

theorem execLaneStatus_only {α : Type} (π : State → α) (h : ∀ s x0 x1 x2, look π { s with tt := x0, cons := x1, host := x2 } = look π s) (p : Packet) (s : State) (t : State) (he : execLaneStatus p s = .next t) :
    look π t = look π s := by
  simp only [execLaneStatus, Host.Outcome.next.injEq] at he; subst he; exact processPacket_only π _ _ _ (by simp [h]) (fun _ _ _ => by simp [h])

@[simp ↓] theorem laneReintegrateSpec_only {α : Type} (π : State → α) (h : ∀ s x0, look π { s with host := x0 } = look π s) (k : Nat) (p : Packet) (s : State) :
    look π (laneReintegrateSpec.run k p s).state = look π s := by
  simp only [laneReintegrateSpec, fail]; repeat' (first | (simp [h, fail]; done) | split)

theorem execLaneReintegrate_only {α : Type} (π : State → α) (h : ∀ s x0 x1 x2, look π { s with tt := x0, cons := x1, host := x2 } = look π s) (p : Packet) (s : State) (t : State) (he : execLaneReintegrate p s = .next t) :
    look π t = look π s := by
  simp only [execLaneReintegrate, Host.Outcome.next.injEq] at he; subst he; exact processPacket_only π _ _ _ (by simp [h]) (fun _ _ _ => by simp [h])

@[simp ↓] theorem applyLane_only {α : Type} (π : State → α) (h : ∀ s x0 x1 x2 x3 x4 x5 x6, look π { s with tt := x0, inp := x1, lanes := x2, cons := x3, host := x4, log := x5, pow := x6 } = look π s) (mask op : Nat) (s : State) :
    look π (applyLane mask op s) = look π s := by
  simp only [applyLane]; repeat' (first | (simp [h]; done) | (refine (look_foldl π _ ?_ _ _).trans ?_) | split | intro _ | simp [takeNat, takeQty, h])


/-! ### Machine/Consist.lean -/

@[simp ↓] theorem onPeer_only {α : Type} (π : State → α) (h : ∀ s x0, look π { s with cons := x0 } = look π s) (k : Nat) (f : Peer → Peer) (s : State) :
    look π (onPeer k f s) = look π s := by
  simp only [onPeer]; repeat' (first | (simp [h]; done) | split)

@[simp ↓] theorem updateRing_only {α : Type} (π : State → α) (h : ∀ s x0 x1 x2, look π { s with cons := x0, host := x1, log := x2 } = look π s) (s : State) :
    look π (updateRing s) = look π s := by
  simp only [updateRing]; repeat' (first | (simp [h]; done) | split)

theorem execJunctionPairDifference_only {α : Type} (π : State → α) (h : ∀ s x0 x1 x2 x3 x4 x5, look π { s with lanes := x0, jx := x1, cons := x2, host := x3, log := x4, pow := x5 } = look π s) (block unit : Nat) (s : State) (t : State) (he : execJunctionPairDifference block unit s = .next t) :
    look π t = look π s := by
  simp only [execJunctionPairDifference, Host.Outcome.next.injEq] at he; subst he; repeat' (first | (simp [h]; done) | split)

theorem execJunctionBlockRecovered_only {α : Type} (π : State → α) (h : ∀ s x0 x1 x2 x3, look π { s with jx := x0, cons := x1, host := x2, log := x3 } = look π s) (block unit : Nat) (s : State) (t : State) (he : execJunctionBlockRecovered block unit s = .next t) :
    look π t = look π s := by
  simp only [execJunctionBlockRecovered, Host.Outcome.next.injEq] at he; subst he; repeat' (first | (simp [h]; done) | split)

@[simp ↓] theorem sendHeartbeats_only {α : Type} (π : State → α) (h : ∀ s x0 x1 x2, look π { s with tt := x0, cons := x1, host := x2 } = look π s) (s : State) :
    look π (sendHeartbeats s) = look π s := by
  simp only [sendHeartbeats]; repeat' (first | (simp [h]; done) | split)

@[simp ↓] theorem setRole_only {α : Type} (π : State → α) (h : ∀ s x0 x1 x2 x3, look π { s with time := x0, cons := x1, host := x2, log := x3 } = look π s) (r : Role) (s : State) :
    look π (setRole r s) = look π s := by
  simp only [setRole]; repeat' (first | (simp [h]; done) | split)

@[simp ↓] theorem followLead_only {α : Type} (π : State → α) (h : ∀ s x0 x1 x2 x3, look π { s with time := x0, cons := x1, host := x2, log := x3 } = look π s) (k : Nat) (s : State) :
    look π (followLead k s) = look π s := by
  simp only [followLead]; repeat' (first | (simp [h]; done) | split)

@[simp ↓] theorem firstRole_only {α : Type} (π : State → α) (h : ∀ s x0 x1 x2 x3, look π { s with time := x0, cons := x1, host := x2, log := x3 } = look π s) (s : State) :
    look π (firstRole s) = look π s := by
  simp only [firstRole]; repeat' (first | (simp [h]; done) | split)

@[simp ↓] theorem rejoin_only {α : Type} (π : State → α) (h : ∀ s x0 x1 x2 x3, look π { s with time := x0, cons := x1, host := x2, log := x3 } = look π s) (s : State) :
    look π (rejoin s) = look π s := by
  simp only [rejoin]; repeat' (first | (simp [h]; done) | split)

theorem execRoleAssignment_only {α : Type} (π : State → α) (h : ∀ s x0 x1 x2 x3, look π { s with time := x0, cons := x1, host := x2, log := x3 } = look π s) (s : State) (t : State) (he : execRoleAssignment s = .next t) :
    look π t = look π s := by
  simp only [execRoleAssignment, Host.Outcome.next.injEq] at he; subst he; repeat' (first | (simp [h]; done) | split)

theorem execRingLinkUp_only {α : Type} (π : State → α) (h : ∀ s x0 x1 x2, look π { s with cons := x0, host := x1, log := x2 } = look π s) (east : Bool) (s : State) (t : State) (he : execRingLinkUp east s = .next t) :
    look π t = look π s := by
  simp only [execRingLinkUp, Host.Outcome.next.injEq] at he; subst he; repeat' (first | (simp [h]; done) | split)

theorem execRingLinkDown_only {α : Type} (π : State → α) (h : ∀ s x0 x1 x2, look π { s with cons := x0, host := x1, log := x2 } = look π s) (east : Bool) (s : State) (t : State) (he : execRingLinkDown east s = .next t) :
    look π t = look π s := by
  simp only [execRingLinkDown, Host.Outcome.next.injEq] at he; subst he; repeat' (first | (simp [h]; done) | split)

theorem execLinkDelayMeasure_only {α : Type} (π : State → α) (h : ∀ s x0, look π { s with cons := x0 } = look π s) (east : Bool) (roundTripPs turnPs : Int) (s : State) (t : State) (he : execLinkDelayMeasure east roundTripPs turnPs s = .next t) :
    look π t = look π s := by
  simp only [execLinkDelayMeasure, Host.Outcome.next.injEq] at he; subst he; repeat' (first | (simp [h]; done) | split)

@[simp ↓] theorem sendRoll_only {α : Type} (π : State → α) (h : ∀ s x0 x1 x2, look π { s with tt := x0, cons := x1, host := x2 } = look π s) (body : RingBody) (dst : Nat) (s : State) :
    look π (sendRoll body dst s) = look π s := by
  simp [sendRoll, h]

@[simp ↓] theorem beginRoll_only {α : Type} (π : State → α) (h : ∀ s x0 x1 x2 x3 x4, look π { s with mram := x0, tt := x1, cons := x2, host := x3, pow := x4 } = look π s) (op : Nat) (s : State) :
    look π (beginRoll op s) = look π s := by
  simp only [beginRoll]; repeat' (first | (simp [h]; done) | split)

theorem execRollCallStart_only {α : Type} (π : State → α) (h : ∀ s x0 x1 x2 x3 x4, look π { s with mram := x0, tt := x1, cons := x2, host := x3, pow := x4 } = look π s) (s : State) (t : State) (he : execRollCallStart s = .next t) :
    look π t = look π s := by
  simp only [execRollCallStart, Host.Outcome.next.injEq] at he; subst he; repeat' (first | (simp [h]; done) | split)

@[simp ↓] theorem rollWest_only {α : Type} (π : State → α) (h : ∀ s x0 x1 x2, look π { s with tt := x0, cons := x1, host := x2 } = look π s) (s : State) :
    look π (rollWest s) = look π s := by
  simp only [rollWest]; repeat' (first | (simp [h]; done) | split)

@[simp ↓] theorem dropRole_only {α : Type} (π : State → α) (h : ∀ s x0 x1 x2 x3, look π { s with time := x0, cons := x1, host := x2, log := x3 } = look π s) (s : State) :
    look π (dropRole s) = look π s := by
  simp only [dropRole]; repeat' (first | (simp [h]; done) | split)

@[simp ↓] theorem secondHome_only {α : Type} (π : State → α) (h : ∀ s x0 x1 x2 x3, look π { s with time := x0, cons := x1, host := x2, log := x3 } = look π s) (op : Nat) (s : State) :
    look π (secondHome op s) = look π s := by
  simp only [secondHome]; repeat' (first | (simp [h]; done) | split)

@[simp ↓] theorem takeRoll_only {α : Type} (π : State → α) (h : ∀ s x0 x1 x2 x3 x4 x5 x6, look π { s with mram := x0, time := x1, tt := x2, cons := x3, host := x4, log := x5, pow := x6 } = look π s) (op address : Nat) (east : Bool) (src : Nat) (s : State) :
    look π (takeRoll op address east src s) = look π s := by
  simp only [takeRoll]; repeat' (first | (simp [h]; done) | split)

@[simp ↓] theorem rollBack_only {α : Type} (π : State → α) (h : ∀ s x0, look π { s with cons := x0 } = look π s) (address : Nat) (s : State) :
    look π (rollBack address s) = look π s := by
  simp only [rollBack]; repeat' (first | (simp [h]; done) | split)

@[simp ↓] theorem takeAnswer_only {α : Type} (π : State → α) (h : ∀ s x0, look π { s with cons := x0 } = look π s) (e : RollEntry) (s : State) :
    look π (takeAnswer e s) = look π s := by
  simp only [takeAnswer]; repeat' (first | (simp [h]; done) | split)

@[simp ↓] theorem rollConditions_only {α : Type} (π : State → α) (h : ∀ s x0, look π { s with cons := x0 } = look π s) (r : RollOutcome) (s : State) :
    look π (rollConditions r s) = look π s := by
  simp [rollConditions, h]

@[simp ↓] theorem applyRoll_only {α : Type} (π : State → α) (h : ∀ s x0 x1 x2 x3, look π { s with time := x0, cons := x1, host := x2, log := x3 } = look π s) (op : Nat) (s : State) :
    look π (applyRoll op s) = look π s := by
  simp only [applyRoll]; repeat' (first | (simp [h]; done) | split)

@[simp ↓] theorem answerRoll_only {α : Type} (π : State → α) (h : ∀ s x0 x1, look π { s with cons := x0, host := x1 } = look π s) (op : Nat) (r : RollOutcome) (s : State) :
    look π (answerRoll op r s) = look π s := by
  simp only [answerRoll]; repeat' (first | (simp [h]; done) | split)

@[simp ↓] theorem endRoll_only {α : Type} (π : State → α) (h : ∀ s x0 x1 x2 x3, look π { s with time := x0, cons := x1, host := x2, log := x3 } = look π s) (op : Nat) (r : RollOutcome) (s : State) :
    look π (endRoll op r s) = look π s := by
  simp only [endRoll]; repeat' (first | (simp [h]; done) | split)

theorem execRollCallEnd_only {α : Type} (π : State → α) (h : ∀ s x0 x1 x2 x3 x4, look π { s with time := x0, tt := x1, cons := x2, host := x3, log := x4 } = look π s) (_unit : Unit) (s : State) (t : State) (he : execRollCallEnd _unit s = .next t) :
    look π t = look π s := by
  simp only [execRollCallEnd, Host.Outcome.next.injEq] at he; subst he; repeat' (first | (simp [h]; done) | split)

theorem execNoHome_only {α : Type} (π : State → α) (h : ∀ s x0 x1 x2, look π { s with cons := x0, host := x1, log := x2 } = look π s) (s : State) (t : State) (he : execNoHome s = .next t) :
    look π t = look π s := by
  simp only [execNoHome, Host.Outcome.next.injEq] at he; subst he; repeat' (first | (simp [h]; done) | split)

@[simp ↓] theorem leadBack_only {α : Type} (π : State → α) (h : ∀ s x0, look π { s with cons := x0 } = look π s) (s : State) :
    look π (leadBack s) = look π s := by
  simp [leadBack, h]

@[simp ↓] theorem heard_only {α : Type} (π : State → α) (h : ∀ s x0, look π { s with cons := x0 } = look π s) (k c : Nat) (s : State) :
    look π (heard k c s) = look π s := by
  simp only [heard]; repeat' (first | (simp [h]; done) | split)

@[simp ↓] theorem hearLead_only {α : Type} (π : State → α) (h : ∀ s x0 x1 x2 x3 x4, look π { s with lanes := x0, cons := x1, host := x2, log := x3, pow := x4 } = look π s) (k e : Nat) (lost : Bool) (s : State) :
    look π (hearLead k e lost s) = look π s := by
  simp only [hearLead]; repeat' (first | (simp [h]; done) | split)

@[simp ↓] theorem hearTransfer_only {α : Type} (π : State → α) (h : ∀ s x0 x1 x2 x3, look π { s with time := x0, cons := x1, host := x2, log := x3 } = look π s) (hq : Heartbeat) (s : State) :
    look π (hearTransfer hq s) = look π s := by
  simp only [hearTransfer]; repeat' (first | (simp [h]; done) | split)

@[simp ↓] theorem hearHeartbeat_only {α : Type} (π : State → α) (h : ∀ s x0 x1 x2 x3 x4 x5, look π { s with time := x0, lanes := x1, cons := x2, host := x3, log := x4, pow := x5 } = look π s) (c : Nat) (hq : Heartbeat) (s : State) :
    look π (hearHeartbeat c hq s) = look π s := by
  simp only [hearHeartbeat]; repeat' (first | (simp [h]; done) | split)

theorem execHeartbeatWord_only {α : Type} (π : State → α) (h : ∀ s x0, look π { s with cons := x0 } = look π s) (hbB : Bool) (slot : Nat) (word : Nat) (s : State) (t : State) (he : execHeartbeatWord hbB slot word s = .next t) :
    look π t = look π s := by
  simp only [execHeartbeatWord, Host.Outcome.next.injEq] at he; subst he; repeat' (first | (simp [h]; done) | split)

@[simp ↓] theorem onLeadLost_only {α : Type} (π : State → α) (h : ∀ s x0 x1 x2 x3, look π { s with time := x0, cons := x1, host := x2, log := x3 } = look π s) (s : State) :
    look π (onLeadLost s) = look π s := by
  simp only [onLeadLost]; repeat' (first | (simp [h]; done) | split)

theorem execLeadLost_only {α : Type} (π : State → α) (h : ∀ s x0 x1 x2 x3, look π { s with time := x0, cons := x1, host := x2, log := x3 } = look π s) (addr : Nat) (s : State) (t : State) (he : execLeadLost addr s = .next t) :
    look π t = look π s := by
  simp only [execLeadLost, Host.Outcome.next.injEq] at he; subst he; repeat' (first | (simp [h]; done) | split)

theorem execCarrierFault_only {α : Type} (π : State → α) (h : ∀ s x0 x1 x2, look π { s with cons := x0, host := x1, log := x2 } = look π s) (carrier addr : Nat) (s : State) (t : State) (he : execCarrierFault carrier addr s = .next t) :
    look π t = look π s := by
  simp only [execCarrierFault, Host.Outcome.next.injEq] at he; subst he; repeat' (first | (simp [h]; done) | split)

theorem execArbConfirmed_only {α : Type} (π : State → α) (h : ∀ s x0, look π { s with cons := x0 } = look π s) (s : State) (t : State) (he : execArbConfirmed s = .next t) :
    look π t = look π s := by
  simp only [execArbConfirmed, Host.Outcome.next.injEq] at he; subst he; repeat' (first | (simp [h]; done) | split)

theorem execArbRefused_only {α : Type} (π : State → α) (h : ∀ s x0, look π { s with cons := x0 } = look π s) (s : State) (t : State) (he : execArbRefused s = .next t) :
    look π t = look π s := by
  simp only [execArbRefused, Host.Outcome.next.injEq] at he; subst he; repeat' (first | (simp [h]; done) | split)

theorem execLeadYield_only {α : Type} (π : State → α) (h : ∀ s x0 x1 x2 x3 x4, look π { s with lanes := x0, cons := x1, host := x2, log := x3, pow := x4 } = look π s) (s : State) (t : State) (he : execLeadYield s = .next t) :
    look π t = look π s := by
  simp only [execLeadYield, Host.Outcome.next.injEq] at he; subst he; repeat' (first | (simp [h]; done) | split)

theorem execSplitViewClear_only {α : Type} (π : State → α) (h : ∀ s x0, look π { s with cons := x0 } = look π s) (s : State) (t : State) (he : execSplitViewClear s = .next t) :
    look π t = look π s := by
  simp only [execSplitViewClear, Host.Outcome.next.injEq] at he; subst he; repeat' (first | (simp [h]; done) | split)

@[simp ↓] theorem consistStatusSpec_only {α : Type} (π : State → α) (k : Nat) (p : Packet) (s : State) :
    look π (consistStatusSpec.run k p s).state = look π s := by
  simp [consistStatusSpec, fail]

theorem execConsistStatus_only {α : Type} (π : State → α) (h : ∀ s x0 x1 x2, look π { s with tt := x0, cons := x1, host := x2 } = look π s) (p : Packet) (s : State) (t : State) (he : execConsistStatus p s = .next t) :
    look π t = look π s := by
  simp only [execConsistStatus, Host.Outcome.next.injEq] at he; subst he; exact processPacket_only π _ _ _ (by simp [h]) (fun _ _ _ => by simp [h])

@[simp ↓] theorem rollCallSpec_only {α : Type} (π : State → α) (h : ∀ s x0 x1 x2, look π { s with tt := x0, cons := x1, host := x2 } = look π s) (k : Nat) (p : Packet) (s : State) :
    look π (rollCallSpec.run k p s).state = look π s := by
  simp only [rollCallSpec, fail]; repeat' (first | (simp [h, fail]; done) | split)

theorem execRollCall_only {α : Type} (π : State → α) (h : ∀ s x0 x1 x2, look π { s with tt := x0, cons := x1, host := x2 } = look π s) (p : Packet) (s : State) (t : State) (he : execRollCall p s = .next t) :
    look π t = look π s := by
  simp only [execRollCall, Host.Outcome.next.injEq] at he; subst he; exact processPacket_only π _ _ _ (by simp [h]) (fun _ _ _ => by simp [h])

@[simp ↓] theorem abortTransfer_only {α : Type} (π : State → α) (h : ∀ s x0 x1 x2, look π { s with cons := x0, host := x1, log := x2 } = look π s) (s : State) :
    look π (abortTransfer s) = look π s := by
  simp only [abortTransfer]; repeat' (first | (simp [h]; done) | split)

@[simp ↓] theorem transferLeadSpec_only {α : Type} (π : State → α) (h : ∀ s x0 x1 x2, look π { s with cons := x0, host := x1, log := x2 } = look π s) (k : Nat) (p : Packet) (s : State) :
    look π (transferLeadSpec.run k p s).state = look π s := by
  simp only [transferLeadSpec, fail]; repeat' (first | (simp [h, fail]; done) | split)

theorem execTransferLead_only {α : Type} (π : State → α) (h : ∀ s x0 x1 x2 x3, look π { s with tt := x0, cons := x1, host := x2, log := x3 } = look π s) (p : Packet) (s : State) (t : State) (he : execTransferLead p s = .next t) :
    look π t = look π s := by
  simp only [execTransferLead, Host.Outcome.next.injEq] at he; subst he; exact processPacket_only π _ _ _ (by simp [h]) (fun _ _ _ => by simp [h])

@[simp ↓] theorem applyTransfer_only {α : Type} (π : State → α) (h : ∀ s x0, look π { s with cons := x0 } = look π s) (s : State) :
    look π (applyTransfer s) = look π s := by
  simp only [applyTransfer]; repeat' (first | (simp [h]; done) | split)

end Sys2Proof.Machine
end

