-- ==== Sys2Proof/Laws/FrameHost.lean ====
section
/-! SUPPORT. The recorder, images, power, takeover and the command interface: what each operation leaves alone. A lemma `f_only` says that an
observation of the state which is blind to the parts named in its hypothesis is the same after `f` as before it. -/

set_option maxRecDepth 20000
set_option linter.unusedSimpArgs false
set_option linter.unusedVariables false
set_option linter.unusedTactic false
set_option linter.unreachableTactic false

namespace Sys2Proof.Machine

/-! ### Machine/Recorder.lean -/

@[simp ↓] theorem putRecord_only {α : Type} (π : State → α) (h : ∀ s x0 x1, look π { s with mram := x0, log := x1 } = look π s) (q : Nat) (r : Rec) (s : State) :
    look π (putRecord q r s) = look π s := by
  simp [putRecord, h]

@[simp ↓] theorem nearFullAt_only {α : Type} (π : State → α) (h : ∀ s x0 x1, look π { s with host := x0, log := x1 } = look π s) (s : State) :
    look π (nearFullAt s) = look π s := by
  simp only [nearFullAt]; repeat' (first | (simp [h]; done) | split)

theorem writeOne_only {α : Type} (π : State → α) (h : ∀ s x0 x1 x2, look π { s with mram := x0, host := x1, log := x2 } = look π s)
    (s t : State) (he : writeOne s = some t) : look π t = look π s := by
  unfold writeOne at he
  (repeat' split at he) <;> simp only [Option.some.injEq, reduceCtorEq] at he <;> subst he <;> simp [h]

@[simp ↓] theorem writeMany_only {α : Type} (π : State → α) (h : ∀ s x0 x1 x2, look π { s with mram := x0, host := x1, log := x2 } = look π s)
    (n : Nat) (s : State) : look π (writeMany n s) = look π s := by
  induction n generalizing s with
  | zero => rfl
  | succ n ih =>
    simp only [writeMany]
    split
    · rfl
    · rename_i t g; rw [ih, writeOne_only π h s t g]

@[simp ↓] theorem faultFill_only {α : Type} (π : State → α) (h : ∀ s x0 x1 x2, look π { s with mram := x0, host := x1, log := x2 } = look π s) (third : Bool) (s : State) :
    look π (faultFill third s) = look π s := by
  simp only [faultFill]; repeat' (first | (simp [h]; done) | split)

@[simp ↓] theorem writeCleared_only {α : Type} (π : State → α) (h : ∀ s x0 x1 x2, look π { s with mram := x0, host := x1, log := x2 } = look π s) (c : Clear) (s : State) :
    look π (writeCleared c s) = look π s := by
  simp only [writeCleared]; repeat' (first | (simp [h]; done) | split)

theorem execRecorderWrite_only {α : Type} (π : State → α) (h : ∀ s x0 x1 x2 x3, look π { s with mram := x0, tt := x1, host := x2, log := x3 } = look π s) (fails : Nat) (s : State) (t : State) (he : execRecorderWrite fails s = .next t) :
    look π t = look π s := by
  simp only [execRecorderWrite, Host.Outcome.next.injEq] at he; subst he
  refine look_ite rfl (look_ite ?_ (look_ite ?_ ?_))
  · simp [h]
  · simp [h]
  · simp only [h]
    split
    · rw [stageLost_only π (by simp [h])]; simp [h]
    · refine look_ite ?_ ?_
      · simp only [h]
        rw [writeCleared_only π (by simp [h]), stageLost_only π (by simp [h])]; simp [h]
      · rw [stageLost_only π (by simp [h])]; simp [h]

@[simp ↓] theorem flushAll_only {α : Type} (π : State → α) (h : ∀ s x0 x1 x2, look π { s with mram := x0, host := x1, log := x2 } = look π s) (s : State) :
    look π (flushAll s) = look π s := by
  exact writeMany_only π h 258 s

@[simp ↓] theorem chargeBoot_only {α : Type} (π : State → α) (h : ∀ s x0, look π { s with tt := x0 } = look π s) (n : Nat) (s : State) :
    look π (chargeBoot n s) = look π s := by
  simp [chargeBoot, h]

@[simp ↓] theorem writeStart_only {α : Type} (π : State → α) (h : ∀ s x0 x1 x2 x3, look π { s with mram := x0, tt := x1, host := x2, log := x3 } = look π s) (recovered kind : Nat) (s : State) :
    look π (writeStart recovered kind s) = look π s := by
  simp only [writeStart]; repeat' (first | (simp [h]; done) | (refine (look_foldl π _ ?_ _ _).trans ?_) | split | intro _ | simp [takeNat, takeQty, h])

@[simp ↓] theorem bootRecorder_only {α : Type} (π : State → α) (h : ∀ s x0 x1 x2 x3, look π { s with mram := x0, tt := x1, host := x2, log := x3 } = look π s) (kind : Nat) (s : State) :
    look π (bootRecorder kind s) = look π s := by
  simp only [bootRecorder]
  split
  · rw [writeStart_only π (by simp [h]), writeMany_only π (by simp [h])]; simp [h]
  · rw [writeStart_only π (by simp [h])]; simp [h]

@[simp ↓] theorem beginLoad_only {α : Type} (π : State → α) (h : ∀ s x0, look π { s with log := x0 } = look π s) (cursor : Nat → Nat) (s : State) :
    look π (beginLoad cursor s) = look π s := by
  simp only [beginLoad]; repeat' (first | (simp [h]; done) | split)

theorem execRecLoad_only {α : Type} (π : State → α) (h : ∀ s x0, look π { s with log := x0 } = look π s) (s : State) (t : State) (he : execRecLoad s = .next t) :
    look π t = look π s := by
  simp only [execRecLoad, Host.Outcome.next.injEq] at he; subst he; simp [h]

theorem execRecNext_only {α : Type} (π : State → α) (h : ∀ s x0, look π { s with log := x0 } = look π s) (s : State) (t : State) (he : execRecNext s = .next t) :
    look π t = look π s := by
  simp only [execRecNext, Host.Outcome.next.injEq] at he; subst he; simp [h]

theorem execRecPrev_only {α : Type} (π : State → α) (h : ∀ s x0, look π { s with log := x0 } = look π s) (s : State) (t : State) (he : execRecPrev s = .next t) :
    look π t = look π s := by
  simp only [execRecPrev, Host.Outcome.next.injEq] at he; subst he; simp [h]

theorem execRecLoadComplete_only {α : Type} (π : State → α) (h : ∀ s x0, look π { s with log := x0 } = look π s) (s : State) (t : State) (he : execRecLoadComplete s = .next t) :
    look π t = look π s := by
  simp only [execRecLoadComplete, Host.Outcome.next.injEq] at he; subst he; repeat' (first | (simp [h]; done) | split)

@[simp ↓] theorem updateRecRegs_only {α : Type} (π : State → α) (h : ∀ s x0, look π { s with log := x0 } = look π s) (s : State) :
    look π (updateRecRegs s) = look π s := by
  simp only [updateRecRegs]; repeat' (first | (simp [h]; done) | split)

@[simp ↓] theorem stagePending_only {α : Type} (π : State → α) (h : ∀ s x0 x1 x2, look π { s with lanes := x0, host := x1, log := x2 } = look π s) (n : Nat) (s : State) :
    look π (stagePending n s) = look π s := by
  simp only [stagePending]; repeat' (first | (simp [h]; done) | (refine (look_foldl π _ ?_ _ _).trans ?_) | split | intro _ | simp [takeNat, takeQty, h])

theorem execLogging_only {α : Type} (π : State → α) (h : ∀ s x0 x1 x2 x3 x4 x5 x6 x7 x8, look π { s with free := x0, tt := x1, inp := x2, servoUndo := x3, lanes := x4, cons := x5, host := x6, log := x7, pow := x8 } = look π s) (rep : Lane3 ItemReport) (s : State) (t : State) (he : execLogging rep s = .next t) :
    look π t = look π s := by
  simp only [execLogging, Host.Outcome.next.injEq] at he; subst he; repeat' (first | (simp [h]; done) | split)

@[simp ↓] theorem recReadBlockSpec_only {α : Type} (π : State → α) (k : Nat) (p : Packet) (s : State) :
    look π (recReadBlockSpec.run k p s).state = look π s := by
  simp only [recReadBlockSpec, fail]; repeat' (first | (simp [fail]; done) | split)

theorem execRecReadBlock_only {α : Type} (π : State → α) (h : ∀ s x0 x1 x2, look π { s with tt := x0, cons := x1, host := x2 } = look π s) (p : Packet) (s : State) (t : State) (he : execRecReadBlock p s = .next t) :
    look π t = look π s := by
  simp only [execRecReadBlock, Host.Outcome.next.injEq] at he; subst he; exact processPacket_only π _ _ _ (by simp [h]) (fun _ _ _ => by simp [h])

@[simp ↓] theorem recInfoSpec_only {α : Type} (π : State → α) (k : Nat) (p : Packet) (s : State) :
    look π (recInfoSpec.run k p s).state = look π s := by
  simp [recInfoSpec, fail]

theorem execRecInfo_only {α : Type} (π : State → α) (h : ∀ s x0 x1 x2, look π { s with tt := x0, cons := x1, host := x2 } = look π s) (p : Packet) (s : State) (t : State) (he : execRecInfo p s = .next t) :
    look π t = look π s := by
  simp only [execRecInfo, Host.Outcome.next.injEq] at he; subst he; exact processPacket_only π _ _ _ (by simp [h]) (fun _ _ _ => by simp [h])

@[simp ↓] theorem recClearSpec_only {α : Type} (π : State → α) (h : ∀ s x0, look π { s with log := x0 } = look π s) (k : Nat) (p : Packet) (s : State) :
    look π (recClearSpec.run k p s).state = look π s := by
  simp only [recClearSpec, fail]; repeat' (first | (simp [h, fail]; done) | split)

theorem execRecClear_only {α : Type} (π : State → α) (h : ∀ s x0 x1 x2 x3, look π { s with tt := x0, cons := x1, host := x2, log := x3 } = look π s) (p : Packet) (s : State) (t : State) (he : execRecClear p s = .next t) :
    look π t = look π s := by
  simp only [execRecClear, Host.Outcome.next.injEq] at he; subst he; exact processPacket_only π _ _ _ (by simp [h]) (fun _ _ _ => by simp [h])

@[simp ↓] theorem recMarkSpec_only {α : Type} (π : State → α) (h : ∀ s x0 x1, look π { s with host := x0, log := x1 } = look π s) (k : Nat) (p : Packet) (s : State) :
    look π (recMarkSpec.run k p s).state = look π s := by
  simp only [recMarkSpec, fail]; repeat' (first | (simp [h, fail]; done) | split)

theorem execRecMark_only {α : Type} (π : State → α) (h : ∀ s x0 x1 x2 x3, look π { s with tt := x0, cons := x1, host := x2, log := x3 } = look π s) (p : Packet) (s : State) (t : State) (he : execRecMark p s = .next t) :
    look π t = look π s := by
  simp only [execRecMark, Host.Outcome.next.injEq] at he; subst he; exact processPacket_only π _ _ _ (by simp [h]) (fun _ _ _ => by simp [h])


/-! ### Machine/Image.lean -/

@[simp ↓] theorem refsFromImage_only {α : Type} (π : State → α) (h : ∀ s x0, look π { s with ref := x0 } = look π s) (s : State) :
    look π (refsFromImage s) = look π s := by
  simp [refsFromImage, h]

@[simp ↓] theorem banksFromImage_only {α : Type} (π : State → α) (h : ∀ s x0, look π { s with ctl := x0 } = look π s) (s : State) :
    look π (banksFromImage s) = look π s := by
  simp [banksFromImage, h]

@[simp ↓] theorem allocFromImage_only {α : Type} (π : State → α) (h : ∀ s x0, look π { s with alloc := x0 } = look π s) (s : State) :
    look π (allocFromImage s) = look π s := by
  simp [allocFromImage, h]

@[simp ↓] theorem chansFromImage_only {α : Type} (π : State → α) (h : ∀ s x0, look π { s with isl := x0 } = look π s) (s : State) :
    look π (chansFromImage s) = look π s := by
  simp [chansFromImage, h]

@[simp ↓] theorem budgetsFromImage_only {α : Type} (π : State → α) (h : ∀ s x0, look π { s with tt := x0 } = look π s) (s : State) :
    look π (budgetsFromImage s) = look π s := by
  simp [budgetsFromImage, h]

@[simp ↓] theorem dispFromImage_only {α : Type} (π : State → α) (h : ∀ s x0, look π { s with disp := x0 } = look π s) (s : State) :
    look π (dispFromImage s) = look π s := by
  simp [dispFromImage, h]

@[simp ↓] theorem fromImage_only {α : Type} (π : State → α) (h : ∀ s x0 x1 x2 x3 x4 x5 x6 x7 x8 x9 x10 x11, look π { s with time := x0, tt := x1, gnss := x2, ref := x3, obs := x4, ctl := x5, alloc := x6, isl := x7, sb := x8, host := x9, log := x10, disp := x11 } = look π s) (s : State) :
    look π (fromImage s) = look π s := by
  simp [fromImage, h]

@[simp ↓] theorem logImage_only {α : Type} (π : State → α) (h : ∀ s x0 x1, look π { s with host := x0, log := x1 } = look π s) (k kind detail : Nat) (s : State) :
    look π (logImage k kind detail s) = look π s := by
  simp [logImage, h]

@[simp ↓] theorem activate_only {α : Type} (π : State → α) (h : ∀ s x0 x1, look π { s with host := x0, pow := x1 } = look π s) (k : Nat) (s : State) :
    look π (activate k s) = look π s := by
  simp [activate, h]

@[simp ↓] theorem finishCommit_only {α : Type} (π : State → α) (h : ∀ s x0 x1 x2 x3 x4 x5 x6 x7 x8 x9 x10 x11 x12, look π { s with image := x0, time := x1, tt := x2, gnss := x3, ref := x4, obs := x5, ctl := x6, alloc := x7, isl := x8, sb := x9, host := x10, log := x11, disp := x12 } = look π s) (s : State) :
    look π (finishCommit s) = look π s := by
  simp only [finishCommit]; repeat' (first | (simp [h]; done) | split)

@[simp ↓] theorem commitAtOnce_only {α : Type} (π : State → α) (h : ∀ s x0 x1 x2 x3 x4 x5 x6 x7 x8 x9 x10 x11 x12, look π { s with image := x0, time := x1, tt := x2, gnss := x3, ref := x4, obs := x5, ctl := x6, alloc := x7, isl := x8, sb := x9, host := x10, log := x11, disp := x12 } = look π s) (s : State) :
    look π (commitAtOnce s) = look π s := by
  simp [commitAtOnce, h]

@[simp ↓] theorem imageAtBoundary_only {α : Type} (π : State → α) (h : ∀ s x0 x1 x2 x3 x4 x5 x6 x7 x8 x9 x10 x11 x12 x13, look π { s with image := x0, time := x1, tt := x2, gnss := x3, ref := x4, obs := x5, ctl := x6, alloc := x7, isl := x8, sb := x9, host := x10, log := x11, disp := x12, pow := x13 } = look π s) (s : State) :
    look π (imageAtBoundary s) = look π s := by
  simp only [imageAtBoundary]; repeat' (first | (simp [h]; done) | split)

theorem execImageCommitComplete_only {α : Type} (π : State → α) (h : ∀ s x0 x1 x2 x3 x4 x5 x6 x7 x8 x9 x10 x11 x12 x13, look π { s with image := x0, time := x1, tt := x2, gnss := x3, ref := x4, obs := x5, ctl := x6, alloc := x7, isl := x8, sb := x9, host := x10, log := x11, disp := x12, pow := x13 } = look π s) (readbackOk : Bool) (s : State) (t : State) (he : execImageCommitComplete readbackOk s = .next t) :
    look π t = look π s := by
  simp only [execImageCommitComplete, Host.Outcome.next.injEq] at he; subst he; repeat' (first | (simp [h]; done) | split)

@[simp ↓] theorem selectImage_only {α : Type} (π : State → α) (h : ∀ s x0 x1 x2 x3 x4, look π { s with image := x0, sb := x1, host := x2, log := x3, pow := x4 } = look π s) (s : State) :
    look π (selectImage s) = look π s := by
  simp only [selectImage]; repeat' (first | (simp [h]; done) | split)


/-! ### Machine/Power.lean -/

@[simp ↓] theorem supplyEvent_only {α : Type} (π : State → α) (h : ∀ s x0 x1, look π { s with host := x0, log := x1 } = look π s) (input event value : Nat) (s : State) :
    look π (supplyEvent input event value s) = look π s := by
  simp only [supplyEvent]; repeat' (first | (simp [h]; done) | split)

@[simp ↓] theorem setSupply_only {α : Type} (π : State → α) (h : ∀ s x0, look π { s with pow := x0 } = look π s) (i : SupplyIn) (x : Supply) (s : State) :
    look π (setSupply i x s) = look π s := by
  simp only [setSupply]; repeat' (first | (simp [h]; done) | split)

@[simp ↓] theorem rideThrough_only {α : Type} (π : State → α) (h : ∀ s x0 x1 x2 x3, look π { s with host := x0, log := x1, disp := x2, pow := x3 } = look π s) (i : SupplyIn) (mv : Nat) (s : State) :
    look π (rideThrough i mv s) = look π s := by
  simp only [rideThrough]; repeat' (first | (simp [h]; done) | split)

theorem execSupplyChange_only {α : Type} (π : State → α) (h : ∀ s x0 x1 x2 x3, look π { s with host := x0, log := x1, disp := x2, pow := x3 } = look π s) (input : SupplyIn) (ev : SupplyEv) (mv : Nat) (s : State) (t : State) (he : execSupplyChange input ev mv s = .next t) :
    look π t = look π s := by
  simp only [execSupplyChange, Host.Outcome.next.injEq] at he; subst he; repeat' (first | (simp [h]; done) | split)

@[simp ↓] theorem testVbak_only {α : Type} (π : State → α) (h : ∀ s x0 x1 x2, look π { s with host := x0, log := x1, pow := x2 } = look π s) (mv : Nat) (s : State) :
    look π (testVbak mv s) = look π s := by
  simp only [testVbak]; repeat' (first | (simp [h]; done) | split)

theorem execVbakTest_only {α : Type} (π : State → α) (h : ∀ s x0 x1 x2, look π { s with host := x0, log := x1, pow := x2 } = look π s) (mv : Nat) (s : State) (t : State) (he : execVbakTest mv s = .next t) :
    look π t = look π s := by
  simp only [execVbakTest, Host.Outcome.next.injEq] at he; subst he; repeat' (first | (simp [h]; done) | split)

theorem execOverTemperature_only {α : Type} (π : State → α) (h : ∀ s x0 x1 x2, look π { s with host := x0, log := x1, pow := x2 } = look π s) (temp : Int) (s : State) (t : State) (he : execOverTemperature temp s = .next t) :
    look π t = look π s := by
  simp only [execOverTemperature, Host.Outcome.next.injEq] at he; subst he; repeat' (first | (simp [h]; done) | split)

theorem execPowerFail_only {α : Type} (π : State → α) (h : ∀ s x0 x1 x2 x3 x4 x5, look π { s with mram := x0, cons := x1, host := x2, log := x3, disp := x4, pow := x5 } = look π s) (s : State) (t : State) (he : execPowerFail s = .next t) :
    look π t = look π s := by
  simp only [execPowerFail, Host.Outcome.next.injEq] at he; subst he; repeat' (first | (simp [h]; done) | split)

@[simp ↓] theorem powerDown_only {α : Type} (π : State → α) (h : ∀ s x0 x1 x2 x3 x4 x5 x6 x7 x8 x9 x10 x11 x12 x13 x14 x15 x16 x17 x18 x19 x20 x21, look π { s with image := x0, time := x1, tt := x2, inp := x3, gnss := x4, ref := x5, fus := x6, obs := x7, set := x8, ctl := x9, servoUndo := x10, alloc := x11, isl := x12, check := x13, sb := x14, lanes := x15, jx := x16, cons := x17, host := x18, log := x19, disp := x20, pow := x21 } = look π s) (target : ModState) (s : State) :
    look π (powerDown target s) = look π s := by
  exact h s _ _ _ _ _ _ _ _ _ _ _ _ _ _ _ _ _ _ _ _ _ _

theorem execHoldupStop_only {α : Type} (π : State → α) (h : ∀ s x0 x1 x2 x3 x4 x5 x6 x7 x8 x9 x10 x11 x12 x13 x14 x15 x16 x17 x18 x19 x20 x21 x22, look π { s with image := x0, mram := x1, time := x2, tt := x3, inp := x4, gnss := x5, ref := x6, fus := x7, obs := x8, set := x9, ctl := x10, servoUndo := x11, alloc := x12, isl := x13, check := x14, sb := x15, lanes := x16, jx := x17, cons := x18, host := x19, log := x20, disp := x21, pow := x22 } = look π s) (atThreshold : Bool) (s : State) (t : State) (he : execHoldupStop atThreshold s = .next t) :
    look π t = look π s := by
  simp only [execHoldupStop, Host.Outcome.next.injEq] at he; subst he; repeat' (first | (simp [h]; done) | split)

theorem execChamoisSecond_only {α : Type} (π : State → α) (h : ∀ s x0, look π { s with pow := x0 } = look π s) (s : State) (t : State) (he : execChamoisSecond s = .next t) :
    look π t = look π s := by
  simp only [execChamoisSecond, Host.Outcome.next.injEq] at he; subst he; repeat' (first | (simp [h]; done) | split)

theorem execChamoisCopy_only {α : Type} (π : State → α) (h : ∀ s x0 x1 x2 x3, look π { s with mram := x0, tt := x1, cons := x2, pow := x3 } = look π s) (s : State) (t : State) (he : execChamoisCopy s = .next t) :
    look π t = look π s := by
  simp only [execChamoisCopy, Host.Outcome.next.injEq] at he; subst he; repeat' (first | (simp [h]; done) | split)

theorem execVbakCollapse_only {α : Type} (π : State → α) (h : ∀ s x0, look π { s with pow := x0 } = look π s) (s : State) (t : State) (he : execVbakCollapse s = .next t) :
    look π t = look π s := by
  simp only [execVbakCollapse, Host.Outcome.next.injEq] at he; subst he; repeat' (first | (simp [h]; done) | split)

@[simp ↓] theorem clearCounters_only {α : Type} (π : State → α) (h : ∀ s x0, look π { s with tt := x0 } = look π s) (s : State) :
    look π (clearCounters s) = look π s := by
  simp [clearCounters, h]

@[simp ↓] theorem lanesDown_only {α : Type} (π : State → α) (h : ∀ s x0 x1 x2 x3 x4, look π { s with tt := x0, lanes := x1, host := x2, log := x3, pow := x4 } = look π s) (s : State) :
    look π (lanesDown s) = look π s := by
  simp [lanesDown, h]

@[simp ↓] theorem dropRegions_only {α : Type} (π : State → α) (h : ∀ s x0 x1 x2 x3 x4, look π { s with time := x0, tt := x1, inp := x2, isl := x3, host := x4 } = look π s) (s : State) :
    look π (dropRegions s) = look π s := by
  simp [dropRegions, h]

@[simp ↓] theorem enterLayover_only {α : Type} (π : State → α) (h : ∀ s x0 x1 x2 x3 x4 x5 x6 x7 x8, look π { s with time := x0, tt := x1, inp := x2, gnss := x3, isl := x4, lanes := x5, host := x6, log := x7, pow := x8 } = look π s) (reason : Nat) (s : State) :
    look π (enterLayover reason s) = look π s := by
  simp [enterLayover, h]

theorem execLayoverEntry_only {α : Type} (π : State → α) (h : ∀ s x0 x1 x2 x3 x4 x5 x6 x7 x8, look π { s with time := x0, tt := x1, inp := x2, gnss := x3, isl := x4, lanes := x5, host := x6, log := x7, pow := x8 } = look π s) (s : State) (t : State) (he : execLayoverEntry s = .next t) :
    look π t = look π s := by
  simp only [execLayoverEntry, Host.Outcome.next.injEq] at he; subst he; repeat' (first | (simp [h]; done) | split)

theorem execLayoverLanesOff_only {α : Type} (π : State → α) (h : ∀ s x0 x1, look π { s with lanes := x0, pow := x1 } = look π s) (s : State) (t : State) (he : execLayoverLanesOff s = .next t) :
    look π t = look π s := by
  simp only [execLayoverLanesOff, Host.Outcome.next.injEq] at he; subst he; repeat' (first | (simp [h]; done) | split)

@[simp ↓] theorem bootState_only {α : Type} (π : State → α) (h : ∀ s x0 x1 x2 x3 x4 x5 x6 x7 x8 x9 x10 x11 x12 x13 x14 x15 x16 x17 x18 x19 x20 x21, look π { s with image := x0, time := x1, tt := x2, inp := x3, gnss := x4, ref := x5, fus := x6, obs := x7, set := x8, ctl := x9, servoUndo := x10, alloc := x11, isl := x12, check := x13, sb := x14, lanes := x15, jx := x16, cons := x17, host := x18, log := x19, disp := x20, pow := x21 } = look π s) (source : Nat) (home railsOk : Bool) (s : State) :
    look π (bootState source home railsOk s) = look π s := by
  exact h s _ _ _ _ _ _ _ _ _ _ _ _ _ _ _ _ _ _ _ _ _ _

@[simp ↓] theorem handshake_only {α : Type} (π : State → α) (h : ∀ s x0, look π { s with pow := x0 } = look π s) (s : State) :
    look π (handshake s) = look π s := by
  simp only [handshake]; repeat' (first | (simp [h]; done) | split)

@[simp ↓] theorem bootFrom_only {α : Type} (π : State → α) (h : ∀ s x0 x1 x2 x3 x4 x5 x6 x7 x8 x9 x10 x11 x12 x13 x14 x15 x16 x17 x18 x19 x20 x21, look π { s with image := x0, time := x1, tt := x2, inp := x3, gnss := x4, ref := x5, fus := x6, obs := x7, set := x8, ctl := x9, servoUndo := x10, alloc := x11, isl := x12, check := x13, sb := x14, lanes := x15, jx := x16, cons := x17, host := x18, log := x19, disp := x20, pow := x21 } = look π s) (source : Nat) (home railsOk log : Bool) (s : State) :
    look π (bootFrom source home railsOk log s) = look π s := by
  simp only [bootFrom]; repeat' (first | (simp [h]; done) | split)

theorem execBootStart_only {α : Type} (π : State → α) (h : ∀ s x0 x1 x2 x3 x4 x5 x6 x7 x8 x9 x10 x11 x12 x13 x14 x15 x16 x17 x18 x19 x20 x21, look π { s with image := x0, time := x1, tt := x2, inp := x3, gnss := x4, ref := x5, fus := x6, obs := x7, set := x8, ctl := x9, servoUndo := x10, alloc := x11, isl := x12, check := x13, sb := x14, lanes := x15, jx := x16, cons := x17, host := x18, log := x19, disp := x20, pow := x21 } = look π s) (b : BootIn) (s : State) (t : State) (he : execBootStart b s = .next t) :
    look π t = look π s := by
  simp only [execBootStart, Host.Outcome.next.injEq] at he; subst he; repeat' (first | (simp [h]; done) | split)

theorem execSysRstAssert_only {α : Type} (π : State → α) (h : ∀ s x0 x1 x2 x3 x4 x5 x6, look π { s with time := x0, isl := x1, lanes := x2, cons := x3, host := x4, log := x5, pow := x6 } = look π s) (lowUs : Nat) (s : State) (t : State) (he : execSysRstAssert lowUs s = .next t) :
    look π t = look π s := by
  simp only [execSysRstAssert, Host.Outcome.next.injEq] at he; subst he; repeat' (first | (simp [h]; done) | split)

theorem execSysRstRelease_only {α : Type} (π : State → α) (h : ∀ s x0 x1 x2 x3 x4 x5 x6 x7 x8 x9 x10 x11 x12 x13 x14 x15 x16 x17 x18 x19 x20 x21, look π { s with image := x0, time := x1, tt := x2, inp := x3, gnss := x4, ref := x5, fus := x6, obs := x7, set := x8, ctl := x9, servoUndo := x10, alloc := x11, isl := x12, check := x13, sb := x14, lanes := x15, jx := x16, cons := x17, host := x18, log := x19, disp := x20, pow := x21 } = look π s) (railsOk : Bool) (s : State) (t : State) (he : execSysRstRelease railsOk s = .next t) :
    look π t = look π s := by
  simp only [execSysRstRelease, Host.Outcome.next.injEq] at he; subst he; repeat' (first | (simp [h]; done) | split)

theorem execWatchdog_only {α : Type} (π : State → α) (h : ∀ s x0 x1 x2 x3 x4 x5 x6 x7 x8 x9 x10 x11 x12 x13 x14 x15 x16 x17 x18 x19 x20 x21, look π { s with image := x0, time := x1, tt := x2, inp := x3, gnss := x4, ref := x5, fus := x6, obs := x7, set := x8, ctl := x9, servoUndo := x10, alloc := x11, isl := x12, check := x13, sb := x14, lanes := x15, jx := x16, cons := x17, host := x18, log := x19, disp := x20, pow := x21 } = look π s) (railsOk : Bool) (s : State) (t : State) (he : execWatchdog railsOk s = .next t) :
    look π t = look π s := by
  simp only [execWatchdog, Host.Outcome.next.injEq] at he; subst he; repeat' (first | (simp [h]; done) | split)

theorem execFaultRestart_only {α : Type} (π : State → α) (h : ∀ s x0 x1 x2 x3 x4 x5 x6 x7 x8 x9 x10 x11 x12 x13 x14 x15 x16 x17 x18 x19 x20 x21, look π { s with image := x0, time := x1, tt := x2, inp := x3, gnss := x4, ref := x5, fus := x6, obs := x7, set := x8, ctl := x9, servoUndo := x10, alloc := x11, isl := x12, check := x13, sb := x14, lanes := x15, jx := x16, cons := x17, host := x18, log := x19, disp := x20, pow := x21 } = look π s) (s : State) (t : State) (he : execFaultRestart s = .next t) :
    look π t = look π s := by
  simp only [execFaultRestart, Host.Outcome.next.injEq] at he; subst he; repeat' (first | (simp [h]; done) | split)

@[simp ↓] theorem measureHoldup_only {α : Type} (π : State → α) (h : ∀ s x0 x1 x2, look π { s with host := x0, log := x1, pow := x2 } = look π s) (pct : Nat) (s : State) :
    look π (measureHoldup pct s) = look π s := by
  simp only [measureHoldup]; repeat' (first | (simp [h]; done) | split)

@[simp ↓] theorem bootIslands_only {α : Type} (π : State → α) (h : ∀ s x0, look π { s with isl := x0 } = look π s) (bad : List Nat) (s : State) :
    look π (bootIslands bad s) = look π s := by
  simp [bootIslands, h]

@[simp ↓] theorem bootLanes_only {α : Type} (π : State → α) (h : ∀ s x0 x1 x2 x3 x4 x5 x6, look π { s with tt := x0, inp := x1, lanes := x2, cons := x3, host := x4, log := x5, pow := x6 } = look π s) (ok : Lane3 Bool) (s : State) :
    look π (bootLanes ok s) = look π s := by
  simp only [bootLanes]; repeat' (first | (simp [h]; done) | (refine (look_foldl π _ ?_ _ _).trans ?_) | split | intro _ | simp [takeNat, takeQty, h])

@[simp ↓] theorem bootImage_only {α : Type} (π : State → α) (h : ∀ s x0 x1 x2 x3 x4 x5 x6 x7 x8 x9 x10 x11 x12 x13, look π { s with image := x0, time := x1, tt := x2, gnss := x3, ref := x4, obs := x5, ctl := x6, alloc := x7, isl := x8, sb := x9, host := x10, log := x11, disp := x12, pow := x13 } = look π s) (s : State) :
    look π (bootImage s) = look π s := by
  simp only [bootImage]; repeat' (first | (simp [h]; done) | split)

@[simp ↓] theorem bootSteps_only {α : Type} (π : State → α) (h : ∀ s x0 x1 x2 x3 x4 x5 x6 x7 x8 x9 x10 x11 x12 x13 x14 x15 x16 x17, look π { s with image := x0, mram := x1, time := x2, tt := x3, inp := x4, gnss := x5, ref := x6, obs := x7, ctl := x8, alloc := x9, isl := x10, sb := x11, lanes := x12, cons := x13, host := x14, log := x15, disp := x16, pow := x17 } = look π s) (b : BootOut) (s : State) :
    look π (bootSteps b s) = look π s := by
  simp only [bootSteps]; repeat' (first | (simp [h]; done) | split)

@[simp ↓] theorem bootReady_only {α : Type} (π : State → α) (h : ∀ s x0 x1 x2 x3, look π { s with cons := x0, host := x1, log := x2, pow := x3 } = look π s) (b : BootOut) (s : State) :
    look π (bootReady b s) = look π s := by
  simp [bootReady, h]

theorem execBootComplete_only {α : Type} (π : State → α) (h : ∀ s x0 x1 x2 x3 x4 x5 x6 x7 x8 x9 x10 x11 x12 x13 x14 x15 x16 x17, look π { s with image := x0, mram := x1, time := x2, tt := x3, inp := x4, gnss := x5, ref := x6, obs := x7, ctl := x8, alloc := x9, isl := x10, sb := x11, lanes := x12, cons := x13, host := x14, log := x15, disp := x16, pow := x17 } = look π s) (b : BootOut) (s : State) (t : State) (he : execBootComplete b s = .next t) :
    look π t = look π s := by
  simp only [execBootComplete, Host.Outcome.next.injEq] at he; subst he; repeat' (first | (simp [h]; done) | split)

@[simp ↓] theorem snapPower_only {α : Type} (π : State → α) (h : ∀ s x0 x1, look π { s with free := x0, host := x1 } = look π s) (s : State) :
    look π (snapPower s) = look π s := by
  simp only [snapPower]; repeat' (first | (simp [h]; done) | (refine (look_foldl π _ ?_ _ _).trans ?_) | split | intro _ | simp [takeNat, takeQty, h])

@[simp ↓] theorem powerStatusSpec_only {α : Type} (π : State → α) (k : Nat) (p : Packet) (s : State) :
    look π (powerStatusSpec.run k p s).state = look π s := by
  simp [powerStatusSpec, fail]

theorem execPowerStatus_only {α : Type} (π : State → α) (h : ∀ s x0 x1 x2, look π { s with tt := x0, cons := x1, host := x2 } = look π s) (p : Packet) (s : State) (t : State) (he : execPowerStatus p s = .next t) :
    look π t = look π s := by
  simp only [execPowerStatus, Host.Outcome.next.injEq] at he; subst he; exact processPacket_only π _ _ _ (by simp [h]) (fun _ _ _ => by simp [h])

@[simp ↓] theorem powerModeSpec_only {α : Type} (π : State → α) (h : ∀ s x0, look π { s with host := x0 } = look π s) (k : Nat) (p : Packet) (s : State) :
    look π (powerModeSpec.run k p s).state = look π s := by
  simp only [powerModeSpec, fail]; repeat' (first | (simp [h, fail]; done) | split)

theorem execPowerMode_only {α : Type} (π : State → α) (h : ∀ s x0 x1 x2, look π { s with tt := x0, cons := x1, host := x2 } = look π s) (p : Packet) (s : State) (t : State) (he : execPowerMode p s = .next t) :
    look π t = look π s := by
  simp only [execPowerMode, Host.Outcome.next.injEq] at he; subst he; exact processPacket_only π _ _ _ (by simp [h]) (fun _ _ _ => by simp [h])

@[simp ↓] theorem applyPower_only {α : Type} (π : State → α) (h : ∀ s x0 x1 x2 x3 x4 x5 x6 x7 x8 x9 x10 x11 x12 x13 x14 x15 x16 x17 x18 x19 x20 x21, look π { s with image := x0, time := x1, tt := x2, inp := x3, gnss := x4, ref := x5, fus := x6, obs := x7, set := x8, ctl := x9, servoUndo := x10, alloc := x11, isl := x12, check := x13, sb := x14, lanes := x15, jx := x16, cons := x17, host := x18, log := x19, disp := x20, pow := x21 } = look π s) (op : Nat) (s : State) :
    look π (applyPower op s) = look π s := by
  simp only [applyPower]; repeat' (first | (simp [h]; done) | split)


/-! ### Machine/Takeover.lean -/

@[simp ↓] theorem bootSettings_only {α : Type} (π : State → α) (h : ∀ s x0 x1 x2 x3 x4, look π { s with time := x0, tt := x1, gnss := x2, host := x3, log := x4 } = look π s) (s : State) :
    look π (bootSettings s) = look π s := by
  simp [bootSettings, h]

@[simp ↓] theorem beginTake_only {α : Type} (π : State → α) (h : ∀ s x0 x1 x2 x3 x4 x5 x6 x7 x8 x9 x10 x11 x12 x13, look π { s with mram := x0, time := x1, tt := x2, gnss := x3, ctl := x4, isl := x5, check := x6, lanes := x7, jx := x8, cons := x9, host := x10, log := x11, disp := x12, pow := x13 } = look π s) (reason : Nat) (s : State) :
    look π (beginTake reason s) = look π s := by
  simp [beginTake, h]

theorem execTakeoverStart_only {α : Type} (π : State → α) (h : ∀ s x0 x1 x2 x3 x4 x5 x6 x7 x8 x9 x10 x11 x12 x13, look π { s with mram := x0, time := x1, tt := x2, gnss := x3, ctl := x4, isl := x5, check := x6, lanes := x7, jx := x8, cons := x9, host := x10, log := x11, disp := x12, pow := x13 } = look π s) (s : State) (t : State) (he : execTakeoverStart s = .next t) :
    look π t = look π s := by
  simp only [execTakeoverStart, Host.Outcome.next.injEq] at he; subst he; repeat' (first | (simp [h]; done) | split)

@[simp ↓] theorem restoreWrites_only {α : Type} (π : State → α) (h : ∀ s x0 x1 x2 x3, look π { s with time := x0, gnss := x1, host := x2, log := x3 } = look π s) (g : Slow) (s : State) :
    look π (restoreWrites g s) = look π s := by
  simp [restoreWrites, h]

@[simp ↓] theorem restoreFrom_only {α : Type} (π : State → α) (h : ∀ s x0 x1 x2 x3 x4 x5 x6 x7 x8 x9 x10 x11, look π { s with time := x0, gnss := x1, ref := x2, fus := x3, obs := x4, set := x5, ctl := x6, alloc := x7, isl := x8, cons := x9, host := x10, log := x11 } = look π s) (f : Fast) (g : Slow) (s : State) :
    look π (restoreFrom f g s) = look π s := by
  simp [restoreFrom, h]

@[simp ↓] theorem restoreCold_only {α : Type} (π : State → α) (h : ∀ s x0 x1 x2 x3 x4 x5 x6, look π { s with ref := x0, fus := x1, obs := x2, set := x3, ctl := x4, alloc := x5, cons := x6 } = look π s) (s : State) :
    look π (restoreCold s) = look π s := by
  simp [restoreCold, h]

@[simp ↓] theorem restore_only {α : Type} (π : State → α) (h : ∀ s x0 x1 x2 x3 x4 x5 x6 x7 x8 x9 x10 x11, look π { s with time := x0, gnss := x1, ref := x2, fus := x3, obs := x4, set := x5, ctl := x6, alloc := x7, isl := x8, cons := x9, host := x10, log := x11 } = look π s) (s : State) :
    look π (restore s) = look π s := by
  simp only [restore]; repeat' (first | (simp [h]; done) | split)

theorem execTakeoverRestore_only {α : Type} (π : State → α) (h : ∀ s x0 x1 x2 x3 x4 x5 x6 x7 x8 x9 x10 x11 x12 x13 x14 x15, look π { s with time := x0, tt := x1, inp := x2, gnss := x3, ref := x4, fus := x5, obs := x6, set := x7, ctl := x8, alloc := x9, isl := x10, lanes := x11, cons := x12, host := x13, log := x14, pow := x15 } = look π s) (x : RestoreIn) (s : State) (t : State) (he : execTakeoverRestore x s = .next t) :
    look π t = look π s := by
  simp only [execTakeoverRestore, Host.Outcome.next.injEq] at he; subst he; repeat' (first | (simp [h]; done) | (refine (look_foldl π _ ?_ _ _).trans ?_) | split | intro _ | simp [takeNat, takeQty, h])

@[simp ↓] theorem lanesEnter_only {α : Type} (π : State → α) (h : ∀ s x0, look π { s with lanes := x0 } = look π s) (s : State) :
    look π (lanesEnter s) = look π s := by
  simp [lanesEnter, h]

@[simp ↓] theorem takeLead_only {α : Type} (π : State → α) (h : ∀ s x0 x1 x2 x3 x4 x5 x6 x7 x8 x9 x10 x11, look π { s with time := x0, tt := x1, inp := x2, gnss := x3, obs := x4, set := x5, alloc := x6, lanes := x7, cons := x8, host := x9, log := x10, pow := x11 } = look π s) (reason : Nat) (s : State) :
    look π (takeLead reason s) = look π s := by
  simp only [takeLead]; repeat' (first | (simp [h]; done) | split)

theorem execTakeoverFirstFrame_only {α : Type} (π : State → α) (h : ∀ s x0 x1 x2 x3 x4 x5 x6 x7 x8 x9 x10 x11, look π { s with time := x0, tt := x1, inp := x2, gnss := x3, obs := x4, set := x5, alloc := x6, lanes := x7, cons := x8, host := x9, log := x10, pow := x11 } = look π s) (s : State) (t : State) (he : execTakeoverFirstFrame s = .next t) :
    look π t = look π s := by
  simp only [execTakeoverFirstFrame, Host.Outcome.next.injEq] at he; subst he; repeat' (first | (simp [h]; done) | split)

@[simp ↓] theorem takeComplete_only {α : Type} (π : State → α) (h : ∀ s x0 x1 x2, look π { s with cons := x0, host := x1, log := x2 } = look π s) (s : State) :
    look π (takeComplete s) = look π s := by
  simp [takeComplete, h]

theorem execTakeoverCapture_only {α : Type} (π : State → α) (h : ∀ s x0 x1 x2, look π { s with cons := x0, host := x1, log := x2 } = look π s) (s : State) (t : State) (he : execTakeoverCapture s = .next t) :
    look π t = look π s := by
  simp only [execTakeoverCapture, Host.Outcome.next.injEq] at he; subst he; repeat' (first | (simp [h]; done) | split)

theorem execTransferShadowEnd_only {α : Type} (π : State → α) (h : ∀ s x0 x1 x2 x3 x4 x5 x6 x7 x8 x9 x10 x11 x12 x13 x14 x15, look π { s with time := x0, tt := x1, inp := x2, gnss := x3, ref := x4, fus := x5, obs := x6, set := x7, ctl := x8, alloc := x9, isl := x10, lanes := x11, cons := x12, host := x13, log := x14, pow := x15 } = look π s) (s : State) (t : State) (he : execTransferShadowEnd s = .next t) :
    look π t = look π s := by
  simp only [execTransferShadowEnd, Host.Outcome.next.injEq] at he; subst he; repeat' (first | (simp [h]; done) | split)

theorem execTransferRelease_only {α : Type} (π : State → α) (h : ∀ s x0 x1 x2 x3 x4 x5 x6 x7 x8 x9 x10 x11, look π { s with time := x0, tt := x1, inp := x2, gnss := x3, ctl := x4, isl := x5, check := x6, lanes := x7, cons := x8, host := x9, log := x10, pow := x11 } = look π s) (s : State) (t : State) (he : execTransferRelease s = .next t) :
    look π t = look π s := by
  simp only [execTransferRelease, Host.Outcome.next.injEq] at he; subst he; repeat' (first | (simp [h]; done) | split)

theorem execTransferAbort_only {α : Type} (π : State → α) (h : ∀ s x0 x1 x2 x3 x4 x5 x6 x7 x8 x9, look π { s with time := x0, tt := x1, inp := x2, gnss := x3, isl := x4, lanes := x5, cons := x6, host := x7, log := x8, pow := x9 } = look π s) (s : State) (t : State) (he : execTransferAbort s = .next t) :
    look π t = look π s := by
  simp only [execTransferAbort, Host.Outcome.next.injEq] at he; subst he; repeat' (first | (simp [h]; done) | split)


/-! ### Machine/Host.lean -/

@[simp ↓] theorem refuseAtArrival_only {α : Type} (π : State → α) (h : ∀ s x0 x1 x2, look π { s with tt := x0, cons := x1, host := x2 } = look π s) (p : Packet) (status : Nat) (s : State) :
    look π (refuseAtArrival p status s) = look π s := by
  simp only [refuseAtArrival]; repeat' (first | (simp [h]; done) | split)

@[simp ↓] theorem joinSet_only {α : Type} (π : State → α) (h : ∀ s x0 x1 x2 x3 x4, look π { s with tt := x0, inp := x1, cons := x2, host := x3, log := x4 } = look π s) (link : Nat) (p : Packet) (s : State) :
    look π (joinSet link p s) = look π s := by
  simp only [joinSet]; repeat' (first | (simp [h]; done) | split)

@[simp ↓] theorem relayTo_only {α : Type} (π : State → α) (h : ∀ s x0 x1 x2, look π { s with tt := x0, cons := x1, host := x2 } = look π s) (k : Nat) (p : Packet) (s : State) :
    look π (relayTo k p s) = look π s := by
  simp only [relayTo]; repeat' (first | (simp [h]; done) | split)

@[simp ↓] theorem arrivePacket_only {α : Type} (π : State → α) (h : ∀ s x0 x1 x2 x3 x4, look π { s with tt := x0, inp := x1, cons := x2, host := x3, log := x4 } = look π s) (link : Nat) (p : Packet) (s : State) :
    look π (arrivePacket link p s) = look π s := by
  simp only [arrivePacket]; repeat' (first | (simp [h]; done) | split)

theorem execCommandDatagram_only {α : Type} (π : State → α) (h : ∀ s x0 x1 x2 x3 x4, look π { s with tt := x0, inp := x1, cons := x2, host := x3, log := x4 } = look π s) (port : Nat) (d : Datagram) (s : State) (t : State) (he : execCommandDatagram port d s = .next t) :
    look π t = look π s := by
  simp only [execCommandDatagram, Host.Outcome.next.injEq] at he; subst he; repeat' (first | (simp [h]; done) | split)

@[simp ↓] theorem arriveRelayed_only {α : Type} (π : State → α) (h : ∀ s x0 x1 x2 x3 x4, look π { s with tt := x0, inp := x1, cons := x2, host := x3, log := x4 } = look π s) (east : Bool) (p : Packet) (entry : Nat) (s : State) :
    look π (arriveRelayed east p entry s) = look π s := by
  simp only [arriveRelayed]; repeat' (first | (simp [h]; done) | split)

@[simp ↓] theorem returnReply_only {α : Type} (π : State → α) (h : ∀ s x0 x1 x2, look π { s with tt := x0, cons := x1, host := x2 } = look π s) (b : List Byte) (s : State) :
    look π (returnReply b s) = look π s := by
  simp only [returnReply]; repeat' (first | (simp [h]; done) | split)

theorem execRelayRecordExpiry_only {α : Type} (π : State → α) (h : ∀ s x0, look π { s with host := x0 } = look π s) (index : Nat) (s : State) (t : State) (he : execRelayRecordExpiry index s = .next t) :
    look π t = look π s := by
  simp only [execRelayRecordExpiry, Host.Outcome.next.injEq] at he; subst he; repeat' (first | (simp [h]; done) | split)

@[simp ↓] theorem onQueue_only {α : Type} (π : State → α) (h : ∀ s x0, look π { s with host := x0 } = look π s) (q : Nat) (f : QueueSt → QueueSt) (s : State) :
    look π (onQueue q f s) = look π s := by
  simp [onQueue, h]

@[simp ↓] theorem fetchAll_only {α : Type} (π : State → α) (h : ∀ s x0 x1 x2 x3 x4, look π { s with tt := x0, inp := x1, cons := x2, host := x3, log := x4 } = look π s) (q : Nat) (f : FetchIn) (n : Nat) (s : State) :
    look π (fetchAll q f n s) = look π s := by
  simp only [fetchAll]; repeat' (first | (simp [h]; done) | (refine (look_foldl π _ ?_ _ _).trans ?_) | split | intro _ | simp [takeNat, takeQty, h])

theorem execQueueDoorbell_only {α : Type} (π : State → α) (h : ∀ s x0 x1 x2 x3 x4, look π { s with tt := x0, inp := x1, cons := x2, host := x3, log := x4 } = look π s) (queue tail : Nat) (f : FetchIn) (s : State) (t : State) (he : execQueueDoorbell queue tail f s = .next t) :
    look π t = look π s := by
  simp only [execQueueDoorbell, Host.Outcome.next.injEq] at he; subst he; repeat' (first | (simp [h]; done) | split)

theorem execQueueEnable_only {α : Type} (π : State → α) (h : ∀ s x0, look π { s with host := x0 } = look π s) (queue value : Nat) (s : State) (t : State) (he : execQueueEnable queue value s = .next t) :
    look π t = look π s := by
  simp only [execQueueEnable, Host.Outcome.next.injEq] at he; subst he; repeat' (first | (simp [h]; done) | split)

theorem execCompletionHeadWrite_only {α : Type} (π : State → α) (h : ∀ s x0, look π { s with host := x0 } = look π s) (queue value : Nat) (s : State) (t : State) (he : execCompletionHeadWrite queue value s = .next t) :
    look π t = look π s := by
  simp only [execCompletionHeadWrite, Host.Outcome.next.injEq] at he; subst he; repeat' (first | (simp [h]; done) | split)

@[simp ↓] theorem clearPend_only {α : Type} (π : State → α) (h : ∀ s x0, look π { s with host := x0 } = look π s) (high : Bool) (value : Nat) (s : State) :
    look π (clearPend high value s) = look π s := by
  simp [clearPend, h]

theorem execVecPendClear_only {α : Type} (π : State → α) (h : ∀ s x0, look π { s with host := x0 } = look π s) (high : Bool) (value : Nat) (s : State) (t : State) (he : execVecPendClear high value s = .next t) :
    look π t = look π s := by
  simp only [execVecPendClear, Host.Outcome.next.injEq] at he; subst he; repeat' (first | (simp [h]; done) | split)

theorem execVecTest_only {α : Type} (π : State → α) (h : ∀ s x0, look π { s with host := x0 } = look π s) (value : Nat) (s : State) (t : State) (he : execVecTest value s = .next t) :
    look π t = look π s := by
  simp only [execVecTest, Host.Outcome.next.injEq] at he; subst he; repeat' (first | (simp [h]; done) | split)

@[simp ↓] theorem unmask_only {α : Type} (π : State → α) (h : ∀ s x0, look π { s with host := x0 } = look π s) (v : Nat) (s : State) :
    look π (unmask v s) = look π s := by
  simp only [unmask]; repeat' (first | (simp [h]; done) | split)

@[simp ↓] theorem writeMsix_only {α : Type} (π : State → α) (h : ∀ s x0, look π { s with host := x0 } = look π s) (k value : Nat) (s : State) :
    look π (writeMsix k value s) = look π s := by
  simp [writeMsix, h]

@[simp ↓] theorem writeReg_only {α : Type} (π : State → α) (h : ∀ s x0 x1 x2, look π { s with time := x0, host := x1, log := x2 } = look π s) (off value : Nat) (s : State) :
    look π (writeReg off value s) = look π s := by
  simp only [writeReg]; repeat' (first | (simp [h]; done) | split)

theorem execRegisterWrite_only {α : Type} (π : State → α) (h : ∀ s x0 x1 x2, look π { s with time := x0, host := x1, log := x2 } = look π s) (offset value : Nat) (s : State) (t : State) (he : execRegisterWrite offset value s = .next t) :
    look π t = look π s := by
  unfold execRegisterWrite at he; (repeat' split at he) <;> simp only [Host.Outcome.next.injEq, reduceCtorEq] at he <;> subst he <;> repeat' (first | (simp [h]; done) | (refine (look_foldl π _ ?_ _ _).trans ?_) | split | intro _ | simp [takeNat, takeQty, h])

@[simp ↓] theorem openSessionSpec_only {α : Type} (π : State → α) (h : ∀ s x0 x1, look π { s with host := x0, log := x1 } = look π s) (k : Nat) (p : Packet) (s : State) :
    look π (openSessionSpec.run k p s).state = look π s := by
  simp only [openSessionSpec, fail]; repeat' (first | (simp [h, fail]; done) | split)

theorem execOpenSession_only {α : Type} (π : State → α) (h : ∀ s x0 x1 x2 x3, look π { s with tt := x0, cons := x1, host := x2, log := x3 } = look π s) (p : Packet) (s : State) (t : State) (he : execOpenSession p s = .next t) :
    look π t = look π s := by
  simp only [execOpenSession, Host.Outcome.next.injEq] at he; subst he; exact processPacket_only π _ _ _ (by simp [h]) (fun _ _ _ => by simp [h])

@[simp ↓] theorem closeSessionSpec_only {α : Type} (π : State → α) (h : ∀ s x0 x1, look π { s with host := x0, log := x1 } = look π s) (k : Nat) (p : Packet) (s : State) :
    look π (closeSessionSpec.run k p s).state = look π s := by
  simp [closeSessionSpec, fail, h]

theorem execCloseSession_only {α : Type} (π : State → α) (h : ∀ s x0 x1 x2 x3, look π { s with tt := x0, cons := x1, host := x2, log := x3 } = look π s) (p : Packet) (s : State) (t : State) (he : execCloseSession p s = .next t) :
    look π t = look π s := by
  simp only [execCloseSession, Host.Outcome.next.injEq] at he; subst he; exact processPacket_only π _ _ _ (by simp [h]) (fun _ _ _ => by simp [h])

theorem execSessionTimeout_only {α : Type} (π : State → α) (h : ∀ s x0 x1, look π { s with host := x0, log := x1 } = look π s) (slot : Nat) (s : State) (t : State) (he : execSessionTimeout slot s = .next t) :
    look π t = look π s := by
  simp only [execSessionTimeout, Host.Outcome.next.injEq] at he; subst he; repeat' (first | (simp [h]; done) | split)

@[simp ↓] theorem onSlot_only {α : Type} (π : State → α) (h : ∀ s x0, look π { s with host := x0 } = look π s) (k tag : Nat) (f : Slot → Slot) (s : State) :
    look π (onSlot k tag f s) = look π s := by
  simp [onSlot, h]

@[simp ↓] theorem getResultSpec_only {α : Type} (π : State → α) (h : ∀ s x0, look π { s with host := x0 } = look π s) (k : Nat) (p : Packet) (s : State) :
    look π (getResultSpec.run k p s).state = look π s := by
  simp only [getResultSpec, fail]; repeat' (first | (simp [h, fail]; done) | split)

theorem execGetResult_only {α : Type} (π : State → α) (h : ∀ s x0 x1 x2, look π { s with tt := x0, cons := x1, host := x2 } = look π s) (p : Packet) (s : State) (t : State) (he : execGetResult p s = .next t) :
    look π t = look π s := by
  simp only [execGetResult, Host.Outcome.next.injEq] at he; subst he; exact processPacket_only π _ _ _ (by simp [h]) (fun _ _ _ => by simp [h])

@[simp ↓] theorem ackResultSpec_only {α : Type} (π : State → α) (h : ∀ s x0, look π { s with host := x0 } = look π s) (k : Nat) (p : Packet) (s : State) :
    look π (ackResultSpec.run k p s).state = look π s := by
  simp only [ackResultSpec, fail]; repeat' (first | (simp [h, fail]; done) | split)

theorem execAckResult_only {α : Type} (π : State → α) (h : ∀ s x0 x1 x2, look π { s with tt := x0, cons := x1, host := x2 } = look π s) (p : Packet) (s : State) (t : State) (he : execAckResult p s = .next t) :
    look π t = look π s := by
  simp only [execAckResult, Host.Outcome.next.injEq] at he; subst he; exact processPacket_only π _ _ _ (by simp [h]) (fun _ _ _ => by simp [h])

theorem execCompletionReply_only {α : Type} (π : State → α) (h : ∀ s x0 x1 x2, look π { s with tt := x0, cons := x1, host := x2 } = look π s) (slot tag : Nat) (s : State) (t : State) (he : execCompletionReply slot tag s = .next t) :
    look π t = look π s := by
  simp only [execCompletionReply, Host.Outcome.next.injEq] at he; subst he; repeat' (first | (simp [h]; done) | split)

@[simp ↓] theorem pingSpec_only {α : Type} (π : State → α) (k : Nat) (p : Packet) (s : State) :
    look π (pingSpec.run k p s).state = look π s := by
  simp [pingSpec, fail]

theorem execPing_only {α : Type} (π : State → α) (h : ∀ s x0 x1 x2, look π { s with tt := x0, cons := x1, host := x2 } = look π s) (p : Packet) (s : State) (t : State) (he : execPing p s = .next t) :
    look π t = look π s := by
  simp only [execPing, Host.Outcome.next.injEq] at he; subst he; exact processPacket_only π _ _ _ (by simp [h]) (fun _ _ _ => by simp [h])

@[simp ↓] theorem getIdentitySpec_only {α : Type} (π : State → α) (k : Nat) (p : Packet) (s : State) :
    look π (getIdentitySpec.run k p s).state = look π s := by
  simp [getIdentitySpec, fail]

theorem execGetIdentity_only {α : Type} (π : State → α) (h : ∀ s x0 x1 x2, look π { s with tt := x0, cons := x1, host := x2 } = look π s) (p : Packet) (s : State) (t : State) (he : execGetIdentity p s = .next t) :
    look π t = look π s := by
  simp only [execGetIdentity, Host.Outcome.next.injEq] at he; subst he; exact processPacket_only π _ _ _ (by simp [h]) (fun _ _ _ => by simp [h])

@[simp ↓] theorem getStateSpec_only {α : Type} (π : State → α) (k : Nat) (p : Packet) (s : State) :
    look π (getStateSpec.run k p s).state = look π s := by
  simp [getStateSpec, fail]

theorem execGetState_only {α : Type} (π : State → α) (h : ∀ s x0 x1 x2, look π { s with tt := x0, cons := x1, host := x2 } = look π s) (p : Packet) (s : State) (t : State) (he : execGetState p s = .next t) :
    look π t = look π s := by
  simp only [execGetState, Host.Outcome.next.injEq] at he; subst he; exact processPacket_only π _ _ _ (by simp [h]) (fun _ _ _ => by simp [h])

@[simp ↓] theorem setModeSpec_only {α : Type} (π : State → α) (h : ∀ s x0, look π { s with host := x0 } = look π s) (k : Nat) (p : Packet) (s : State) :
    look π (setModeSpec.run k p s).state = look π s := by
  simp only [setModeSpec, fail]; repeat' (first | (simp [h, fail]; done) | split)

theorem execSetMode_only {α : Type} (π : State → α) (h : ∀ s x0 x1 x2, look π { s with tt := x0, cons := x1, host := x2 } = look π s) (p : Packet) (s : State) (t : State) (he : execSetMode p s = .next t) :
    look π t = look π s := by
  simp only [execSetMode, Host.Outcome.next.injEq] at he; subst he; exact processPacket_only π _ _ _ (by simp [h]) (fun _ _ _ => by simp [h])

@[simp ↓] theorem onImgSlot_only {α : Type} (π : State → α) (h : ∀ s x0, look π { s with host := x0 } = look π s) (k : Nat) (f : ImgSlot → ImgSlot) (s : State) :
    look π (onImgSlot k f s) = look π s := by
  simp [onImgSlot, h]

@[simp ↓] theorem imageBeginSpec_only {α : Type} (π : State → α) (h : ∀ s x0, look π { s with host := x0 } = look π s) (k : Nat) (p : Packet) (s : State) :
    look π (imageBeginSpec.run k p s).state = look π s := by
  simp only [imageBeginSpec, fail]; repeat' (first | (simp [h, fail]; done) | split)

theorem execImageBegin_only {α : Type} (π : State → α) (h : ∀ s x0 x1 x2, look π { s with tt := x0, cons := x1, host := x2 } = look π s) (p : Packet) (s : State) (t : State) (he : execImageBegin p s = .next t) :
    look π t = look π s := by
  simp only [execImageBegin, Host.Outcome.next.injEq] at he; subst he; exact processPacket_only π _ _ _ (by simp [h]) (fun _ _ _ => by simp [h])

@[simp ↓] theorem acceptChunk_only {α : Type} (π : State → α) (h : ∀ s x0 x1 x2, look π { s with mram := x0, tt := x1, host := x2 } = look π s)
    (k : Nat) (p : Packet) (t : Transfer) (off : Nat) (data : List Byte) (s : State) :
    look π (acceptChunk k p t off data s).state = look π s := by
  unfold acceptChunk
  dsimp only
  split <;> rename_i g <;> have e := congrArg (fun x => look π x.2) g <;> simp [h] at e <;> simp [h, e]

@[simp ↓] theorem imageChunkSpec_only {α : Type} (π : State → α) (h : ∀ s x0 x1 x2, look π { s with mram := x0, tt := x1, host := x2 } = look π s) (ok : Bool) (k : Nat) (p : Packet) (s : State) :
    look π ((imageChunkSpec ok).run k p s).state = look π s := by
  simp only [imageChunkSpec, fail]; repeat' (first | (simp [h, fail]; done) | split)

theorem execImageChunk_only {α : Type} (π : State → α) (h : ∀ s x0 x1 x2 x3, look π { s with mram := x0, tt := x1, cons := x2, host := x3 } = look π s) (p : Packet) (readbackOk : Bool) (s : State) (t : State) (he : execImageChunk p readbackOk s = .next t) :
    look π t = look π s := by
  simp only [execImageChunk, Host.Outcome.next.injEq] at he; subst he; exact processPacket_only π _ _ _ (by simp [h]) (fun _ _ _ => by simp [h])

theorem execImageTransferAbandon_only {α : Type} (π : State → α) (h : ∀ s x0, look π { s with host := x0 } = look π s) (s : State) (t : State) (he : execImageTransferAbandon s = .next t) :
    look π t = look π s := by
  simp only [execImageTransferAbandon, Host.Outcome.next.injEq] at he; subst he; repeat' (first | (simp [h]; done) | split)

@[simp ↓] theorem imageCommitSpec_only {α : Type} (π : State → α) (h : ∀ s x0, look π { s with host := x0 } = look π s) (k : Nat) (p : Packet) (s : State) :
    look π (imageCommitSpec.run k p s).state = look π s := by
  simp only [imageCommitSpec, fail]; repeat' (first | (simp [h, fail]; done) | split)

theorem execImageCommit_only {α : Type} (π : State → α) (h : ∀ s x0 x1 x2, look π { s with tt := x0, cons := x1, host := x2 } = look π s) (p : Packet) (s : State) (t : State) (he : execImageCommit p s = .next t) :
    look π t = look π s := by
  simp only [execImageCommit, Host.Outcome.next.injEq] at he; subst he; exact processPacket_only π _ _ _ (by simp [h]) (fun _ _ _ => by simp [h])

@[simp ↓] theorem imageInfoSpec_only {α : Type} (π : State → α) (k : Nat) (p : Packet) (s : State) :
    look π (imageInfoSpec.run k p s).state = look π s := by
  simp [imageInfoSpec, fail]

theorem execImageInfo_only {α : Type} (π : State → α) (h : ∀ s x0 x1 x2, look π { s with tt := x0, cons := x1, host := x2 } = look π s) (p : Packet) (s : State) (t : State) (he : execImageInfo p s = .next t) :
    look π t = look π s := by
  simp only [execImageInfo, Host.Outcome.next.injEq] at he; subst he; exact processPacket_only π _ _ _ (by simp [h]) (fun _ _ _ => by simp [h])

end Sys2Proof.Machine
end

