-- ==== Sys2Proof/Laws/FrameRest.lean ====
section
/-! SUPPORT. The ring, the display, the timetable and the boundaries: what each operation leaves alone. A lemma `f_only` says that an
observation of the state which is blind to the parts named in its hypothesis is the same after `f` as before it. -/

set_option maxRecDepth 20000
set_option linter.unusedSimpArgs false
set_option linter.unusedVariables false
set_option linter.unusedTactic false
set_option linter.unreachableTactic false

namespace Sys2Proof.Machine

/-! ### Machine/Ring.lean -/

@[simp ↓] theorem onLink_only {α : Type} (π : State → α) (h : ∀ s x0, look π { s with cons := x0 } = look π s) (east : Bool) (f : LinkSt → LinkSt) (s : State) :
    look π (onLink east f s) = look π s := by
  simp [onLink, h]

@[simp ↓] theorem badMessage_only {α : Type} (π : State → α) (h : ∀ s x0, look π { s with cons := x0 } = look π s) (east : Bool) (m : RingMsg) (s : State) :
    look π (badMessage east m s) = look π s := by
  simp only [badMessage]; repeat' (first | (simp [h]; done) | split)

@[simp ↓] theorem goodMessage_only {α : Type} (π : State → α) (h : ∀ s x0, look π { s with cons := x0 } = look π s) (east : Bool) (s : State) :
    look π (goodMessage east s) = look π s := by
  simp [goodMessage, h]

@[simp ↓] theorem hopOn_only {α : Type} (π : State → α) (h : ∀ s x0, look π { s with free := x0 } = look π s) (east : Bool)
    (m : RingMsg) (s : State) : look π (hopOn east m s).2 = look π s := by
  unfold hopOn
  split <;> simp [takeNat, h]

@[simp ↓] theorem forwardMsg_only {α : Type} (π : State → α) (h : ∀ s x0 x1, look π { s with free := x0, cons := x1 } = look π s) (east : Bool) (m : RingMsg) (s : State) :
    look π (forwardMsg east m s) = look π s := by
  unfold forwardMsg
  refine look_ite rfl ?_
  simp [h]

@[simp ↓] theorem keepSeen_only {α : Type} (π : State → α) (h : ∀ s x0, look π { s with cons := x0 } = look π s) (m : RingMsg) (s : State) :
    look π (keepSeen m s) = look π s := by
  simp [keepSeen, h]

@[simp ↓] theorem discardCkpt_only {α : Type} (π : State → α) (h : ∀ s x0, look π { s with cons := x0 } = look π s) (s : State) :
    look π (discardCkpt s) = look π s := by
  simp [discardCkpt, h]

@[simp ↓] theorem receiveDelta_only {α : Type} (π : State → α) (h : ∀ s x0, look π { s with cons := x0 } = look π s) (frame epoch : Nat) (crcOk : Bool) (content : List Byte) (s : State) :
    look π (receiveDelta frame epoch crcOk content s) = look π s := by
  simp only [receiveDelta]; repeat' (first | (simp [h]; done) | split)

@[simp ↓] theorem abandonPieces_only {α : Type} (π : State → α) (h : ∀ s x0, look π { s with cons := x0 } = look π s) (s : State) :
    look π (abandonPieces s) = look π s := by
  simp only [abandonPieces]; repeat' (first | (simp [h]; done) | split)

@[simp ↓] theorem wholeImage_only {α : Type} (π : State → α) (h : ∀ s x0, look π { s with cons := x0 } = look π s) (s : State) :
    look π (wholeImage s) = look π s := by
  simp only [wholeImage]; repeat' (first | (simp [h]; done) | split)

@[simp ↓] theorem keepPiece_only {α : Type} (π : State → α) (h : ∀ s x0 x1 x2, look π { s with mram := x0, tt := x1, cons := x2 } = look π s) (index frame : Nat) (content : List Byte) (verified : Bool) (s : State) :
    look π (keepPiece index frame content verified s) = look π s := by
  simp [keepPiece, h]

@[simp ↓] theorem receivePiece_only {α : Type} (π : State → α) (h : ∀ s x0 x1 x2, look π { s with mram := x0, tt := x1, cons := x2 } = look π s) (index frame epoch : Nat) (crcOk : Bool) (content : List Byte) (verified : Bool) (s : State) :
    look π (receivePiece index frame epoch crcOk content verified s) = look π s := by
  simp only [receivePiece]; repeat' (first | (simp [h]; done) | split)

@[simp ↓] theorem receiveTime_only {α : Type} (π : State → α) (h : ∀ s x0 x1 x2, look π { s with time := x0, host := x1, log := x2 } = look π s) (east : Bool) (m : RingMsg) (sec ns : Nat) (corrPs : Int) (s : State) :
    look π (receiveTime east m sec ns corrPs s) = look π s := by
  simp only [receiveTime]; repeat' (first | (simp [h]; done) | split)

@[simp ↓] theorem joinRing_only {α : Type} (π : State → α) (h : ∀ s x0 x1 x2 x3, look π { s with tt := x0, inp := x1, host := x2, log := x3 } = look π s) (east : Bool) (m : RingMsg) (s : State) :
    look π (joinRing east m s) = look π s := by
  simp only [joinRing]; repeat' (first | (simp [h]; done) | split)

@[simp ↓] theorem leadTime_only {α : Type} (π : State → α) (h : ∀ s x0 x1 x2, look π { s with time := x0, host := x1, log := x2 } = look π s) (east : Bool) (m : RingMsg) (s : State) :
    look π (leadTime east m s) = look π s := by
  simp only [leadTime]; repeat' (first | (simp [h]; done) | split)

@[simp ↓] theorem takeBody_only {α : Type} (π : State → α) (h : ∀ s x0 x1 x2 x3 x4 x5 x6 x7 x8 x9, look π { s with mram := x0, time := x1, tt := x2, inp := x3, gnss := x4, lanes := x5, cons := x6, host := x7, log := x8, pow := x9 } = look π s) (east : Bool) (m : RingMsg) (verified : Bool) (s : State) :
    look π (takeBody east m verified s) = look π s := by
  simp only [takeBody]; repeat' (first | (simp [h]; done) | split)

@[simp ↓] theorem dropCopy_only {α : Type} (π : State → α) (h : ∀ s x0, look π { s with cons := x0 } = look π s) (east : Bool) (m : RingMsg) (s : State) :
    look π (dropCopy east m s) = look π s := by
  simp only [dropCopy]; repeat' (first | (simp [h]; done) | split)

@[simp ↓] theorem ownBack_only {α : Type} (π : State → α) (h : ∀ s x0 x1 x2 x3, look π { s with time := x0, cons := x1, host := x2, log := x3 } = look π s) (m : RingMsg) (s : State) :
    look π (ownBack m s) = look π s := by
  simp only [ownBack]; repeat' (first | (simp [h]; done) | split)

@[simp ↓] theorem receiveMsg_only {α : Type} (π : State → α) (h : ∀ s x0 x1 x2 x3 x4 x5 x6 x7 x8 x9 x10, look π { s with free := x0, mram := x1, time := x2, tt := x3, inp := x4, gnss := x5, lanes := x6, cons := x7, host := x8, log := x9, pow := x10 } = look π s) (east : Bool) (m : RingMsg) (verified : Bool) (s : State) :
    look π (receiveMsg east m verified s) = look π s := by
  simp only [receiveMsg]; repeat' (first | (simp [h]; done) | split)

theorem execRingMessage_only {α : Type} (π : State → α) (h : ∀ s x0 x1 x2 x3 x4 x5 x6 x7 x8 x9 x10, look π { s with free := x0, mram := x1, time := x2, tt := x3, inp := x4, gnss := x5, lanes := x6, cons := x7, host := x8, log := x9, pow := x10 } = look π s) (east : Bool) (x : RingIn) (s : State) (t : State) (he : execRingMessage east x s = .next t) :
    look π t = look π s := by
  simp only [execRingMessage, Host.Outcome.next.injEq] at he; subst he; repeat' (first | (simp [h]; done) | split)


/-! ### Machine/Display.lean -/

@[simp ↓] theorem dispEvent_only {α : Type} (π : State → α) (h : ∀ s x0 x1, look π { s with host := x0, log := x1 } = look π s) (event detail : Nat) (s : State) :
    look π (dispEvent event detail s) = look π s := by
  simp [dispEvent, h]

@[simp ↓] theorem onRegion_only {α : Type} (π : State → α) (h : ∀ s x0, look π { s with disp := x0 } = look π s) (r : Nat) (f : Region → Region) (s : State) :
    look π (onRegion r f s) = look π s := by
  simp [onRegion, h]

@[simp ↓] theorem renderFree_only {α : Type} (π : State → α) (h : ∀ s x0 x1, look π { s with free := x0, disp := x1 } = look π s) (r : Nat) (s : State) :
    look π (renderFree r s) = look π s := by
  simp only [renderFree]; repeat' (first | (simp [h]; done) | (refine (look_foldl π _ ?_ _ _).trans ?_) | split | intro _ | simp [takeNat, takeQty, h])

@[simp ↓] theorem setDead_only {α : Type} (π : State → α) (h : ∀ s x0 x1 x2, look π { s with host := x0, log := x1, disp := x2 } = look π s) (r : Nat) (on : Bool) (s : State) :
    look π (setDead r on s) = look π s := by
  simp only [setDead]; repeat' (first | (simp [h]; done) | split)

@[simp ↓] theorem supersede_only {α : Type} (π : State → α) (h : ∀ s x0 x1, look π { s with host := x0, disp := x1 } = look π s) (r : Nat) (s : State) :
    look π (supersede r s) = look π s := by
  simp only [supersede]; repeat' (first | (simp [h]; done) | split)

@[simp ↓] theorem promote_only {α : Type} (π : State → α) (h : ∀ s x0 x1, look π { s with host := x0, disp := x1 } = look π s) (r : Nat) (s : State) :
    look π (promote r s) = look π s := by
  simp only [promote]; repeat' (first | (simp [h]; done) | split)

@[simp ↓] theorem frameHost_only {α : Type} (π : State → α) (h : ∀ s x0 x1 x2, look π { s with host := x0, log := x1, disp := x2 } = look π s) (r : Nat) (s : State) :
    look π (frameHost r s) = look π s := by
  simp only [frameHost]; repeat' (first | (simp [h]; done) | split)

@[simp ↓] theorem frameModule_only {α : Type} (π : State → α) (h : ∀ s x0 x1 x2, look π { s with host := x0, log := x1, disp := x2 } = look π s) (r : Nat) (s : State) :
    look π (frameModule r s) = look π s := by
  simp only [frameModule]; repeat' (first | (simp [h]; done) | split)

@[simp ↓] theorem frameRegion_only {α : Type} (π : State → α) (h : ∀ s x0 x1 x2 x3, look π { s with free := x0, host := x1, log := x2, disp := x3 } = look π s) (s : State) (r : Nat) :
    look π (frameRegion s r) = look π s := by
  simp only [frameRegion]; repeat' (first | (simp [h]; done) | split)

@[simp ↓] theorem takeBand_only {α : Type} (π : State → α) (h : ∀ s x0 x1 x2, look π { s with host := x0, log := x1, disp := x2 } = look π s) (s : State) :
    look π (takeBand s) = look π s := by
  simp only [takeBand]; repeat' (first | (simp [h]; done) | split)

@[simp ↓] theorem measureCrack_only {α : Type} (π : State → α) (h : ∀ s x0, look π { s with disp := x0 } = look π s) (ohm : Nat) (s : State) :
    look π (measureCrack ohm s) = look π s := by
  simp [measureCrack, h]

@[simp ↓] theorem composeFrame_only {α : Type} (π : State → α) (h : ∀ s x0, look π { s with disp := x0 } = look π s) (s : State) :
    look π (composeFrame s) = look π s := by
  simp [composeFrame, h]

theorem execDisplayFrameStart_only {α : Type} (π : State → α) (h : ∀ s x0 x1 x2 x3, look π { s with free := x0, host := x1, log := x2, disp := x3 } = look π s) (crackOhm : Nat) (s : State) (t : State) (he : execDisplayFrameStart crackOhm s = .next t) :
    look π t = look π s := by
  simp only [execDisplayFrameStart, Host.Outcome.next.injEq] at he; subst he
  refine look_ite rfl ?_
  rw [composeFrame_only π (by simp [h])]
  refine (look_foldl π _ (fun s x => frameRegion_only π (by simp [h]) s x) _ _).trans ?_
  simp [h]

theorem execRegionHoldEnd_only {α : Type} (π : State → α) (h : ∀ s x0, look π { s with disp := x0 } = look π s) (region : Nat) (s : State) (t : State) (he : execRegionHoldEnd region s = .next t) :
    look π t = look π s := by
  simp only [execRegionHoldEnd, Host.Outcome.next.injEq] at he; subst he; repeat' (first | (simp [h]; done) | split)

theorem execRegionDead_only {α : Type} (π : State → α) (h : ∀ s x0 x1 x2, look π { s with host := x0, log := x1, disp := x2 } = look π s) (region : Nat) (s : State) (t : State) (he : execRegionDead region s = .next t) :
    look π t = look π s := by
  simp only [execRegionDead, Host.Outcome.next.injEq] at he; subst he; repeat' (first | (simp [h]; done) | split)

@[simp ↓] theorem renderModules_only {α : Type} (π : State → α) (h : ∀ s x0 x1 x2 x3, look π { s with free := x0, host := x1, log := x2, disp := x3 } = look π s) (s : State) :
    look π (renderModules s) = look π s := by
  unfold renderModules
  exact look_foldl π _ (fun s x => by split <;> simp [h]) _ _

theorem execGlassTemperatureSample_only {α : Type} (π : State → α) (h : ∀ s x0 x1 x2, look π { s with host := x0, log := x1, disp := x2 } = look π s) (temp : Option Qty) (s : State) (t : State) (he : execGlassTemperatureSample temp s = .next t) :
    look π t = look π s := by
  simp only [execGlassTemperatureSample, Host.Outcome.next.injEq] at he; subst he; repeat' (first | (simp [h]; done) | split)

@[simp ↓] theorem judgeBlank_only {α : Type} (π : State → α) (h : ∀ s x0 x1 x2, look π { s with host := x0, log := x1, disp := x2 } = look π s) (s : State) :
    look π (judgeBlank s) = look π s := by
  simp only [judgeBlank]; repeat' (first | (simp [h]; done) | split)

theorem execCrackDetected_only {α : Type} (π : State → α) (h : ∀ s x0 x1 x2, look π { s with host := x0, log := x1, disp := x2 } = look π s) (s : State) (t : State) (he : execCrackDetected s = .next t) :
    look π t = look π s := by
  simp only [execCrackDetected, Host.Outcome.next.injEq] at he; subst he; repeat' (first | (simp [h]; done) | split)

@[simp ↓] theorem dispRegionWriteSpec_only {α : Type} (π : State → α) (h : ∀ s x0 x1, look π { s with host := x0, disp := x1 } = look π s) (k : Nat) (p : Packet) (s : State) :
    look π (dispRegionWriteSpec.run k p s).state = look π s := by
  simp only [dispRegionWriteSpec, fail]; repeat' (first | (simp [h, fail]; done) | split)

theorem execDispRegionWrite_only {α : Type} (π : State → α) (h : ∀ s x0 x1 x2 x3, look π { s with tt := x0, cons := x1, host := x2, disp := x3 } = look π s) (p : Packet) (s : State) (t : State) (he : execDispRegionWrite p s = .next t) :
    look π t = look π s := by
  simp only [execDispRegionWrite, Host.Outcome.next.injEq] at he; subst he; exact processPacket_only π _ _ _ (by simp [h]) (fun _ _ _ => by simp [h])

@[simp ↓] theorem dispStatusSpec_only {α : Type} (π : State → α) (k : Nat) (p : Packet) (s : State) :
    look π (dispStatusSpec.run k p s).state = look π s := by
  simp [dispStatusSpec, fail]

theorem execDispStatus_only {α : Type} (π : State → α) (h : ∀ s x0 x1 x2, look π { s with tt := x0, cons := x1, host := x2 } = look π s) (p : Packet) (s : State) (t : State) (he : execDispStatus p s = .next t) :
    look π t = look π s := by
  simp only [execDispStatus, Host.Outcome.next.injEq] at he; subst he; exact processPacket_only π _ _ _ (by simp [h]) (fun _ _ _ => by simp [h])

@[simp ↓] theorem dispConfigSpec_only {α : Type} (π : State → α) (h : ∀ s x0, look π { s with host := x0 } = look π s) (k : Nat) (p : Packet) (s : State) :
    look π (dispConfigSpec.run k p s).state = look π s := by
  simp only [dispConfigSpec, fail]; repeat' (first | (simp [h, fail]; done) | split)

theorem execDispConfig_only {α : Type} (π : State → α) (h : ∀ s x0 x1 x2, look π { s with tt := x0, cons := x1, host := x2 } = look π s) (p : Packet) (s : State) (t : State) (he : execDispConfig p s = .next t) :
    look π t = look π s := by
  simp only [execDispConfig, Host.Outcome.next.injEq] at he; subst he; exact processPacket_only π _ _ _ (by simp [h]) (fun _ _ _ => by simp [h])

@[simp ↓] theorem applyDisp_only {α : Type} (π : State → α) (h : ∀ s x0 x1 x2, look π { s with host := x0, log := x1, disp := x2 } = look π s) (op action : Nat) (trim : Int) (temp : Nat) (s : State) :
    look π (applyDisp op action trim temp s) = look π s := by
  simp only [applyDisp]; repeat' (first | (simp [h]; done) | split)


/-! ### Machine/Timetable.lean -/

@[simp ↓] theorem missTracking_only {α : Type} (π : State → α) (h : ∀ s x0, look π { s with ref := x0 } = look π s) (s : State) :
    look π (missTracking s) = look π s := by
  unfold missTracking
  generalize ht : List.foldl _ _ _ = t
  have e : look π t = look π s := by
    rw [← ht]
    exact look_foldl π _ (fun s i => by split <;> simp [h]) _ _
  simp [h, e]

@[simp ↓] theorem holdEffect_only {α : Type} (π : State → α) (h : ∀ s x0 x1 x2 x3 x4 x5 x6 x7 x8 x9, look π { s with tt := x0, inp := x1, ref := x2, fus := x3, obs := x4, ctl := x5, servoUndo := x6, alloc := x7, host := x8, log := x9 } = look π s) (act : Nat) (s : State) :
    look π (holdEffect act s) = look π s := by
  simp only [holdEffect]; repeat' (first | (simp [h]; done) | split)

@[simp ↓] theorem passHeld_only {α : Type} (π : State → α) (h : ∀ s x0, look π { s with tt := x0 } = look π s) (act : Nat) (s : State) :
    look π (passHeld act s) = look π s := by
  simp only [passHeld]; repeat' (first | (simp [h]; done) | split)

@[simp ↓] theorem holdActivity_only {α : Type} (π : State → α) (h : ∀ s x0 x1 x2 x3 x4 x5 x6 x7 x8 x9 x10 x11, look π { s with free := x0, tt := x1, inp := x2, ref := x3, fus := x4, obs := x5, ctl := x6, servoUndo := x7, alloc := x8, lanes := x9, host := x10, log := x11 } = look π s) (act : Nat) (lanes full : List Lane) (s : State) :
    look π (holdActivity act lanes full s) = look π s := by
  simp only [holdActivity]; repeat' (first | (simp [h]; done) | split)

@[simp ↓] theorem fullCharge_only {α : Type} (π : State → α) (h : ∀ s x0, look π { s with tt := x0 } = look π s) (act : Nat) (lanes : List Lane) (s : State) :
    look π (fullCharge act lanes s) = look π s := by
  simp [fullCharge, h]

theorem execHeldAtSignal_only {α : Type} (π : State → α) (h : ∀ s x0 x1 x2 x3 x4 x5 x6 x7 x8 x9 x10 x11, look π { s with free := x0, tt := x1, inp := x2, ref := x3, fus := x4, obs := x5, ctl := x6, servoUndo := x7, alloc := x8, lanes := x9, host := x10, log := x11 } = look π s) (act : Nat) (held : Lane3 Bool) (s : State) (t : State) (he : execHeldAtSignal act held s = .next t) :
    look π t = look π s := by
  simp only [execHeldAtSignal, Host.Outcome.next.injEq] at he; subst he; repeat' (first | (simp [h]; done) | split)

theorem execOutcomeTimeout_only {α : Type} (π : State → α) (h : ∀ s x0 x1 x2 x3 x4 x5 x6 x7 x8 x9 x10 x11 x12 x13, look π { s with free := x0, tt := x1, inp := x2, ref := x3, fus := x4, obs := x5, ctl := x6, servoUndo := x7, alloc := x8, lanes := x9, cons := x10, host := x11, log := x12, pow := x13 } = look π s) (act : Nat) (lane : Lane) (s : State) (t : State) (he : execOutcomeTimeout act lane s = .next t) :
    look π t = look π s := by
  simp only [execOutcomeTimeout, Host.Outcome.next.injEq] at he; subst he; repeat' (first | (simp [h]; done) | split)

@[simp ↓] theorem notStarted_only {α : Type} (π : State → α) (h : ∀ s x0 x1 x2 x3 x4 x5 x6 x7 x8 x9, look π { s with tt := x0, inp := x1, ref := x2, fus := x3, obs := x4, ctl := x5, servoUndo := x6, alloc := x7, host := x8, log := x9 } = look π s) (s : State) (act : Nat) :
    look π (notStarted s act) = look π s := by
  simp [notStarted, h]

@[simp ↓] theorem closingFault_only {α : Type} (π : State → α) (h : ∀ s x0 x1 x2 x3 x4 x5 x6, look π { s with tt := x0, inp := x1, lanes := x2, cons := x3, host := x4, log := x5, pow := x6 } = look π s) (lanes : List Lane) (s : State) :
    look π (closingFault lanes s) = look π s := by
  simp only [closingFault]; repeat' (first | (simp [h]; done) | split)

theorem execChainClosingHold_only {α : Type} (π : State → α) (h : ∀ s x0 x1 x2 x3 x4 x5 x6 x7 x8 x9 x10 x11 x12 x13, look π { s with free := x0, tt := x1, inp := x2, ref := x3, fus := x4, obs := x5, ctl := x6, servoUndo := x7, alloc := x8, lanes := x9, cons := x10, host := x11, log := x12, pow := x13 } = look π s) (running : Lane3 Bool) (s : State) (t : State) (he : execChainClosingHold running s = .next t) :
    look π t = look π s := by
  simp only [execChainClosingHold, Host.Outcome.next.injEq] at he; subst he; repeat' (first | (simp [h]; done) | (refine (look_foldl π _ ?_ _ _).trans ?_) | split | intro _ | simp [takeNat, takeQty, h])

theorem execPersistentHold_only {α : Type} (π : State → α) (h : ∀ s x0 x1 x2 x3 x4, look π { s with lanes := x0, cons := x1, host := x2, log := x3, pow := x4 } = look π s) (act : Nat) (s : State) (t : State) (he : execPersistentHold act s = .next t) :
    look π t = look π s := by
  simp only [execPersistentHold, Host.Outcome.next.injEq] at he; subst he; repeat' (first | (simp [h]; done) | split)

theorem execHousekeeping_only {α : Type} (π : State → α) (h : ∀ s x0 x1 x2 x3 x4 x5 x6 x7 x8 x9 x10, look π { s with free := x0, tt := x1, inp := x2, servoUndo := x3, lanes := x4, jx := x5, cons := x6, host := x7, log := x8, disp := x9, pow := x10 } = look π s) (rep : Lane3 ItemReport) (found : ScrubIn) (s : State) (t : State) (he : execHousekeeping rep found s = .next t) :
    look π t = look π s := by
  simp only [execHousekeeping, Host.Outcome.next.injEq] at he; subst he; repeat' (first | (simp [h]; done) | split)

@[simp ↓] theorem writeChunk_only {α : Type} (π : State → α) (h : ∀ s x0 x1, look π { s with mram := x0, host := x1 } = look π s) (slot offset : Nat) (data : List Byte) (task : Task) (verified : Bool) (s : State) :
    look π (writeChunk slot offset data task verified s) = look π s := by
  simp only [writeChunk]; repeat' (first | (simp [h]; done) | split)

@[simp ↓] theorem releasePacket_only {α : Type} (π : State → α) (h : ∀ s x0 x1 x2, look π { s with tt := x0, cons := x1, host := x2 } = look π s) (id : Nat) (s : State) :
    look π (releasePacket id s) = look π s := by
  simp only [releasePacket]; repeat' (first | (simp [h]; done) | split)

@[simp ↓] theorem releaseOne_only {α : Type} (π : State → α) (h : ∀ s x0 x1 x2 x3 x4 x5 x6, look π { s with mram := x0, time := x1, tt := x2, gnss := x3, cons := x4, host := x5, pow := x6 } = look π s) (verified : Bool) (s : State) (w : Waiting) :
    look π (releaseOne verified s w) = look π s := by
  simp only [releaseOne]; repeat' (first | (simp [h]; done) | split)

theorem execDeferredTrafficRelease_only {α : Type} (π : State → α) (h : ∀ s x0 x1 x2 x3 x4 x5 x6, look π { s with mram := x0, time := x1, tt := x2, gnss := x3, cons := x4, host := x5, pow := x6 } = look π s) (x : ReleaseIn) (s : State) (t : State) (he : execDeferredTrafficRelease x s = .next t) :
    look π t = look π s := by
  simp only [execDeferredTrafficRelease, Host.Outcome.next.injEq] at he; subst he
  refine look_ite rfl ?_
  split
  · exact (look_foldl π _ (fun s w => releaseOne_only π (by simp [h]) _ s w) _ _).trans (by simp [h])
  · exact look_ite rfl ((look_foldl π _ (fun s w => releaseOne_only π (by simp [h]) _ s w) _ _).trans (by simp [h]))
  · exact (look_foldl π _ (fun s w => releaseOne_only π (by simp [h]) _ s w) _ _).trans (by simp [h])

@[simp ↓] theorem timetableStatusSpec_only {α : Type} (π : State → α) (k : Nat) (p : Packet) (s : State) :
    look π (timetableStatusSpec.run k p s).state = look π s := by
  simp [timetableStatusSpec, fail]

theorem execTimetableStatus_only {α : Type} (π : State → α) (h : ∀ s x0 x1 x2, look π { s with tt := x0, cons := x1, host := x2 } = look π s) (p : Packet) (s : State) (t : State) (he : execTimetableStatus p s = .next t) :
    look π t = look π s := by
  simp only [execTimetableStatus, Host.Outcome.next.injEq] at he; subst he; exact processPacket_only π _ _ _ (by simp [h]) (fun _ _ _ => by simp [h])

@[simp ↓] theorem timetableCountersSpec_only {α : Type} (π : State → α) (h : ∀ s x0, look π { s with host := x0 } = look π s) (k : Nat) (p : Packet) (s : State) :
    look π (timetableCountersSpec.run k p s).state = look π s := by
  simp only [timetableCountersSpec, fail]; repeat' (first | (simp [h, fail]; done) | split)

theorem execTimetableCounters_only {α : Type} (π : State → α) (h : ∀ s x0 x1 x2, look π { s with tt := x0, cons := x1, host := x2 } = look π s) (p : Packet) (s : State) (t : State) (he : execTimetableCounters p s = .next t) :
    look π t = look π s := by
  simp only [execTimetableCounters, Host.Outcome.next.injEq] at he; subst he; exact processPacket_only π _ _ _ (by simp [h]) (fun _ _ _ => by simp [h])


/-! ### Machine/Effects.lean -/

@[simp ↓] theorem publishState_only {α : Type} (π : State → α) (h : ∀ s x0 x1, look π { s with ref := x0, host := x1 } = look π s) (s : State) :
    look π (publishState s) = look π s := by
  simp [publishState, h]

@[simp ↓] theorem applyOne_only {α : Type} (π : State → α) (h : ∀ s x0 x1 x2 x3 x4 x5 x6 x7 x8 x9 x10 x11 x12 x13 x14 x15 x16 x17 x18 x19 x20 x21, look π { s with image := x0, time := x1, tt := x2, inp := x3, gnss := x4, ref := x5, fus := x6, obs := x7, set := x8, ctl := x9, servoUndo := x10, alloc := x11, isl := x12, check := x13, sb := x14, lanes := x15, jx := x16, cons := x17, host := x18, log := x19, disp := x20, pow := x21 } = look π s)
    (s : State) (d : Deferred) : look π (applyOne s d) = look π s := by
  cases d <;> simp [applyOne, h]

theorem execDeferredCommandEffect_only {α : Type} (π : State → α) (h : ∀ s x0 x1 x2 x3 x4 x5 x6 x7 x8 x9 x10 x11 x12 x13 x14 x15 x16 x17 x18 x19 x20 x21, look π { s with image := x0, time := x1, tt := x2, inp := x3, gnss := x4, ref := x5, fus := x6, obs := x7, set := x8, ctl := x9, servoUndo := x10, alloc := x11, isl := x12, check := x13, sb := x14, lanes := x15, jx := x16, cons := x17, host := x18, log := x19, disp := x20, pow := x21 } = look π s) (s : State) (t : State) (he : execDeferredCommandEffect s = .next t) :
    look π t = look π s := by
  simp only [execDeferredCommandEffect, Host.Outcome.next.injEq] at he; subst he
  refine look_ite ?_ rfl
  rw [publishState_only π (by simp [h]), redoServo_only π (by simp [h])]
  exact (look_foldl π _ (fun s d => applyOne_only π (by simp [h]) s d) _ _).trans (by simp [h])


/-! ### Machine/Service.lean -/

theorem opTable1_only {α : Type} (π : State → α)
    (h : ∀ s x0 x1 x2 x3 x4 x5 x6 x7 x8 x9 x10 x11 x12 x13 x14 x15 x16 x17 x18, look π { s with free := x0, mram := x1, time := x2, tt := x3, inp := x4, gnss := x5, fus := x6, ctl := x7, servoUndo := x8, alloc := x9, isl := x10, check := x11, sb := x12, lanes := x13, cons := x14, host := x15, log := x16, disp := x17, pow := x18 } = look π s)
    (op : Nat) (o : OpSpec) (g : opTable1 op = some o) (k : Nat) (p : Packet) (s : State) :
    look π (o.run k p s).state = look π s := by
  unfold opTable1 at g
  split at g <;> simp only [Option.some.injEq, reduceCtorEq] at g <;> subst g <;> simp [h]

theorem opTable2_only {α : Type} (π : State → α)
    (h : ∀ s x0 x1 x2 x3 x4 x5 x6 x7 x8 x9 x10 x11 x12 x13 x14 x15 x16 x17 x18, look π { s with free := x0, mram := x1, time := x2, tt := x3, inp := x4, gnss := x5, fus := x6, ctl := x7, servoUndo := x8, alloc := x9, isl := x10, check := x11, sb := x12, lanes := x13, cons := x14, host := x15, log := x16, disp := x17, pow := x18 } = look π s)
    (op : Nat) (o : OpSpec) (g : opTable2 op = some o) (k : Nat) (p : Packet) (s : State) :
    look π (o.run k p s).state = look π s := by
  unfold opTable2 at g
  split at g <;> simp only [Option.some.injEq, reduceCtorEq] at g <;> subst g <;> simp [h]

theorem opTable3_only {α : Type} (π : State → α)
    (h : ∀ s x0 x1 x2 x3 x4 x5 x6 x7 x8 x9 x10 x11 x12 x13 x14 x15 x16 x17 x18, look π { s with free := x0, mram := x1, time := x2, tt := x3, inp := x4, gnss := x5, fus := x6, ctl := x7, servoUndo := x8, alloc := x9, isl := x10, check := x11, sb := x12, lanes := x13, cons := x14, host := x15, log := x16, disp := x17, pow := x18 } = look π s)
    (op : Nat) (o : OpSpec) (g : opTable3 op = some o) (k : Nat) (p : Packet) (s : State) :
    look π (o.run k p s).state = look π s := by
  unfold opTable3 at g
  split at g <;> simp only [Option.some.injEq, reduceCtorEq] at g <;> subst g <;> simp [h]

/-- What no opcode of Table 12-18 changes. -/
theorem opTable_only {α : Type} (π : State → α)
    (h : ∀ s x0 x1 x2 x3 x4 x5 x6 x7 x8 x9 x10 x11 x12 x13 x14 x15 x16 x17 x18, look π { s with free := x0, mram := x1, time := x2, tt := x3, inp := x4, gnss := x5, fus := x6, ctl := x7, servoUndo := x8, alloc := x9, isl := x10, check := x11, sb := x12, lanes := x13, cons := x14, host := x15, log := x16, disp := x17, pow := x18 } = look π s)
    (op : Nat) (o : OpSpec) (g : opTable op = some o) (k : Nat) (p : Packet) (s : State) :
    look π (o.run k p s).state = look π s := by
  unfold opTable at g
  split at g
  · exact opTable1_only π h op o g k p s
  · split at g
    · exact opTable2_only π h op o g k p s
    · exact opTable3_only π h op o g k p s

@[simp ↓] theorem processOne_only {α : Type} (π : State → α) (h : ∀ s x0 x1 x2 x3 x4 x5 x6 x7 x8 x9 x10 x11 x12 x13 x14 x15 x16 x17 x18, look π { s with free := x0, mram := x1, time := x2, tt := x3, inp := x4, gnss := x5, fus := x6, ctl := x7, servoUndo := x8, alloc := x9, isl := x10, check := x11, sb := x12, lanes := x13, cons := x14, host := x15, log := x16, disp := x17, pow := x18 } = look π s) (s : State) (p : Packet) :
    look π (processOne s p) = look π s := by
  unfold processOne
  cases g : opTable p.opcode with
  | none => exact processPacket_none_only π p s (by simp [h])
  | some o => exact processPacket_only π o p s (by simp [h]) (opTable_only π h p.opcode o g)

theorem execHostService_only {α : Type} (π : State → α) (h : ∀ s x0 x1 x2 x3 x4 x5 x6 x7 x8 x9 x10 x11 x12 x13 x14 x15 x16 x17 x18, look π { s with free := x0, mram := x1, time := x2, tt := x3, inp := x4, gnss := x5, fus := x6, ctl := x7, servoUndo := x8, alloc := x9, isl := x10, check := x11, sb := x12, lanes := x13, cons := x14, host := x15, log := x16, disp := x17, pow := x18 } = look π s) (rep : Lane3 ItemReport) (s : State) (t : State) (he : execHostService rep s = .next t) :
    look π t = look π s := by
  simp only [execHostService, Host.Outcome.next.injEq] at he; subst he
  refine look_ite ?_ rfl
  rw [chargeLeast_only π (by simp [h]), endItems_only π (by simp [h])]
  exact (look_foldl π _ (fun s p => processOne_only π h s p) _ _).trans (by simp [h])

theorem execResponder_only {α : Type} (π : State → α) (h : ∀ s x0 x1 x2 x3 x4 x5 x6 x7 x8 x9 x10 x11 x12 x13 x14 x15 x16 x17 x18, look π { s with free := x0, mram := x1, time := x2, tt := x3, inp := x4, gnss := x5, fus := x6, ctl := x7, servoUndo := x8, alloc := x9, isl := x10, check := x11, sb := x12, lanes := x13, cons := x14, host := x15, log := x16, disp := x17, pow := x18 } = look π s) (s : State) (t : State) (he : execResponder s = .next t) :
    look π t = look π s := by
  simp only [execResponder, Host.Outcome.next.injEq] at he; subst he
  refine look_ite ?_ rfl
  exact (look_foldl π _ (fun s p => processOne_only π h s p) _ _).trans (by simp [h])


/-! ### Machine/Tick.lean -/

@[simp ↓] theorem tickOn_only {α : Type} (π : State → α) (h : ∀ s x0, look π { s with time := x0 } = look π s) (s : State) :
    look π (tickOn s) = look π s := by
  simp only [tickOn]; repeat' (first | (simp [h]; done) | split)

@[simp ↓] theorem advance_only {α : Type} (π : State → α) (h : ∀ s x0 x1 x2 x3, look π { s with mono := x0, time := x1, tt := x2, ctl := x3 } = look π s) (s : State) :
    look π (advance s) = look π s := by
  simp only [advance]; repeat' (first | (simp [h]; done) | split)

@[simp ↓] theorem closeFrameSet_only {α : Type} (π : State → α) (h : ∀ s x0 x1 x2 x3, look π { s with tt := x0, inp := x1, host := x2, log := x3 } = look π s) (s : State) :
    look π (closeFrameSet s) = look π s := by
  simp only [closeFrameSet]; repeat' (first | (simp [h]; done) | (refine (look_foldl π _ ?_ _ _).trans ?_) | split | intro _ | simp [takeNat, takeQty, h])

@[simp ↓] theorem refillBudgets_only {α : Type} (π : State → α) (h : ∀ s x0, look π { s with tt := x0 } = look π s) (s : State) :
    look π (refillBudgets s) = look π s := by
  simp [refillBudgets, h]

@[simp ↓] theorem stampBoundary_only {α : Type} (π : State → α) (h : ∀ s x0, look π { s with tt := x0 } = look π s) (s : State) :
    look π (stampBoundary s) = look π s := by
  simp [stampBoundary, h]

@[simp ↓] theorem takeFull_only {α : Type} (π : State → α) (h : ∀ s x0, look π { s with cons := x0 } = look π s) (s : State) :
    look π (takeFull s) = look π s := by
  simp only [takeFull]; repeat' (first | (simp [h]; done) | split)

@[simp ↓] theorem countFrame_only {α : Type} (π : State → α) (h : ∀ s x0 x1, look π { s with obs := x0, cons := x1 } = look π s) (s : State) :
    look π (countFrame s) = look π s := by
  simp [countFrame, h]

@[simp ↓] theorem newFrame_only {α : Type} (π : State → α) (h : ∀ s x0 x1 x2 x3 x4, look π { s with free := x0, tt := x1, inp := x2, ref := x3, host := x4 } = look π s) (s : State) :
    look π (newFrame s) = look π s := by
  simp only [newFrame]
  rw [h]
  exact (look_foldl π _ (fun s i => by split <;> simp [h]) _ _).trans (by simp [takeNat, h])

@[simp ↓] theorem judgeSafeStop_only {α : Type} (π : State → α) (h : ∀ s x0 x1 x2 x3 x4 x5 x6 x7, look π { s with set := x0, ctl := x1, alloc := x2, isl := x3, check := x4, host := x5, log := x6, pow := x7 } = look π s) (s : State) :
    look π (judgeSafeStop s) = look π s := by
  simp only [judgeSafeStop]; repeat' (first | (simp [h]; done) | split)

@[simp ↓] theorem judgeTests_only {α : Type} (π : State → α) (h : ∀ s x0 x1 x2 x3 x4, look π { s with ctl := x0, isl := x1, check := x2, host := x3, log := x4 } = look π s) (s : State) :
    look π (judgeTests s) = look π s := by
  simp only [judgeTests]; repeat' (first | (simp [h]; done) | split)

@[simp ↓] theorem judgeResetLanes_only {α : Type} (π : State → α) (h : ∀ s x0 x1, look π { s with lanes := x0, pow := x1 } = look π s) (s : State) :
    look π (judgeResetLanes s) = look π s := by
  simp only [judgeResetLanes]; repeat' (first | (simp [h]; done) | split)

@[simp ↓] theorem snapFrame_only {α : Type} (π : State → α) (h : ∀ s x0 x1 x2, look π { s with free := x0, ref := x1, host := x2 } = look π s) (s : State) :
    look π (snapFrame s) = look π s := by
  simp [snapFrame, h]

@[simp ↓] theorem beginFrame_only {α : Type} (π : State → α) (h : ∀ s x0 x1 x2 x3 x4 x5 x6 x7 x8 x9 x10 x11 x12 x13 x14 x15 x16 x17 x18 x19 x20, look π { s with free := x0, image := x1, time := x2, tt := x3, inp := x4, gnss := x5, ref := x6, obs := x7, set := x8, ctl := x9, servoUndo := x10, alloc := x11, isl := x12, check := x13, sb := x14, lanes := x15, cons := x16, host := x17, log := x18, disp := x19, pow := x20 } = look π s) (s : State) :
    look π (beginFrame s) = look π s := by
  simp [beginFrame, h]

theorem execFrameBoundary_only {α : Type} (π : State → α) (h : ∀ s x0 x1 x2 x3 x4 x5 x6 x7 x8 x9 x10 x11 x12 x13 x14 x15 x16 x17 x18 x19 x20 x21, look π { s with mono := x0, free := x1, image := x2, time := x3, tt := x4, inp := x5, gnss := x6, ref := x7, obs := x8, set := x9, ctl := x10, servoUndo := x11, alloc := x12, isl := x13, check := x14, sb := x15, lanes := x16, cons := x17, host := x18, log := x19, disp := x20, pow := x21 } = look π s) (s : State) (t : State) (he : execFrameBoundary s = .next t) :
    look π t = look π s := by
  simp only [execFrameBoundary, Host.Outcome.next.injEq] at he; subst he; repeat' (first | (simp [h]; done) | split)

@[simp ↓] theorem closeTickSet_only {α : Type} (π : State → α) (h : ∀ s x0 x1 x2 x3, look π { s with tt := x0, inp := x1, host := x2, log := x3 } = look π s) (s : State) :
    look π (closeTickSet s) = look π s := by
  simp only [closeTickSet]; repeat' (first | (simp [h]; done) | (refine (look_foldl π _ ?_ _ _).trans ?_) | split | intro _ | simp [takeNat, takeQty, h])

@[simp ↓] theorem newTick_only {α : Type} (π : State → α) (h : ∀ s x0 x1 x2 x3 x4, look π { s with tt := x0, servoUndo := x1, cons := x2, host := x3, log := x4 } = look π s) (s : State) :
    look π (newTick s) = look π s := by
  simp [newTick, h]

@[simp ↓] theorem releaseIdle_only {α : Type} (π : State → α) (h : ∀ s x0, look π { s with ctl := x0 } = look π s) (s : State) :
    look π (releaseIdle s) = look π s := by
  simp [releaseIdle, h]

@[simp ↓] theorem readReports_only {α : Type} (π : State → α) (h : ∀ s x0 x1, look π { s with inp := x0, ctl := x1 } = look π s) (set : List InRecord) (s : State) :
    look π (readReports set s) = look π s := by
  simp only [readReports]; repeat' (first | (simp [h]; done) | (refine (look_foldl π _ ?_ _ _).trans ?_) | split | intro _ | simp [takeNat, takeQty, h])

@[simp ↓] theorem gatherTick_only {α : Type} (π : State → α) (h : ∀ s x0 x1 x2 x3 x4, look π { s with inp := x0, ctl := x1, isl := x2, host := x3, log := x4 } = look π s) (err : Lane3 Nat) (s : State) :
    look π (gatherTick err s) = look π s := by
  simp [gatherTick, h]

@[simp ↓] theorem countDeviating_only {α : Type} (π : State → α) (h : ∀ s x0 x1 x2 x3 x4 x5 x6, look π { s with tt := x0, inp := x1, lanes := x2, cons := x3, host := x4, log := x5, pow := x6 } = look π s) (s : State) :
    look π (countDeviating s) = look π s := by
  simp only [countDeviating]; repeat' (first | (simp [h]; done) | (refine (look_foldl π _ ?_ _ _).trans ?_) | split | intro _ | simp [takeNat, takeQty, h])

@[simp ↓] theorem laneTick_only {α : Type} (π : State → α) (h : ∀ s x0 x1 x2 x3 x4 x5 x6 x7 x8 x9 x10 x11, look π { s with free := x0, tt := x1, inp := x2, ctl := x3, servoUndo := x4, alloc := x5, isl := x6, lanes := x7, cons := x8, host := x9, log := x10, pow := x11 } = look π s) (err : Lane3 Nat) (s : State) :
    look π (laneTick err s) = look π s := by
  simp only [laneTick]; repeat' (first | (simp [h]; done) | split)

@[simp ↓] theorem sendDown_only {α : Type} (π : State → α) (h : ∀ s x0 x1, look π { s with tt := x0, isl := x1 } = look π s) (s : State) :
    look π (sendDown s) = look π s := by
  simp [sendDown, h]

@[simp ↓] theorem dieTick_only {α : Type} (π : State → α) (h : ∀ s x0 x1 x2 x3 x4 x5 x6, look π { s with time := x0, tt := x1, isl := x2, sb := x3, cons := x4, host := x5, log := x6 } = look π s) (s : State) :
    look π (dieTick s) = look π s := by
  simp only [dieTick]; repeat' (first | (simp [h]; done) | split)

@[simp ↓] theorem strobe_only {α : Type} (π : State → α) (h : ∀ s x0 x1 x2 x3 x4 x5 x6 x7 x8 x9 x10 x11 x12 x13, look π { s with free := x0, time := x1, tt := x2, inp := x3, ctl := x4, servoUndo := x5, alloc := x6, isl := x7, sb := x8, lanes := x9, cons := x10, host := x11, log := x12, pow := x13 } = look π s) (err : Lane3 Nat) (s : State) :
    look π (strobe err s) = look π s := by
  simp only [strobe]; repeat' (first | (simp [h]; done) | split)

theorem execTickStrobe_only {α : Type} (π : State → α) (h : ∀ s x0 x1 x2 x3 x4 x5 x6 x7 x8 x9 x10 x11 x12 x13 x14, look π { s with mono := x0, free := x1, time := x2, tt := x3, inp := x4, ctl := x5, servoUndo := x6, alloc := x7, isl := x8, sb := x9, lanes := x10, cons := x11, host := x12, log := x13, pow := x14 } = look π s) (copyErr : Lane3 Nat) (s : State) (t : State) (he : execTickStrobe copyErr s = .next t) :
    look π t = look π s := by
  simp only [execTickStrobe, Host.Outcome.next.injEq] at he; subst he; repeat' (first | (simp [h]; done) | split)

end Sys2Proof.Machine
end

