-- ==== Sys2Proof/Laws/Memory.lean ====
section
/-! SUPPORT. The cell memory: every write keeps the canonical form, a read after a write gives the byte written, and
every other byte stays as it was. -/

namespace Sys2Proof.Machine

/-- Every address of a cell list lies at or above a bound. -/
def memFrom (lo : Nat) (m : List Host.Cell) : Prop := ∀ c ∈ m, lo ≤ c.1

theorem memWf_cons (k : Nat) (v : Byte) (t : List Host.Cell) :
    memWf ((k, v) :: t) = true ↔ v ≠ memDefault ∧ memFrom (k + 1) t ∧ memWf t = true := by
  induction t generalizing k v with
  | nil => simp [memWf, memFrom]
  | cons c t ih =>
    obtain ⟨k', v'⟩ := c
    rw [memWf, Bool.and_eq_true, Bool.and_eq_true, decide_eq_true_eq, bne_iff_ne]
    constructor
    · rintro ⟨⟨h, hv⟩, hw⟩
      refine ⟨hv, fun c hc => ?_, hw⟩
      rcases List.mem_cons.1 hc with rfl | hc
      · exact h
      · exact Nat.le_trans (Nat.le_succ_of_le h) (((ih k' v').1 hw).2.1 c hc)
    · rintro ⟨hv, hf, hw⟩
      exact ⟨⟨hf (k', v') (List.mem_cons_self ..), hv⟩, hw⟩

theorem memWrite_from (m : List Host.Cell) (a lo : Nat) (v : Byte) (ha : lo ≤ a) (h : memFrom lo m) :
    memFrom lo (memWrite m a v) := by
  induction m with
  | nil =>
    simp only [memWrite]
    split
    · exact h
    · intro c hc; simp only [List.mem_singleton] at hc; subst hc; exact ha
  | cons c t ih =>
    obtain ⟨k, w⟩ := c
    have hk : lo ≤ k := h (k, w) (List.mem_cons_self ..)
    have ht : memFrom lo t := fun c hc => h c (List.mem_cons_of_mem _ hc)
    simp only [memWrite]
    split
    · split
      · exact h
      · intro c hc
        rcases List.mem_cons.1 hc with rfl | hc
        · exact ha
        · exact h c hc
    · split
      · split
        · exact ht
        · intro c hc
          rcases List.mem_cons.1 hc with rfl | hc
          · exact ha
          · exact ht c hc
      · intro c hc
        rcases List.mem_cons.1 hc with rfl | hc
        · exact hk
        · exact ih ht c hc

theorem memWrite_memWf (m : List Host.Cell) (a : Nat) (v : Byte) (h : memWf m = true) : memWf (memWrite m a v) = true := by
  induction m with
  | nil =>
    simp only [memWrite]
    split
    · rfl
    · rw [memWf_cons]; exact ⟨by assumption, by simp [memFrom], rfl⟩
  | cons c t ih =>
    obtain ⟨k, w⟩ := c
    obtain ⟨hw, hf, ht⟩ := (memWf_cons k w t).1 h
    simp only [memWrite]
    split
    · rename_i hak
      split
      · exact h
      · rw [memWf_cons]
        refine ⟨by assumption, fun c hc => ?_, h⟩
        rcases List.mem_cons.1 hc with rfl | hc
        · exact hak
        · exact Nat.le_trans (Nat.succ_le_succ (Nat.le_of_lt hak)) (hf c hc)
    · rename_i hak
      split
      · rename_i hek
        subst hek
        split
        · exact ht
        · rw [memWf_cons]; exact ⟨by assumption, hf, ht⟩
      · rename_i hek
        rw [memWf_cons]
        exact ⟨hw, memWrite_from t a (k + 1) v (by omega) hf, ih ht⟩

theorem memWriteAll_memWf (bs : List Byte) (m : List Host.Cell) (a : Nat) (h : memWf m = true) :
    memWf (memWriteAll m a bs) = true := by
  induction bs generalizing m a with
  | nil => exact h
  | cons b bs ih => exact ih _ _ (memWrite_memWf m a b h)

theorem memRead_memWrite_same (m : List Host.Cell) (a : Nat) (v : Byte) (h : memWf m = true) :
    memRead (memWrite m a v) a = v := by
  induction m with
  | nil =>
    simp only [memWrite]
    split
    · rename_i hv; simp [memRead, hv]
    · simp [memRead]
  | cons c t ih =>
    obtain ⟨k, w⟩ := c
    obtain ⟨-, hf, ht⟩ := (memWf_cons k w t).1 h
    have low : ∀ (l : List Host.Cell), memFrom (a + 1) l → memRead l a = memDefault := by
      intro l hl
      induction l with
      | nil => rfl
      | cons c t ih =>
        have h1 := hl c (List.mem_cons_self ..)
        rw [memRead, if_neg (by omega)]
        exact ih (fun d hd => hl d (List.mem_cons_of_mem _ hd))
    simp only [memWrite]
    split
    · rename_i hak
      split
      · rename_i hv
        rw [hv]
        apply low
        intro d hd
        rcases List.mem_cons.1 hd with rfl | hd
        · exact hak
        · exact Nat.le_trans (Nat.succ_le_succ (Nat.le_of_lt hak)) (hf d hd)
      · simp [memRead]
    · split
      · rename_i hek
        subst hek
        split
        · rename_i hv
          rw [hv]
          exact low t hf
        · simp [memRead]
      · rename_i hek
        rw [memRead, if_neg (fun e => hek e.symm)]
        exact ih ht

theorem memRead_memWrite_ne (m : List Host.Cell) (a b : Nat) (v : Byte) (hab : b ≠ a) (h : memWf m = true) :
    memRead (memWrite m a v) b = memRead m b := by
  induction m with
  | nil =>
    simp only [memWrite]
    split
    · rfl
    · simp [memRead, Ne.symm hab]
  | cons c t ih =>
    obtain ⟨k, w⟩ := c
    obtain ⟨-, hf, ht⟩ := (memWf_cons k w t).1 h
    simp only [memWrite]
    split
    · split
      · rfl
      · rw [memRead, if_neg (Ne.symm hab)]
    · split
      · rename_i hek
        subst hek
        split
        · rw [memRead, if_neg (Ne.symm hab)]
        · rw [memRead, if_neg (Ne.symm hab), memRead, if_neg (Ne.symm hab)]
      · rw [memRead, memRead, ih ht]

theorem memRead_memWriteAll_out (bs : List Byte) (m : List Host.Cell) (a b : Nat) (h : memWf m = true)
    (hb : b < a ∨ a + bs.length ≤ b) : memRead (memWriteAll m a bs) b = memRead m b := by
  induction bs generalizing m a with
  | nil => rfl
  | cons x bs ih =>
    simp only [List.length_cons] at hb
    rw [memWriteAll, ih _ _ (memWrite_memWf m a x h) (by omega), memRead_memWrite_ne m a b x (by omega) h]

theorem memRead_memWriteAll_in (bs : List Byte) (m : List Host.Cell) (a i : Nat) (h : memWf m = true) (hi : i < bs.length) :
    memRead (memWriteAll m a bs) (a + i) = bs.getD i memDefault := by
  induction bs generalizing m a i with
  | nil => simp at hi
  | cons x bs ih =>
    have hw := memWrite_memWf m a x h
    cases i with
    | zero =>
      rw [memWriteAll, memRead_memWriteAll_out bs _ _ _ hw (by omega)]
      exact memRead_memWrite_same m a x h
    | succ j =>
      rw [memWriteAll, show a + (j + 1) = a + 1 + j by omega, ih _ _ _ hw (by simpa using hi)]
      rfl

end Sys2Proof.Machine
end

