-- ==== Sys2Proof/Laws/Canon.lean ====
section
/-! SUPPORT. The MRAM keeps its canonical form through every operation that writes it; the others leave it alone (their
`_only` lemmas observed at `State.mram`). -/

set_option maxRecDepth 20000
set_option linter.unusedSimpArgs false
set_option linter.unusedTactic false
set_option linter.unreachableTactic false

namespace Sys2Proof.Machine

theorem look_mram (s : State) : look State.mram s = s.mram := rfl

theorem look_foldl_memWf {α : Type} (f : State → α → State) (h : ∀ s x, memWf s.mram = true → memWf (f s x).mram = true)
    (l : List α) (s : State) (hs : memWf s.mram = true) : memWf (l.foldl f s).mram = true := by
  induction l generalizing s with
  | nil => exact hs
  | cons a t ih => exact ih _ (h s a hs)

theorem ite_memWf {c : Prop} [Decidable c] {a b : State} (ha : memWf a.mram = true) (hb : memWf b.mram = true) :
    memWf (if c then a else b).mram = true := by
  split
  · exact ha
  · exact hb

/-- A state whose MRAM is that of another has its form. -/
theorem memWf_of_look {s t : State} (h : look State.mram t = look State.mram s) (hs : memWf s.mram = true) :
    memWf t.mram = true := by
  have e : t.mram = s.mram := h
  rw [e]; exact hs

@[simp] theorem look_mram_mk (s : State) (a0 a1 a2 a4 a5 a6 a7 a8 a9 a10 a11 a12 a13 a14 a15 a16 a17 a18 a19 a20 a21 a22 a23 a24 a25) :
    look State.mram (State.mk a0 a1 a2 s.mram a4 a5 a6 a7 a8 a9 a10 a11 a12 a13 a14 a15 a16 a17 a18 a19 a20 a21 a22 a23 a24 a25) = look State.mram s := rfl

/-- A packet keeps the form where the meaning of its opcode keeps it. -/
theorem processPacket_memWf (o : OpSpec) (p : Packet) (s : State)
    (h : ∀ k p s, memWf s.mram = true → memWf (o.run k p s).state.mram = true) (hs : memWf s.mram = true) :
    memWf (processPacket (some o) p s).mram = true := by
  have hc : ∀ n k a p s, memWf s.mram = true → memWf (limitReply n s (runChecks (some o) k a p s)).state.mram = true := by
    intro n k a p s hs
    rcases checked_state o n k a p s with g | g
    · rw [g]; exact hs
    · rw [g]; exact h k p s hs
  have hn : ∀ p d n t, (replyNoSlot p d n t).mram = t.mram := fun p d n t =>
    replyNoSlot_only State.mram (by simp) p d n t
  have hst : ∀ k p d, (storeAndReply k p d).mram = d.state.mram := fun k p d =>
    storeAndReply_only State.mram (by simp) k p d
  have ho : ∀ k f t, (onSession k f t).mram = t.mram := fun _ _ _ => rfl
  have hf : ∀ c s, (fail c s).state = s := fun _ _ => rfl
  simp only [processPacket]
  repeat' (first | (simp only [hn, hst, ho, hf]; first | exact hs | (apply hc; exact hs)) | exact hs | split)

/-! ### Checkpoint pieces and the factory record -/

theorem storePiece_memWf (slot index : Nat) (data : List Byte) (v : Bool) (s : State) (hs : memWf s.mram = true) :
    memWf (storePiece slot index data v s).mram = true := by
  unfold storePiece
  dsimp only
  have h : memWf (memWriteAll s.mram (ckptBase slot + 8192 * index) (data.take 8192)) = true := memWriteAll_memWf _ _ _ hs
  exact ite_memWf (memWf_of_look (finishSlot_only State.mram (fun _ _ => rfl) _ _ _) h) h

theorem putPiece_memWf (index : Nat) (data : List Byte) (v : Bool) (s : State) (hs : memWf s.mram = true) :
    memWf (putPiece index data v s).mram = true := by
  unfold putPiece
  dsimp only
  have h := memWf_of_look (chargeMram_only State.mram (fun _ _ => rfl)
    { cls := 0, bytes := 8192, cargo := .ckptPiece s.cons.mramSlot index data }
    { s with cons.mramFull := s.cons.mramFull.set s.cons.mramSlot none }) hs
  exact ite_memWf (storePiece_memWf _ _ _ _ _ h) h

theorem sendPieces_memWf (v : Bool) (k : Nat) (s : State) (hs : memWf s.mram = true) :
    memWf (sendPieces v k s).mram = true := by
  induction k generalizing s with
  | zero => exact hs
  | succ n ih =>
    simp only [sendPieces]
    refine ite_memWf hs (ih _ (putPiece_memWf _ _ _ _ ?_))
    exact memWf_of_look (sendRing_only State.mram (by simp) _ _) hs

theorem sendCheckpoints_memWf (err : Lane3 Nat) (v : Bool) (s : State) (hs : memWf s.mram = true) :
    memWf (sendCheckpoints err v s).mram = true := by
  have hv : memWf (voteCheckpoint err s).2.mram = true :=
    memWf_of_look (voteCheckpoint_only State.mram (by simp) _ _) hs
  simp only [sendCheckpoints]
  refine ite_memWf hs (ite_memWf hv (sendPieces_memWf _ _ _ ?_))
  refine memWf_of_look (assembleFull_only State.mram (by simp) _ _) ?_
  exact memWf_of_look (sendRing_only State.mram (by simp) _ _) hv

theorem execCheckpoint_memWf (x : CkptIn) (s t : State) (he : execCheckpoint x s = .next t)
    (hs : memWf s.mram = true) : memWf t.mram = true := by
  simp only [execCheckpoint, Host.Outcome.next.injEq] at he
  subst he
  have hc : ∀ u : State, memWf u.mram = true → memWf (completeAct 9 u).mram = true := fun u hu =>
    memWf_of_look (completeAct_only State.mram (by simp) _ _) hu
  have hj : ∀ u : State, memWf u.mram = true → memWf (judgeDigests x.digErr u).mram = true := fun u hu =>
    memWf_of_look (judgeDigests_only State.mram (by simp) _ _) hu
  have hw : memWf (completeAct 9 (if works s then sendCheckpoints x.copyErr x.verified s else s)).mram = true :=
    hc _ (ite_memWf (sendCheckpoints_memWf _ _ _ hs) hs)
  refine ite_memWf (ite_memWf (look_foldl_memWf _ (fun u l hu => ?_) _ _ (ite_memWf (hj _ hw) hw)) (ite_memWf (hj _ hw) hw)) hs
  exact memWf_of_look (reintegrateAt_only State.mram (by simp) _ _ _ _) hu

theorem storeFactory_memWf (a : Option Nat) (s : State) (hs : memWf s.mram = true) :
    memWf (storeFactory a s).mram = true := by
  unfold storeFactory
  dsimp only
  split <;> exact memWriteAll_memWf _ _ _ hs

theorem writeFactory_memWf (a : Option Nat) (s : State) (hs : memWf s.mram = true) :
    memWf (writeFactory a s).mram = true := by
  unfold writeFactory
  dsimp only
  have h := memWf_of_look (chargeMram_only State.mram (fun _ _ => rfl)
    { cls := 3, bytes := if a.isSome then 1 else 12, cargo := .factory a } s) hs
  exact ite_memWf (storeFactory_memWf _ _ h) h

theorem execChamoisCopy_memWf (s t : State) (he : execChamoisCopy s = .next t) (hs : memWf s.mram = true) :
    memWf t.mram = true := by
  simp only [execChamoisCopy, Host.Outcome.next.injEq] at he
  subst he
  exact ite_memWf (writeFactory_memWf _ _ hs) hs

theorem beginRoll_memWf (op : Nat) (s : State) (hs : memWf s.mram = true) : memWf (beginRoll op s).mram = true := by
  simp only [beginRoll]
  have h : memWf (if op = 0 then s else { s with cons.addr := 1 }).mram = true := ite_memWf hs hs
  refine memWf_of_look (sendRoll_only State.mram (by simp) _ _ _) ?_
  exact ite_memWf (c := op = 1) (writeFactory_memWf (some 1) _ h) h

theorem execRollCallStart_memWf (s t : State) (he : execRollCallStart s = .next t) (hs : memWf s.mram = true) :
    memWf t.mram = true := by
  simp only [execRollCallStart, Host.Outcome.next.injEq] at he
  subst he
  exact ite_memWf (beginRoll_memWf _ _ hs) hs

theorem takeRoll_memWf (op address : Nat) (east : Bool) (src : Nat) (s : State) (hs : memWf s.mram = true) :
    memWf (takeRoll op address east src s).mram = true := by
  simp only [takeRoll]
  refine ite_memWf (memWf_of_look (secondHome_only State.mram (by simp) _ _) hs) (ite_memWf hs ?_)
  refine memWf_of_look (sendRoll_only State.mram (by simp) _ _ _) ?_
  exact ite_memWf (c := op = 1) (writeFactory_memWf _ _ hs) hs

theorem keepPiece_memWf (i f : Nat) (b : List Byte) (v : Bool) (s : State) (hs : memWf s.mram = true) :
    memWf (keepPiece i f b v s).mram = true :=
  putPiece_memWf _ _ _ _ (memWf_of_look ((wholeImage_only State.mram (by simp) _).trans rfl) hs)

theorem receivePiece_memWf (i f e : Nat) (ok : Bool) (b : List Byte) (v : Bool) (s : State) (hs : memWf s.mram = true) :
    memWf (receivePiece i f e ok b v s).mram = true := by
  have hd : memWf (discardCkpt s).mram = true := hs
  have ha : memWf (abandonPieces s).mram = true := memWf_of_look (abandonPieces_only State.mram (by simp) _) hs
  simp only [receivePiece]
  exact ite_memWf hd (ite_memWf (keepPiece_memWf _ _ _ _ _ ha) (ite_memWf (keepPiece_memWf _ _ _ _ _ hs) ha))

theorem takeBody_memWf (east : Bool) (m : RingMsg) (v : Bool) (s : State) (hs : memWf s.mram = true) :
    memWf (takeBody east m v s).mram = true := by
  unfold takeBody
  dsimp only
  split
  case h_3 => exact takeRoll_memWf _ _ _ _ _ hs
  case h_8 => exact receivePiece_memWf _ _ _ _ _ _ _ hs
  all_goals refine memWf_of_look ?_ hs
  · exact (leadTime_only State.mram (by simp) _ _ _).trans (hearHeartbeat_only State.mram (by simp) _ _ _)
  · exact receiveTime_only State.mram (by simp) _ _ _ _ _ _
  · exact look_ite (takeAnswer_only State.mram (by simp) _ _) rfl
  · exact look_ite rfl rfl
  · exact endRoll_only State.mram (by simp) _ _ _
  · exact receiveDelta_only State.mram (by simp) _ _ _ _ _
  · exact look_ite (arriveRelayed_only State.mram (by simp) _ _ _ _) rfl
  · exact look_ite (returnReply_only State.mram (by simp) _ _) rfl
  · exact keepNav_only State.mram (by simp) _ _
  · rfl

theorem receiveMsg_memWf (east : Bool) (m : RingMsg) (v : Bool) (s : State) (hs : memWf s.mram = true) :
    memWf (receiveMsg east m v s).mram = true := by
  have hg : memWf (goodMessage east s).mram = true := hs
  have hf := memWf_of_look (forwardMsg_only State.mram (by simp) east (rollOnward m (goodMessage east s)) (goodMessage east s)) hg
  unfold receiveMsg
  dsimp only
  refine ite_memWf (memWf_of_look (ownBack_only State.mram (by simp) _ _) hg) (ite_memWf (memWf_of_look (dropCopy_only State.mram (by simp) _ _ _) hf) (takeBody_memWf _ _ _ _ ?_))
  exact memWf_of_look ((joinRing_only State.mram (by simp) _ _ _).trans (keepSeen_only State.mram (by simp) _ _)) hf

theorem execRingMessage_memWf (east : Bool) (x : RingIn) (s t : State) (he : execRingMessage east x s = .next t)
    (hs : memWf s.mram = true) : memWf t.mram = true := by
  simp only [execRingMessage, Host.Outcome.next.injEq] at he
  subst he
  refine ite_memWf hs (ite_memWf (ite_memWf ?_ hs) (ite_memWf hs (ite_memWf (receiveMsg_memWf _ _ _ _ hs) ?_)))
  · exact memWf_of_look (forwardMsg_only State.mram (by simp) _ _ _) hs
  · exact memWf_of_look (badMessage_only State.mram (by simp) _ _ _) hs

/-! ### The recorder -/

theorem putRecord_memWf (q : Nat) (r : Rec) (s : State) (hs : memWf s.mram = true) : memWf (putRecord q r s).mram = true := by
  unfold putRecord
  dsimp only
  exact memWriteAll_memWf _ _ _ hs

theorem writeOne_memWf (s t : State) (h : writeOne s = some t) (hs : memWf s.mram = true) : memWf t.mram = true := by
  unfold writeOne at h
  (repeat' split at h) <;> simp only [Option.some.injEq, reduceCtorEq] at h <;> subst h
  · exact putRecord_memWf _ _ _ hs
  · exact memWf_of_look (nearFullAt_only State.mram (fun _ _ _ => rfl) _) (putRecord_memWf _ _ _ hs)

theorem writeMany_memWf (n : Nat) (s : State) (hs : memWf s.mram = true) : memWf (writeMany n s).mram = true := by
  induction n generalizing s with
  | zero => exact hs
  | succ n ih =>
    simp only [writeMany]
    split
    · exact hs
    · rename_i t h; exact ih t (writeOne_memWf s t h hs)

theorem faultFill_memWf (third : Bool) (s : State) (hs : memWf s.mram = true) : memWf (faultFill third s).mram = true := by
  unfold faultFill
  split
  · exact hs
  · refine memWf_of_look (assertVecFrame_only State.mram (fun _ _ => rfl) _ _ _) (ite_memWf hs (putRecord_memWf _ _ _ hs))

theorem writeCleared_memWf (c : Clear) (s : State) (hs : memWf s.mram = true) : memWf (writeCleared c s).mram = true := by
  unfold writeCleared
  refine memWf_of_look ((completeSlot_only State.mram (fun _ _ => rfl) _ _ _ _).trans
    (assertVecFrame_only State.mram (fun _ _ => rfl) _ _ _)) (putRecord_memWf _ _ _ hs)

theorem execRecorderWrite_memWf (fails : Nat) (s t : State) (he : execRecorderWrite fails s = .next t)
    (hs : memWf s.mram = true) : memWf t.mram = true := by
  simp only [execRecorderWrite, Host.Outcome.next.injEq] at he
  subst he
  have g : ∀ n tt, memWf (stageLost { writeMany n s with tt := tt }).mram = true :=
    fun n tt => memWf_of_look ((stageLost_only State.mram (by simp) _).trans rfl) (writeMany_memWf n s hs)
  have key : ∀ u : State, memWf u.mram = true → memWf (match u.log.clear with
      | none => u
      | some c => if (nextWritable u).isNone && u.log.fullRec.isNone && 64 ≤ u.tt.mramLeft.getD 1 0 then
          { writeCleared c u with tt.mramLeft := u.tt.mramLeft.modify 1 (· - 64) } else u).mram = true := by
    intro u hu
    split
    · exact hu
    · exact ite_memWf (writeCleared_memWf _ _ hu) hu
  exact ite_memWf hs (ite_memWf hs (ite_memWf (faultFill_memWf _ _ hs) (key _ (g _ _))))

theorem flushAll_memWf (s : State) (hs : memWf s.mram = true) : memWf (flushAll s).mram = true := writeMany_memWf 258 s hs

theorem writeStart_memWf (recovered kind : Nat) (s : State) (hs : memWf s.mram = true) :
    memWf (writeStart recovered kind s).mram = true := by
  unfold writeStart
  refine look_foldl_memWf _ (fun s x hs => ?_) _ _ (ite_memWf hs ?_)
  · exact ite_memWf hs (memWf_of_look (sequenceRec_only State.mram (fun _ _ _ => rfl) _ _) hs)
  · exact memWf_of_look (composeFull_only State.mram (fun _ _ _ => rfl) _) (putRecord_memWf _ _ _ hs)

theorem bootRecorder_memWf (kind : Nat) (s : State) (hs : memWf s.mram = true) : memWf (bootRecorder kind s).mram = true := by
  unfold bootRecorder
  exact ite_memWf (writeStart_memWf _ _ _ (writeMany_memWf _ _ hs)) (writeStart_memWf _ _ _ hs)

theorem execPowerFail_memWf (s t : State) (he : execPowerFail s = .next t) (hs : memWf s.mram = true) :
    memWf t.mram = true := by
  simp only [execPowerFail, Host.Outcome.next.injEq] at he
  subst he
  refine ite_memWf hs (ite_memWf hs (memWf_of_look (assertVec_only State.mram (fun _ _ => rfl) _ _) (flushAll_memWf _ ?_)))
  exact storeFactory_memWf none (logJ 1 4 (leBytes 2 s.log.staged.length) { s with pow.pf := some s.mono })
    (memWf_of_look ((logJ_only State.mram (by simp) _ _ _ _).trans rfl) hs)

theorem execHoldupStop_memWf (b : Bool) (s t : State) (he : execHoldupStop b s = .next t) (hs : memWf s.mram = true) :
    memWf t.mram = true := by
  simp only [execHoldupStop, Host.Outcome.next.injEq] at he
  subst he
  refine ite_memWf (ite_memWf (flushAll_memWf _ ?_) hs) hs
  exact memWf_of_look ((changeState_only State.mram (by simp) _ _ _).trans (stopOutputs_only State.mram (by simp) _)) hs

theorem bootSteps_memWf (b : BootOut) (s : State) (hs : memWf s.mram = true) : memWf (bootSteps b s).mram = true := by
  have h1 : memWf (measureHoldup b.holdupPct s).mram = true := memWf_of_look (measureHoldup_only State.mram (by simp) _ _) hs
  have h2 : ∀ u : State, memWf u.mram = true → memWf (bootIslands b.badIslands (bootImage u)).mram = true := fun u hu =>
    memWf_of_look ((bootIslands_only State.mram (by simp) _ _).trans (bootImage_only State.mram (by simp) _)) hu
  have h3 := h2 _ (ite_memWf (c := b.factoryOk = true) h1 (b := { measureHoldup b.holdupPct s with
    pow := { (measureHoldup b.holdupPct s).pow with factoryBad := true }, cons := { (measureHoldup b.holdupPct s).cons with stored := 0 } }) h1)
  unfold bootSteps
  dsimp only
  refine memWf_of_look (bootLanes_only State.mram (by simp) _ _) (bootRecorder_memWf _ _ ?_)
  refine memWf_of_look (testVbak_only State.mram (by simp) _ _) (ite_memWf h3 h3)

theorem execBootComplete_memWf (b : BootOut) (s t : State) (he : execBootComplete b s = .next t) (hs : memWf s.mram = true) :
    memWf t.mram = true := by
  simp only [execBootComplete, Host.Outcome.next.injEq] at he
  subst he
  have f : ∀ u, memWf u.mram = true → memWf (fallSilent u).mram = true := fun u hu =>
    memWf_of_look (fallSilent_only State.mram (by simp) _) hu
  refine ite_memWf (ite_memWf (f _ hs) (ite_memWf (f _ (bootSteps_memWf _ _ hs)) ?_)) hs
  exact memWf_of_look (bootReady_only State.mram (by simp) _ _) (bootSteps_memWf _ _ hs)

theorem beginTake_memWf (reason : Nat) (s : State) (hs : memWf s.mram = true) : memWf (beginTake reason s).mram = true := by
  have e : look State.mram (endInjection 7 (abortCheck (bootSettings (closeAll (changeState .boot reason (handshake s)))))) =
      look State.mram s :=
    (endInjection_only State.mram (by simp) _ _).trans ((abortCheck_only State.mram (by simp) _).trans
      ((bootSettings_only State.mram (by simp) _).trans ((closeAll_only State.mram (by simp) _).trans
        ((changeState_only State.mram (by simp) _ _ _).trans (handshake_only State.mram (by simp) _)))))
  unfold beginTake
  dsimp only
  generalize endInjection 7 (abortCheck (bootSettings (closeAll (changeState .boot reason (handshake s))))) = u at e ⊢
  refine memWf_of_look (logJ_only State.mram (by simp) _ _ _ _) (bootRecorder_memWf _ _ ?_)
  exact memWf_of_look ((startHotfix_only State.mram (by simp) _).trans ((dispFromImage_only State.mram (by simp) _).trans e)) hs

theorem execTakeoverStart_memWf (s t : State) (he : execTakeoverStart s = .next t) (hs : memWf s.mram = true) :
    memWf t.mram = true := by
  simp only [execTakeoverStart, Host.Outcome.next.injEq] at he
  subst he
  exact ite_memWf hs (ite_memWf (beginTake_memWf _ _ hs) (ite_memWf (beginTake_memWf _ _ hs) hs))

theorem acceptChunk_memWf (k : Nat) (p : Packet) (t : Transfer) (off : Nat) (data : List Byte) (s : State)
    (hs : memWf s.mram = true) : memWf (acceptChunk k p t off data s).state.mram = true := by
  unfold acceptChunk
  dsimp only
  split <;> rename_i h <;>
    have e := (congrArg (fun x => look State.mram x.2) h).symm.trans (chargeMram_only State.mram (fun _ _ => rfl) _ _)
  · exact memWriteAll_memWf _ _ _ (memWf_of_look e hs)
  · exact memWf_of_look e hs

theorem imageChunkSpec_memWf (ok : Bool) (k : Nat) (p : Packet) (s : State) (hs : memWf s.mram = true) :
    memWf ((imageChunkSpec ok).run k p s).state.mram = true := by
  simp only [imageChunkSpec, fail]
  repeat' (first | exact hs | exact acceptChunk_memWf _ _ _ _ _ _ hs | split)

theorem execImageChunk_memWf (p : Packet) (ok : Bool) (s t : State) (he : execImageChunk p ok s = .next t)
    (hs : memWf s.mram = true) : memWf t.mram = true := by
  simp only [execImageChunk, Host.Outcome.next.injEq] at he
  subst he
  exact processPacket_memWf _ _ _ (imageChunkSpec_memWf ok) hs

theorem writeChunk_memWf (slot offset : Nat) (data : List Byte) (task : Task) (v : Bool) (s : State) (hs : memWf s.mram = true) :
    memWf (writeChunk slot offset data task v s).mram = true := by
  unfold writeChunk
  refine ite_memWf ?_ ?_
  · exact memWf_of_look (completeSlot_only State.mram (fun _ _ => rfl) _ _ _ _) hs
  · exact memWf_of_look (completeSlot_only State.mram (fun _ _ => rfl) _ _ _ _) (memWriteAll_memWf _ _ _ hs)

theorem releaseOne_memWf (v : Bool) (s : State) (w : Waiting) (hs : memWf s.mram = true) :
    memWf (releaseOne v s w).mram = true := by
  unfold releaseOne
  split
  · exact storePiece_memWf _ _ _ _ _ hs
  · exact storeFactory_memWf _ _ hs
  · exact writeChunk_memWf _ _ _ _ _ _ hs
  · exact memWf_of_look (releasePacket_only State.mram (by simp) _ _) hs
  · exact memWf_of_look (sendPtp_only State.mram (by simp) _ _ _) hs
  · exact ite_memWf (memWf_of_look (startRaw_only State.mram (by simp) _ _ _) hs) hs
  · exact memWf_of_look (startRing_only State.mram (by simp) _ _) hs
  · exact hs

theorem execDeferredTrafficRelease_memWf (x : ReleaseIn) (s t : State)
    (he : execDeferredTrafficRelease x s = .next t) (hs : memWf s.mram = true) : memWf t.mram = true := by
  simp only [execDeferredTrafficRelease, Host.Outcome.next.injEq] at he
  subst he
  refine ite_memWf hs ?_
  split
  · exact look_foldl_memWf _ (fun s w hs => releaseOne_memWf x.verified s w hs) _ _ hs
  · exact ite_memWf hs (look_foldl_memWf _ (fun s w hs => releaseOne_memWf x.verified s w hs) _ _ hs)
  · exact look_foldl_memWf _ (fun s w hs => releaseOne_memWf x.verified s w hs) _ _ hs

/-- Every opcode of Table 12-18 keeps the form. -/
theorem opTable1_memWf (op : Nat) (o : OpSpec) (g : opTable1 op = some o) (k : Nat) (p : Packet) (s : State)
    (hs : memWf s.mram = true) : memWf (o.run k p s).state.mram = true := by
  have h := look_mram_mk
  unfold opTable1 at g
  split at g <;> simp only [Option.some.injEq, reduceCtorEq] at g <;> subst g <;>
    first | exact imageChunkSpec_memWf _ _ _ _ hs | (refine memWf_of_look ?_ hs; simp [h])

theorem opTable_memWf (op : Nat) (o : OpSpec) (g : opTable op = some o) (k : Nat) (p : Packet) (s : State)
    (hs : memWf s.mram = true) : memWf (o.run k p s).state.mram = true := by
  have h := look_mram_mk
  unfold opTable at g
  split at g
  · exact opTable1_memWf op o g k p s hs
  · refine memWf_of_look ?_ hs
    split at g
    · unfold opTable2 at g
      split at g <;> simp only [Option.some.injEq, reduceCtorEq] at g <;> subst g <;> simp [h]
    · unfold opTable3 at g
      split at g <;> simp only [Option.some.injEq, reduceCtorEq] at g <;> subst g <;> simp [h]

theorem processOne_memWf (s : State) (p : Packet) (hs : memWf s.mram = true) : memWf (processOne s p).mram = true := by
  unfold processOne
  cases g : opTable p.opcode with
  | none => exact memWf_of_look (processPacket_none_only State.mram p s (by simp)) hs
  | some o => exact processPacket_memWf o p s (opTable_memWf p.opcode o g) hs

theorem execHostService_memWf (rep : Lane3 ItemReport) (s t : State) (he : execHostService rep s = .next t)
    (hs : memWf s.mram = true) : memWf t.mram = true := by
  simp only [execHostService, Host.Outcome.next.injEq] at he
  subst he
  refine ite_memWf (memWf_of_look ((chargeLeast_only State.mram (by simp) _ _ _).trans
    (endItems_only State.mram (by simp) _ _ _)) ?_) hs
  exact look_foldl_memWf _ (fun s p hs => processOne_memWf s p hs) _ _ hs

theorem execResponder_memWf (s t : State) (he : execResponder s = .next t) (hs : memWf s.mram = true) :
    memWf t.mram = true := by
  simp only [execResponder, Host.Outcome.next.injEq] at he
  subst he
  exact ite_memWf (look_foldl_memWf _ (fun s p hs => processOne_memWf s p hs) _ _ hs) hs

end Sys2Proof.Machine
end

