-- ==== Sys2Proof/WellFormed.lean ====
section
/-! DEFINITION. Which commands are well formed: the numbers of channels, thrusters, ports, slots and so on lie in the
ranges the manual numbers them in, and a command packet's fields fit their widths (Table 12-2). -/

namespace Sys2Proof

/-- A packet whose fields fit Table 12-2. -/
def Packet.wf (p : Packet) : Bool :=
  decide (p.opcode < 2 ^ 16) && decide (p.tag < 2 ^ 16) && decide (p.queue < 2 ^ 8) && decide (p.flags < 2 ^ 8) &&
    decide (p.length < 2 ^ 16) && decide (p.session < 2 ^ 32) && decide (p.sequence < 2 ^ 32) &&
    decide (p.payload.length ≤ 4080)

/-- A well-formed packet of one row's opcode. -/
def Packet.wfFor (p : Packet) (opcode : Nat) : Bool := p.wf && decide (p.opcode = opcode)

/-- A record whose link is one of the numbered links and whose completion is not before its stamp; an RTCM frame fits the
queue to the receiver, 1,029 bytes. -/
def InRecord.wf (r : InRecord) : Bool :=
  decide (r.link < 193) && decide (r.stampNs ≤ r.doneNs) && (match r.data with
    | .rtcm b => decide (b.length ≤ 1029)
    | _ => true)

/-- A ring message whose header fields fit Table 11-4. -/
def RingMsg.wf (m : RingMsg) : Bool :=
  decide (m.src ≤ 4) && (decide (m.dst ≤ 4) || decide (m.dst = 255)) && decide (m.cls ≤ 4) && decide (m.seq < 2 ^ 32) &&
    decide (m.hops < 2 ^ 8) && decide (m.payloadLen ≤ 8192)

/-- A command that is well formed. -/
def Instr.wf : Instr → Bool
  | .tickStrobe _ => true
  | .frameBoundary => true
  | .recordArrival r => r.wf
  | .redelivery _ _ _ _ => true
  | .junctionInputPathFault _ => true
  | .inputGather _ => true
  | .fastPacketTimeout link _ _ => decide (link < 64)
  | .timeAlignment => true
  | .sensorDeviating _ cand => decide (cand < 25)
  | .sensorReadmit _ cand => decide (cand < 25)
  | .targetAssociation => true
  | .refNoData sensor index => decide (index < if sensor then 24 else 16)
  | .gridFusion => true
  | .refConflictRaised => true
  | .refConflictCleared => true
  | .conflictTimeout => true
  | .recentreMeasured => true
  | .probationEnd ref => decide (ref < 16)
  | .observer => true
  | .observerInitEnd => true
  | .controlLaw => true
  | .positionTermsReturn => true
  | .periodLost axis => decide (axis < 3)
  | .allocation => true
  | .allocFailing => true
  | .demandUnmet _ => true
  | .transitEntry thruster sector => decide (thruster < 32) && decide (sector < 4)
  | .outputDistribution => true
  | .loopBankSwapApply => true
  | .injectionStart => true
  | .injectionEnd => true
  | .captureDone => true
  | .checkpoint _ => true
  | .hostService _ => true
  | .logging _ => true
  | .housekeeping _ _ => true
  | .heldAtSignal act _ => decide (act < 13)
  | .outcomeTimeout act _ => decide (act < 13)
  | .chainClosingHold _ => true
  | .persistentHold act => decide (act < 9)
  | .deferredTrafficRelease _ => true
  | .deferredCommandEffect => true
  | .sourceQualified id _ => decide (id < 4)
  | .sourceLost id => decide (id < 4)
  | .stepApplied _ => true
  | .slewComplete => true
  | .freerunEntry => true
  | .ext10mQualified => true
  | .ext10mLost => true
  | .ppsOutPulse out => decide (out < 2)
  | .ppsInEdge ns => decide (ns < 1000000000)
  | .ptpMessage port _ => decide (port < 12)
  | .ptpAnnounceTimeout port => decide (port < 12)
  | .txStampQueued port _ => decide (port < 12)
  | .snapLatch value => decide (value < 2 ^ 32)
  | .timeGet p => p.wfFor 0x0901
  | .timeSource p => p.wfFor 0x0902
  | .ptpConfig p => p.wfFor 0x0903
  | .txStampRead p => p.wfFor 0x0904
  | .ppsConfig p => p.wfFor 0x0905
  | .gnssEpoch _ => true
  | .epochBlockTimeout => true
  | .channelStateChange channel _ => decide (channel < 160)
  | .modeFallback => true
  | .modeReturn => true
  | .rtcmFrame bytes => decide (bytes.length ≤ 1029)
  | .antennaFaultDetect antenna _ => decide (antenna < 2)
  | .antennaRetry antenna _ => decide (antenna < 2)
  | .snapshotCapture _ => true
  | .hotfixComplete _ => true
  | .gnssStatus p => p.wfFor 0x0801
  | .gnssRaw p => p.wfFor 0x0802
  | .gnssCorrections p => p.wfFor 0x0803
  | .gnssMode p => p.wfFor 0x0804
  | .integrityReport p => p.wfFor 0x0805
  | .refEnable p => p.wfFor 0x0301
  | .refDisable p => p.wfFor 0x0302
  | .refStatus p => p.wfFor 0x0303
  | .leverArmGet p => p.wfFor 0x0304
  | .leverArmFreeze p => p.wfFor 0x0305
  | .trackTableRead p => p.wfFor 0x0306
  | .fusionStatus p => p.wfFor 0x0401
  | .gridSnapshot p => p.wfFor 0x0402
  | .gridHoldExpiry => true
  | .conflictResolve p => p.wfFor 0x0403
  | .setpointSet p => p.wfFor 0x0404
  | .loopBankWrite p => p.wfFor 0x0501
  | .loopBankSwap p => p.wfFor 0x0502
  | .injectStart p => p.wfFor 0x0503
  | .captureRead p => p.wfFor 0x0504
  | .repetitiveCtrl p => p.wfFor 0x0505
  | .allocStatus p => p.wfFor 0x0601
  | .thrusterEnable p => p.wfFor 0x0602
  | .thrusterDisable p => p.wfFor 0x0603
  | .allocMode p => p.wfFor 0x0604
  | .attachBodySet p => p.wfFor 0x0605
  | .applyMarker missed bad => missed.all (fun c => decide (c < 128)) && bad.all (fun c => decide (c < 128))
  | .upstreamSlot bad => bad.all (fun c => decide (c < 128))
  | .linkFault ch => decide (ch < 128)
  | .splitAlarm ch => decide (ch < 128)
  | .islandSample ch _ => decide (ch < 128)
  | .complianceSet ch => decide (ch < 128)
  | .complianceClear ch => decide (ch < 128)
  | .readbackFault ch => decide (ch < 128)
  | .alarmEntry ch => decide (ch < 128)
  | .alarmUndeliverable ch => decide (ch < 128)
  | .assistedPowerFail ch => decide (ch < 128)
  | .linkSlotLossHold ch => decide (ch < 128)
  | .holdTimeout ch => decide (ch < 128)
  | .energyLow ch => decide (ch < 128)
  | .captureTimeout ch => decide (ch < 128)
  | .seriesLimitedExpiry ch => decide (ch < 128)
  | .decimationOutput ch _ => decide (ch < 128)
  | .overloadSet ch => decide (ch < 128)
  | .overloadClear ch => decide (ch < 128)
  | .noPulse ch => decide (ch < 128)
  | .hartFrameReceived ch _ => decide (ch < 128)
  | .hartTransactionEnd ch _ => decide (ch < 128)
  | .multidropPoll ch _ => decide (ch < 128)
  | .missingRetry ch addr _ => decide (ch < 128) && decide (addr < 64)
  | .configPendingApply ch => decide (ch < 128)
  | .complianceCheckPhase _ => true
  | .chanConfig p => p.wfFor 0x0701
  | .chanStatus p => p.wfFor 0x0702
  | .chanRead p => p.wfFor 0x0703
  | .hartTransact p => p.wfFor 0x0704
  | .chanCharacteristic p => p.wfFor 0x0705
  | .filterConfig p => p.wfFor 0x0706
  | .complianceCheck p => p.wfFor 0x0707
  | .sbCommandSet _ => true
  | .sbInternal _ => true
  | .safetyInputChange _ _ => true
  | .discrepancy _ => true
  | .safeContactTimeout _ => true
  | .yawRateStop => true
  | .sbSelfTestEnd _ _ _ => true
  | .proofDue => true
  | .resetPulse => true
  | .rstStuck => true
  | .rstStuckClear => true
  | .springbokRelease => true
  | .springbokTest _ _ => true
  | .safetyStatus p => p.wfFor 0x0A01
  | .safetyLimitsGet p => p.wfFor 0x0A02
  | .proofStatus p => p.wfFor 0x0A03
  | .egressCopy _ _ _ => true
  | .egressTimeout _ => true
  | .reintegrationStart _ => true
  | .laneEnterService _ => true
  | .junctionPairDifference block _ => decide (1 ≤ block) && decide (block ≤ 13)
  | .junctionBlockRecovered block _ => decide (1 ≤ block) && decide (block ≤ 13)
  | .ringMessage _ x => x.msg.wf
  | .ringLinkUp _ => true
  | .ringLinkDown _ => true
  | .linkDelayMeasure _ _ _ => true
  | .rollCallStart => true
  | .rollCallEnd _ => true
  | .noHome => true
  | .roleAssignment => true
  | .heartbeatWord _ slot word => decide (slot < 4) && decide (word < 2 ^ 16)
  | .leadLost addr => decide (1 ≤ addr) && decide (addr ≤ 4)
  | .carrierFault carrier addr => decide (carrier < 4) && decide (1 ≤ addr) && decide (addr ≤ 4)
  | .arbConfirmed => true
  | .arbRefused => true
  | .leadYield => true
  | .splitViewClear => true
  | .takeoverStart => true
  | .takeoverRestore _ => true
  | .takeoverFirstFrame => true
  | .takeoverCapture => true
  | .transferShadowEnd => true
  | .transferRelease => true
  | .transferAbort => true
  | .consistStatus p => p.wfFor 0x0B01
  | .rollCall p => p.wfFor 0x0B02
  | .transferLead p => p.wfFor 0x0B03
  | .laneStatus p => p.wfFor 0x0B04
  | .laneReintegrate p => p.wfFor 0x0B05
  | .commandDatagram port _ => decide (port < 12)
  | .relayRecordExpiry index => decide (index < 64)
  | .sessionTimeout slot => decide (slot < 8)
  | .completionReply slot tag => decide (slot < 8) && decide (tag < 2 ^ 16)
  | .responder => true
  | .queueDoorbell queue tail _ => decide (queue < 32) && decide (tail < 256)
  | .queueEnable queue value => decide (queue < 32) && decide (value < 2 ^ 32)
  | .completionHeadWrite queue value => decide (queue < 32) && decide (value < 2 ^ 32)
  | .vecPendClear _ value => decide (value < 2 ^ 32)
  | .vecTest value => decide (value < 2 ^ 32)
  | .registerWrite offset value => decide (offset < 65536) && decide (offset % 4 = 0) && decide (value < 2 ^ 32)
  | .ping p => p.wfFor 0x0101
  | .getIdentity p => p.wfFor 0x0102
  | .openSession p => p.wfFor 0x0103
  | .closeSession p => p.wfFor 0x0104
  | .getResult p => p.wfFor 0x0105
  | .ackResult p => p.wfFor 0x0106
  | .getState p => p.wfFor 0x0107
  | .setMode p => p.wfFor 0x0108
  | .imageBegin p => p.wfFor 0x0201
  | .imageChunk p _ => p.wfFor 0x0202
  | .imageTransferAbandon => true
  | .imageCommit p => p.wfFor 0x0203
  | .imageCommitComplete _ => true
  | .imageInfo p => p.wfFor 0x0204
  | .timetableStatus p => p.wfFor 0x0F01
  | .timetableCounters p => p.wfFor 0x0F02
  | .recorderWrite _ => true
  | .recLoad => true
  | .recNext => true
  | .recPrev => true
  | .recLoadComplete => true
  | .recReadBlock p => p.wfFor 0x0C01
  | .recInfo p => p.wfFor 0x0C02
  | .recClear p => p.wfFor 0x0C03
  | .recMark p => p.wfFor 0x0C04
  | .displayFrameStart crackOhm => decide (crackOhm < 65536)
  | .crackDetected => true
  | .glassTemperatureSample _ => true
  | .regionDead region => decide (region < 16)
  | .regionHoldEnd region => decide (region < 16)
  | .dispRegionWrite p => p.wfFor 0x0D01
  | .dispStatus p => p.wfFor 0x0D02
  | .dispConfig p => p.wfFor 0x0D03
  | .supplyChange _ _ mv => decide (mv < 65536)
  | .vbakTest mv => decide (mv < 65536)
  | .powerFail => true
  | .holdupStop _ => true
  | .chamoisSecond => true
  | .chamoisCopy => true
  | .vbakCollapse => true
  | .overTemperature _ => true
  | .faultRestart => true
  | .layoverEntry => true
  | .layoverLanesOff => true
  | .sysRstAssert _ => true
  | .sysRstRelease _ => true
  | .bootStart _ => true
  | .bootComplete _ => true
  | .watchdog _ => true
  | .powerStatus p => p.wfFor 0x0E01
  | .powerMode p => p.wfFor 0x0E02
  | .laneMonitorFault _ _ => true
  | .tickStrobeMissing => true
  | .islandThermalLimit ch => decide (ch < 128)
  | .sentenceOverlength link => decide (link < 64)
  | .ptpMessageTransmit port _ => decide (port < 12)
  | .retainedRegionScrub _ => true

end Sys2Proof
end

