-- ==== Sys2Proof/Safety.lean ====
section
/-! DEFINITION. What counts as a safe run: the answers of a step that are next states, and the form of the memories. -/

namespace Sys2Proof.Safety

open Sys2Proof.Machine

/-- The block goes on: the outcome is a next state. -/
def Goes (o : Host.Outcome State Fault Refusal) : Prop := ∃ t, o = .next t

/-- The cell memories stand in their canonical form: the MRAM and both coefficient banks. -/
def MemoriesWf (s : State) : Prop := memWf s.mram = true ∧ ∀ b ∈ s.ctl.banks, memWf b = true

/-- `k` steps answer a next state that satisfies `P`. -/
def RunsTo (k : Nat) (s : State) (P : State → Prop) : Prop :=
  match k with
  | 0 => P s
  | n + 1 => ∃ t, step s = .next t ∧ RunsTo n t P

end Sys2Proof.Safety
end

