-- ==== Sys2Proof/Certificates/Slice0/Obligations.lean ====
section
/-! DEFINITION. What the model claims: the statements for the provers. A statement of a command's result says, for every state
and operands that meet its hypotheses, which next state the command answers; together with `CommandFrames` it says what the
command leaves alone. -/

namespace Sys2Proof.Claims

open Sys2Proof.Machine

/-- A part of the state: one field of `State`. -/
inductive Part where
  | clock
  | freeCount
  | image
  | mram
  | timeBase
  | timetable
  | inputs
  | gnss
  | references
  | fusion
  | observer
  | setpoints
  | control
  | servoUndo
  | allocation
  | islands
  | compliance
  | signalBox
  | lanes
  | junction
  | consist
  | host
  | recorder
  | display
  | power
  | queue
deriving DecidableEq, Repr

/-- The value of one part: that of the first state where the part is listed, that of the second where it is not. -/
def pick {α : Type} (ps : List Part) (p : Part) (a b : α) : α := if ps.contains p then a else b

/-- The state `t` with some parts put back as they are in `s`: the two states agree on every other part exactly when this
is `s`. -/
def putBack (s t : State) (ps : List Part) : State where
  mono := pick ps .clock s.mono t.mono
  free := pick ps .freeCount s.free t.free
  image := pick ps .image s.image t.image
  mram := pick ps .mram s.mram t.mram
  time := pick ps .timeBase s.time t.time
  tt := pick ps .timetable s.tt t.tt
  inp := pick ps .inputs s.inp t.inp
  gnss := pick ps .gnss s.gnss t.gnss
  ref := pick ps .references s.ref t.ref
  fus := pick ps .fusion s.fus t.fus
  obs := pick ps .observer s.obs t.obs
  set := pick ps .setpoints s.set t.set
  ctl := pick ps .control s.ctl t.ctl
  servoUndo := pick ps .servoUndo s.servoUndo t.servoUndo
  alloc := pick ps .allocation s.alloc t.alloc
  isl := pick ps .islands s.isl t.isl
  check := pick ps .compliance s.check t.check
  sb := pick ps .signalBox s.sb t.sb
  lanes := pick ps .lanes s.lanes t.lanes
  jx := pick ps .junction s.jx t.jx
  cons := pick ps .consist s.cons t.cons
  host := pick ps .host s.host t.host
  log := pick ps .recorder s.log t.log
  disp := pick ps .display s.disp t.disp
  pow := pick ps .power s.pow t.pow
  pending := pick ps .queue s.pending t.pending

/-- The parts of the state that a command may change; every other part it leaves as it is. -/
def touches : Instr → List Part
  | .tickStrobe _ =>
    [.clock, .freeCount, .timeBase, .timetable, .inputs, .control, .servoUndo, .allocation, .islands, .signalBox,
     .lanes, .consist, .host, .recorder, .power]
  | .frameBoundary =>
    [.clock, .freeCount, .image, .timeBase, .timetable, .inputs, .gnss, .references, .observer, .setpoints,
     .control, .servoUndo, .allocation, .islands, .compliance, .signalBox, .lanes, .consist, .host, .recorder,
     .display, .power]
  | .recordArrival _ =>
    [.timeBase, .timetable, .inputs, .host, .recorder]
  | .redelivery _ _ _ _ | .laneMonitorFault _ _ =>
    [.timetable, .inputs, .lanes, .consist, .host, .recorder, .power]
  | .junctionInputPathFault _ | .persistentHold _ | .leadYield | .tickStrobeMissing =>
    [.lanes, .consist, .host, .recorder, .power]
  | .inputGather _ =>
    [.freeCount, .timetable, .inputs, .gnss, .references, .servoUndo, .host, .recorder]
  | .fastPacketTimeout _ _ _ | .sentenceOverlength _ =>
    [.inputs, .references, .recorder]
  | .timeAlignment =>
    [.freeCount, .timetable, .inputs, .references, .servoUndo, .host, .recorder]
  | .sensorDeviating _ _ =>
    [.references, .recorder]
  | .sensorReadmit _ _ | .refNoData _ _ | .probationEnd _ =>
    [.references]
  | .targetAssociation =>
    [.freeCount, .timetable, .references, .servoUndo, .host, .recorder]
  | .gridFusion =>
    [.freeCount, .timetable, .references, .fusion, .observer, .servoUndo, .host, .recorder]
  | .refConflictRaised | .refConflictCleared =>
    [.references, .fusion, .host, .recorder]
  | .conflictTimeout =>
    [.fusion, .observer, .control, .host, .recorder]
  | .recentreMeasured | .gridHoldExpiry =>
    [.fusion]
  | .observer =>
    [.freeCount, .timetable, .observer, .setpoints, .control, .servoUndo, .host, .recorder]
  | .observerInitEnd =>
    [.references, .observer, .setpoints, .control, .host, .recorder]
  | .controlLaw =>
    [.freeCount, .timetable, .setpoints, .control, .servoUndo, .allocation, .host, .recorder]
  | .positionTermsReturn | .captureDone =>
    [.control]
  | .periodLost _ =>
    [.control, .recorder]
  | .allocation =>
    [.freeCount, .timetable, .servoUndo, .allocation, .host, .recorder]
  | .allocFailing | .demandUnmet _ | .transitEntry _ _ =>
    [.allocation, .host, .recorder]
  | .outputDistribution =>
    [.freeCount, .timetable, .control, .servoUndo, .allocation, .host, .recorder]
  | .loopBankSwapApply =>
    [.control, .servoUndo, .allocation]
  | .injectionStart =>
    [.control, .allocation]
  | .injectionEnd =>
    [.control, .host, .recorder]
  | .checkpoint _ =>
    [.freeCount, .mram, .timetable, .inputs, .servoUndo, .lanes, .consist, .host, .recorder, .power]
  | .hostService _ | .responder =>
    [.freeCount, .mram, .timeBase, .timetable, .inputs, .gnss, .fusion, .control, .servoUndo, .allocation,
     .islands, .compliance, .signalBox, .lanes, .consist, .host, .recorder, .display, .power]
  | .logging _ =>
    [.freeCount, .timetable, .inputs, .servoUndo, .lanes, .consist, .host, .recorder, .power]
  | .housekeeping _ _ =>
    [.freeCount, .timetable, .inputs, .servoUndo, .lanes, .junction, .consist, .host, .recorder, .display,
     .power]
  | .heldAtSignal _ _ =>
    [.freeCount, .timetable, .inputs, .references, .fusion, .observer, .control, .servoUndo, .allocation, .lanes,
     .host, .recorder]
  | .outcomeTimeout _ _ | .chainClosingHold _ =>
    [.freeCount, .timetable, .inputs, .references, .fusion, .observer, .control, .servoUndo, .allocation, .lanes,
     .consist, .host, .recorder, .power]
  | .deferredTrafficRelease _ =>
    [.mram, .timeBase, .timetable, .gnss, .consist, .host, .power]
  | .deferredCommandEffect | .faultRestart | .sysRstRelease _ | .bootStart _ | .watchdog _ =>
    [.image, .timeBase, .timetable, .inputs, .gnss, .references, .fusion, .observer, .setpoints, .control,
     .servoUndo, .allocation, .islands, .compliance, .signalBox, .lanes, .junction, .consist, .host, .recorder,
     .display, .power]
  | .sourceQualified _ _ | .sourceLost _ | .slewComplete | .freerunEntry | .ppsInEdge _ | .ptpMessage _ _
  | .ptpAnnounceTimeout _ | .registerWrite _ _ =>
    [.timeBase, .host, .recorder]
  | .stepApplied _ =>
    [.timeBase, .inputs, .gnss, .references, .observer, .host, .recorder]
  | .ext10mQualified | .ext10mLost | .ppsOutPulse _ | .txStampQueued _ _ | .snapLatch _ =>
    [.timeBase]
  | .timeGet _ | .timeSource _ | .ptpConfig _ | .ppsConfig _ | .gnssStatus _ | .gnssRaw _ | .gnssMode _
  | .integrityReport _ | .refEnable _ | .refDisable _ | .refStatus _ | .leverArmGet _ | .leverArmFreeze _
  | .trackTableRead _ | .fusionStatus _ | .conflictResolve _ | .setpointSet _ | .captureRead _
  | .allocStatus _ | .thrusterEnable _ | .thrusterDisable _ | .allocMode _ | .attachBodySet _ | .chanConfig _
  | .chanStatus _ | .chanCharacteristic _ | .filterConfig _ | .safetyStatus _ | .safetyLimitsGet _
  | .proofStatus _ | .consistStatus _ | .rollCall _ | .laneStatus _ | .laneReintegrate _
  | .completionReply _ _ | .ping _ | .getIdentity _ | .getResult _ | .ackResult _ | .getState _ | .setMode _
  | .imageBegin _ | .imageCommit _ | .imageInfo _ | .timetableStatus _ | .timetableCounters _
  | .recReadBlock _ | .recInfo _ | .dispStatus _ | .dispConfig _ | .powerStatus _ | .powerMode _ =>
    [.timetable, .consist, .host]
  | .txStampRead _ =>
    [.timeBase, .timetable, .consist, .host]
  | .gnssEpoch _ =>
    [.timeBase, .timetable, .inputs, .gnss, .consist, .host, .recorder]
  | .epochBlockTimeout =>
    [.gnss, .references]
  | .channelStateChange _ _ | .modeFallback | .modeReturn | .rtcmFrame _ | .antennaRetry _ _
  | .snapshotCapture _ =>
    [.gnss]
  | .antennaFaultDetect _ _ =>
    [.gnss, .host, .recorder]
  | .hotfixComplete _ =>
    [.timetable, .inputs, .gnss, .host, .recorder]
  | .gnssCorrections _ =>
    [.timetable, .gnss, .consist, .host]
  | .gridSnapshot _ =>
    [.timetable, .fusion, .consist, .host]
  | .loopBankWrite _ | .loopBankSwap _ | .repetitiveCtrl _ =>
    [.timetable, .control, .consist, .host]
  | .injectStart _ =>
    [.timetable, .control, .consist, .host, .recorder]
  | .applyMarker _ _ | .splitAlarm _ | .islandSample _ _ | .complianceSet _ | .complianceClear _
  | .readbackFault _ | .alarmEntry _ | .alarmUndeliverable _ | .assistedPowerFail _ | .linkSlotLossHold _
  | .holdTimeout _ | .energyLow _ | .captureTimeout _ | .seriesLimitedExpiry _ | .decimationOutput _ _
  | .overloadSet _ | .overloadClear _ | .noPulse _ | .hartFrameReceived _ _ | .multidropPoll _ _
  | .missingRetry _ _ _ | .configPendingApply _ | .islandThermalLimit _ =>
    [.islands]
  | .upstreamSlot _ =>
    [.timetable, .inputs, .islands, .host, .recorder]
  | .linkFault _ =>
    [.islands, .host, .recorder]
  | .hartTransactionEnd _ _ =>
    [.islands, .host]
  | .complianceCheckPhase _ =>
    [.islands, .compliance, .host, .recorder]
  | .chanRead _ =>
    [.freeCount, .timeBase, .timetable, .inputs, .control, .servoUndo, .allocation, .islands, .signalBox, .lanes,
     .consist, .host, .recorder, .power]
  | .hartTransact _ =>
    [.timetable, .islands, .consist, .host]
  | .complianceCheck _ =>
    [.timetable, .islands, .compliance, .consist, .host]
  | .sbCommandSet _ =>
    [.timetable, .inputs, .islands, .signalBox, .host, .recorder]
  | .sbInternal _ | .safetyInputChange _ _ | .discrepancy _ | .safeContactTimeout _ | .yawRateStop
  | .sbSelfTestEnd _ _ _ =>
    [.islands, .signalBox]
  | .proofDue | .rstStuck | .rstStuckClear | .springbokRelease | .springbokTest _ _ =>
    [.signalBox]
  | .resetPulse =>
    [.islands, .signalBox, .host, .recorder]
  | .egressCopy _ _ _ | .egressTimeout _ =>
    [.timetable, .inputs, .gnss, .lanes, .consist, .host, .recorder, .power]
  | .reintegrationStart _ =>
    [.lanes]
  | .laneEnterService _ =>
    [.lanes, .host, .recorder]
  | .junctionPairDifference _ _ | .retainedRegionScrub _ =>
    [.lanes, .junction, .consist, .host, .recorder, .power]
  | .junctionBlockRecovered _ _ =>
    [.junction, .consist, .host, .recorder]
  | .ringMessage _ _ =>
    [.freeCount, .mram, .timeBase, .timetable, .inputs, .gnss, .lanes, .consist, .host, .recorder, .power]
  | .ringLinkUp _ | .ringLinkDown _ | .noHome | .carrierFault _ _ | .takeoverCapture =>
    [.consist, .host, .recorder]
  | .linkDelayMeasure _ _ _ | .heartbeatWord _ _ _ | .arbConfirmed | .arbRefused | .splitViewClear =>
    [.consist]
  | .rollCallStart =>
    [.mram, .timetable, .consist, .host, .power]
  | .rollCallEnd _ =>
    [.timeBase, .timetable, .consist, .host, .recorder]
  | .roleAssignment | .leadLost _ =>
    [.timeBase, .consist, .host, .recorder]
  | .takeoverStart =>
    [.mram, .timeBase, .timetable, .gnss, .control, .islands, .compliance, .lanes, .junction, .consist, .host,
     .recorder, .display, .power]
  | .takeoverRestore _ | .transferShadowEnd =>
    [.timeBase, .timetable, .inputs, .gnss, .references, .fusion, .observer, .setpoints, .control, .allocation,
     .islands, .lanes, .consist, .host, .recorder, .power]
  | .takeoverFirstFrame =>
    [.timeBase, .timetable, .inputs, .gnss, .observer, .setpoints, .allocation, .lanes, .consist, .host,
     .recorder, .power]
  | .transferRelease =>
    [.timeBase, .timetable, .inputs, .gnss, .control, .islands, .compliance, .lanes, .consist, .host, .recorder,
     .power]
  | .transferAbort =>
    [.timeBase, .timetable, .inputs, .gnss, .islands, .lanes, .consist, .host, .recorder, .power]
  | .transferLead _ | .openSession _ | .closeSession _ | .recClear _ | .recMark _ =>
    [.timetable, .consist, .host, .recorder]
  | .commandDatagram _ _ | .queueDoorbell _ _ _ =>
    [.timetable, .inputs, .consist, .host, .recorder]
  | .relayRecordExpiry _ | .queueEnable _ _ | .completionHeadWrite _ _ | .vecPendClear _ _ | .vecTest _
  | .imageTransferAbandon =>
    [.host]
  | .sessionTimeout _ =>
    [.host, .recorder]
  | .imageChunk _ _ =>
    [.mram, .timetable, .consist, .host]
  | .imageCommitComplete _ =>
    [.image, .timeBase, .timetable, .gnss, .references, .observer, .control, .allocation, .islands, .signalBox,
     .host, .recorder, .display, .power]
  | .recorderWrite _ =>
    [.mram, .timetable, .host, .recorder]
  | .recLoad | .recNext | .recPrev | .recLoadComplete =>
    [.recorder]
  | .displayFrameStart _ =>
    [.freeCount, .host, .recorder, .display]
  | .crackDetected | .glassTemperatureSample _ | .regionDead _ =>
    [.host, .recorder, .display]
  | .regionHoldEnd _ =>
    [.display]
  | .dispRegionWrite _ =>
    [.timetable, .consist, .host, .display]
  | .supplyChange _ _ _ =>
    [.host, .recorder, .display, .power]
  | .vbakTest _ | .overTemperature _ =>
    [.host, .recorder, .power]
  | .powerFail =>
    [.mram, .consist, .host, .recorder, .display, .power]
  | .holdupStop _ =>
    [.image, .mram, .timeBase, .timetable, .inputs, .gnss, .references, .fusion, .observer, .setpoints, .control,
     .servoUndo, .allocation, .islands, .compliance, .signalBox, .lanes, .junction, .consist, .host, .recorder,
     .display, .power]
  | .chamoisSecond | .vbakCollapse =>
    [.power]
  | .chamoisCopy =>
    [.mram, .timetable, .consist, .power]
  | .layoverEntry =>
    [.timeBase, .timetable, .inputs, .gnss, .islands, .lanes, .host, .recorder, .power]
  | .layoverLanesOff =>
    [.lanes, .power]
  | .sysRstAssert _ =>
    [.timeBase, .islands, .lanes, .consist, .host, .recorder, .power]
  | .bootComplete _ =>
    [.image, .mram, .timeBase, .timetable, .inputs, .gnss, .references, .observer, .control, .allocation,
     .islands, .signalBox, .lanes, .consist, .host, .recorder, .display, .power]
  | .ptpMessageTransmit _ _ =>
    [.timeBase, .timetable]

end Sys2Proof.Claims

open Sys2Proof Sys2Proof.Machine Sys2Proof.Claims

/-! ### The queue, the frames and the memory -/

/-- A step executes the command at the front of the queue with the rest of the queue; on an empty queue the block idles (the
model's choice, assumption 8). -/
def Obligations.StepTakesTheFront : Prop :=
  (∀ (c : Instr) (rest : List Instr) (s : State), s.pending = c :: rest → step s = exec c { s with pending := rest }) ∧
  ∀ s : State, s.pending = [] → step s = .next s

/-- First in, first out, with nothing put into the queue by the block itself: after `k` steps that all go on, the first `k`
commands are gone and the others wait in their order. -/
def Obligations.QueueDrainsInOrder : Prop :=
  ∀ (k : Nat) (s t : State), Sys2Proof.core.run k s = .next t → t.pending = s.pending.drop k

/-- The frame of every command: it leaves every part of the state as it was but those named by `touches`. -/
def Obligations.CommandFrames : Prop :=
  ∀ (c : Instr) (s t : State), exec c s = .next t → putBack s t (touches c) = s

/-- Every step keeps the canonical form of the MRAM: addresses rising, no byte listed that an unlisted address reads as. -/
def Obligations.MramStaysCanonical : Prop :=
  ∀ s t : State, memWf s.mram = true → step s = .next t → memWf t.mram = true

/-- BAR0 is 64 KiB: a register write beyond it is the one command that stops, and it always stops; no command is refused,
and every other command answers a next state in every state. It rests on R380, of which it states what is said here. -/
def Obligations.OnlyWritesBeyondBar0Stop : Prop :=
  (∀ (offset value : Nat) (s : State), 65536 ≤ offset →
    exec (.registerWrite offset value) s = .fault (.outsideBar0 offset)) ∧
  ∀ (c : Instr) (s : State), (∀ offset value, c = .registerWrite offset value → offset < 65536) →
    ∃ t, exec c s = .next t

/-- A byte written to a cell memory in canonical form reads back, and every other byte reads as before. -/
def Obligations.MemoryReadsWhatWasWritten : Prop :=
  ∀ (m : List Host.Cell) (a : Nat) (v : Byte), memWf m = true →
    memRead (memWrite m a v) a = v ∧ ∀ b, b ≠ a → memRead (memWrite m a v) b = memRead m b

/-! ### The clock and the timetable (chapters 01 to 03) -/

/-- The clock of the junction die: a strobe moves module time by 1 ms, the tick number from 0 to 9 and round, and the frame
number with tick 0. It rests on R19, of which it states what is said here. -/
def Obligations.StrobesMoveTime : Prop :=
  ∀ s : State, s.time.running = true →
    (advance s).mono = s.mono + 1 ∧ (advance s).tt.tick = (s.tt.tick + 1) % 10 ∧
    (advance s).tt.ticks = (s.tt.ticks + 1) % 2 ^ 32 ∧
    (advance s).tt.frame = (if (s.tt.tick + 1) % 10 = 0 then (s.tt.frame + 1) % 2 ^ 64 else s.tt.frame) ∧
    (s.time.ns < 1000000000 →
      (advance s).time.sec * 1000000000 + (advance s).time.ns = s.time.sec * 1000000000 + s.time.ns + 1000000 ∧
      (advance s).time.ns < 1000000000)

/-- TICK_STROBE and FRAME_BOUNDARY: the strobe of a tick moves the clock and does the work of the tick; at tick 9 the next
strobe begins a frame; the second of the two commands of tick 0 does not move the clock again (the model's choice of order,
assumption 58). It rests on R19, of which it states what is said here. -/
def Obligations.StrobesRun : Prop :=
  (∀ (err : Lane3 Nat) (s : State), clockRuns s = true → s.tt.strobeDue = false → (advance s).tt.tick ≠ 0 →
    exec (.tickStrobe err) s = .next (strobe err (advance s))) ∧
  (∀ (err : Lane3 Nat) (s : State), clockRuns s = true → s.tt.strobeDue = false → (advance s).tt.tick = 0 →
    exec (.tickStrobe err) s = .next (strobe err { advance s with tt.boundaryDue := true })) ∧
  (∀ (err : Lane3 Nat) (s : State), clockRuns s = true → s.tt.strobeDue = true →
    exec (.tickStrobe err) s = .next (strobe err { s with tt.strobeDue := false })) ∧
  (∀ s : State, clockRuns s = true → s.tt.boundaryDue = false → s.tt.tick = 9 →
    exec .frameBoundary s = .next (beginFrame { advance s with tt.strobeDue := true })) ∧
  ∀ s : State, clockRuns s = true → s.tt.boundaryDue = true →
    exec .frameBoundary s = .next (beginFrame { s with tt.boundaryDue := false })

/-! ### The activities of a frame (chapter 02) -/

/-- The chain activities from TARGET_ASSOCIATION to OUTPUT_DISTRIBUTION: each, as the next one of its frame, does its work
and completes, charged within its bound; while an image is being activated or none is active, it only completes. It rests on
R45, R393, R443, of which it states what is said here. -/
def Obligations.ActivitiesDoTheirWork : Prop :=
  (∀ s : State, mayRun 2 s = true → works s = true →
    exec .targetAssociation s = .next (completeIn 2 (assocCharge s) (associate s))) ∧
  (∀ s : State, mayRun 2 s = true → works s = false → exec .targetAssociation s = .next (completeIn 2 (assocCharge s) s)) ∧
  (∀ s : State, mayRun 3 s = true → works s = true →
    exec .gridFusion s = .next (completeIn 3 (fusionCharge (fuse s)) (fuse s))) ∧
  (∀ s : State, mayRun 3 s = true → works s = false → exec .gridFusion s = .next (completeIn 3 (fusionCharge s) s)) ∧
  (∀ s : State, mayRun 4 s = true → works s = true → exec .observer s = .next (completeAct 4 (observe s))) ∧
  (∀ s : State, mayRun 4 s = true → works s = false → exec .observer s = .next (completeAct 4 s)) ∧
  (∀ s : State, mayRun 5 s = true → works s = true →
    exec .controlLaw s = .next (completeIn 5 (lawCharge s) (lawFrame s))) ∧
  (∀ s : State, mayRun 5 s = true → works s = false → exec .controlLaw s = .next (completeIn 5 (lawCharge s) s)) ∧
  (∀ s : State, mayRun 6 s = true → works s = true →
    exec .allocation s = .next (completeIn 6 (allocCharge s.image.alloc).floor.toNat (allocFrame s))) ∧
  (∀ s : State, mayRun 6 s = true → works s = false →
    exec .allocation s = .next (completeIn 6 (allocCharge s.image.alloc).floor.toNat s)) ∧
  (∀ s : State, mayRun 7 s = true → works s = true → exec .outputDistribution s = .next (completeAct 7 (outputFrame s))) ∧
  ∀ s : State, mayRun 7 s = true → works s = false → exec .outputDistribution s = .next (completeAct 7 s)

/-- Every chain activity that runs hands the frame to the next one; the servo, ID 8, runs in its slots and is passed over.
It rests on R45, of which it states what is said here. -/
def Obligations.ActivitiesRunInOrder : Prop :=
  (∀ (err : Lane3 Nat) (s : State), mayRun 0 s = true →
    ∃ t, exec (.inputGather err) s = .next t ∧ t.tt.nextAct = 1) ∧
  (∀ s : State, mayRun 1 s = true → ∃ t, exec .timeAlignment s = .next t ∧ t.tt.nextAct = 2) ∧
  (∀ s : State, mayRun 2 s = true → ∃ t, exec .targetAssociation s = .next t ∧ t.tt.nextAct = 3) ∧
  (∀ s : State, mayRun 3 s = true → ∃ t, exec .gridFusion s = .next t ∧ t.tt.nextAct = 4) ∧
  (∀ s : State, mayRun 4 s = true → ∃ t, exec .observer s = .next t ∧ t.tt.nextAct = 5) ∧
  (∀ s : State, mayRun 5 s = true → ∃ t, exec .controlLaw s = .next t ∧ t.tt.nextAct = 6) ∧
  (∀ s : State, mayRun 6 s = true → ∃ t, exec .allocation s = .next t ∧ t.tt.nextAct = 7) ∧
  ∀ s : State, mayRun 7 s = true → ∃ t, exec .outputDistribution s = .next t ∧ t.tt.nextAct = 9

/-- INPUT_GATHER and TIME_ALIGNMENT: the lanes parse, record by record, the frame set that they agree on; without a majority
they parse none and mark the frame as one without a set. Alignment then empties the measurements of the frame before; it
aligns every parsed record and judges the missed updates, or, without a set, counts an update of every reference and sensor
as missed; it takes the vote of every quantity. With no image active it only completes. It rests on R29, R31, R133, R140, of
which it states what is said here. -/
def Obligations.InputsAreGathered : Prop :=
  (∀ (err : Lane3 Nat) (s : State), mayRun 0 s = true → (agreeOn .frame s.inp.fdig err s).1 = true →
    exec (.inputGather err) s = .next (completeAct 0
      (s.inp.fcur.foldl parseRecord
        { (agreeOn .frame s.inp.fdig err s).2 with
          inp := { (agreeOn .frame s.inp.fdig err s).2.inp with parsed := [], noSet := false } }))) ∧
  (∀ (err : Lane3 Nat) (s : State), mayRun 0 s = true → (agreeOn .frame s.inp.fdig err s).1 = false →
    exec (.inputGather err) s = .next (completeAct 0
      { (agreeOn .frame s.inp.fdig err s).2 with
        inp := { (agreeOn .frame s.inp.fdig err s).2.inp with parsed := [], noSet := true } })) ∧
  (∀ s : State, mayRun 1 s = true → works s = true →
    ∃ u v, u = { s with
        ref.refs := s.ref.refs.map (fun x => { x with meas := [] })
        ref.sens := s.ref.sens.map (fun x => { x with meas := [] }) } ∧
      v = keepAttitude (voteQs.foldl voteOne (withholdInternal
        (if s.inp.noSet then missAll u else missDue (s.inp.parsed.foldl alignRecord u)))) ∧
      exec .timeAlignment s = .next (completeAct 1
        { v with ref.sens := v.ref.sens.map (fun x => { x with dropEnd := false }) })) ∧
  ∀ s : State, mayRun 1 s = true → works s = false → exec .timeAlignment s = .next (completeAct 1 s)

/-- CHECKPOINT, HOST_SERVICE, LOGGING and HOUSEKEEPING: the Lead sends its checkpoints, the lanes' digests are judged and a
returning lane goes on with its return; the agreed number of packets is processed, none while a reply waits for a place in a
full buffer; the agreed number of records is staged; the displays are rendered with at least one item, what the scrub of the
junction finds is taken, and a lane whose scrub finds a double-bit error has a fault. It rests on R52, R351, R393, R400, of
which it states what is said here. -/
def Obligations.ItemActivitiesRun : Prop :=
  (∀ (dig copy : Lane3 Nat) (v : Bool) (s : State), mayRun 9 s = true →
    ∃ u w, u = completeAct 9 (if works s then sendCheckpoints copy v s else s) ∧
      w = (if lanesRun u then judgeDigests dig u else u) ∧
      exec (.checkpoint ⟨dig, copy, v⟩) s = .next (if runState w then
        lanesAll.foldl (fun x l => reintegrateAt (s.tt.frame % 10 == 0) dig l x) w else w)) ∧
  (∀ (rep : Lane3 ItemReport) (n : Nat) (s : State), mayRun 10 s = true →
    n = (if producerWaits s then 0 else agreedItems rep s) →
    exec (.hostService rep) s = .next (chargeLeast 10 (verifyCharge (s.inp.packets.take n))
      (endItems 10 rep ((s.inp.packets.take n).foldl processOne { s with inp.packets := s.inp.packets.drop n })))) ∧
  (∀ (rep : Lane3 ItemReport) (s : State), mayRun 11 s = true →
    exec (.logging rep) s = .next (endItems 11 rep (stagePending (agreedItems rep s) s))) ∧
  (∀ (rep : Lane3 ItemReport) (j : ScrubFind) (s : State), mayRun 12 s = true →
    exec (.housekeeping rep ⟨none, j⟩) s = .next (scrubFound j (endItems 12 rep
      (if works s && decide (0 < agreedItems rep s) then renderModules s else s)))) ∧
  ∀ (rep : Lane3 ItemReport) (l : Lane) (j : ScrubFind) (s : State), mayRun 12 s = true →
    exec (.housekeeping rep ⟨some l, j⟩) s = .next (laneFault l 7 (scrubFound j (endItems 12 rep
      (if works s && decide (0 < agreedItems rep s) then renderModules s else s))))

/-- Holds: an activity held by lanes in service is held once for all of them; a lane that reports HELD after that counts as
well, and its use of the activity is the whole budget; a lane that has not reported in time counts as HELD and the timeout
is charged to it, in an open exchange and in one already held; the chain activity still running in tick 3 at its closing is
held with those after it, and the chain ends; ten holds of an activity in a row silence the module. It rests on R48 to R51,
R53, R55, of which it states what is said here. -/
def Obligations.HoldsAreAgreed : Prop :=
  (∀ (act : Nat) (held : Lane3 Bool) (s : State), outcomeOpen act s = true → (serving s).filter held.get ≠ [] →
    exec (.heldAtSignal act held) s =
      .next (holdActivity act ((serving s).filter held.get) ((serving s).filter held.get) s)) ∧
  (∀ (act : Nat) (held : Lane3 Bool) (s : State), outcomeOpen act s = false →
    ∃ also used, also = ((serving s).filter held.get).filter (fun l => alsoHeld act l s) ∧
      used = also.foldl (fun u l => u.set (3 * act + l.num) (s.tt.budget.getD act 0)) s.tt.usedNow ∧
      exec (.heldAtSignal act held) s = .next (countHeld act also { s with tt.usedNow := used })) ∧
  (∀ (act : Nat) (lane : Lane) (s : State), outcomeOpen act s = true → inService s lane = true → 1 < nServing s →
    exec (.outcomeTimeout act lane) s = .next (chargeTimeout lane (holdActivity act [lane] [] s))) ∧
  (∀ (act : Nat) (lane : Lane) (s : State), outcomeOpen act s = false → alsoHeld act lane s = true → 1 < nServing s →
    exec (.outcomeTimeout act lane) s = .next (chargeTimeout lane (countHeld act [lane] s))) ∧
  (∀ (running : Lane3 Bool) (s : State), s.tt.nextAct ≤ 7 → s.tt.tick = 3 → outcomeOpen s.tt.nextAct s = true →
    (serving s).filter running.get ≠ [] →
    ∃ u, u = (chainAfter s.tt.nextAct).foldl notStarted (holdActivity s.tt.nextAct ((serving s).filter running.get) [] s) ∧
      exec (.chainClosingHold running) s = .next (closingFault ((serving s).filter running.get)
        { u with tt := { u.tt with closing := sat 32 (u.tt.closing + 1), closingNow := true, nextAct := 9 } })) ∧
  ∀ (act : Nat) (s : State), lanesRun s = true → act ≤ 8 → 10 ≤ s.tt.run.getD act 0 →
    ∃ t, exec (.persistentHold act) s = .next t ∧
      t = fallSilent (logL 2 2 (leBytes 1 act ++ leBytes 2 (sat 16 (s.tt.run.getD act 0))) s) ∧
      t.pow.state = .fault ∧ t.pow.silentAt = some s.mono ∧ t.pow.shutdown = 4 ∧ t.cons.arbOut = false ∧ nServing t = 0

/-- DEFERRED_TRAFFIC_RELEASE and DEFERRED_COMMAND_EFFECT: of the traffic that waits for a resource, what fits the budgets of
the frame starts in its order, the rest goes on waiting and the budgets keep what is left; nothing of the ring starts while
neither ring block works; the effects due at a boundary come into force together in their order and leave the list. It rests
on R16, R56, R57, R61, of which it states what is said here. -/
def Obligations.WaitingWorkIsReleased : Prop :=
  (∀ (v : Bool) (s : State) (r : List Waiting × List Waiting × List Nat), junctionUp s = true → ringUp s = true →
    r = releaseClasses (fun _ => true) id 5 s.tt.ringWait s.tt.ringLeft →
    ∃ t, exec (.deferredTrafficRelease ⟨.ring, v⟩) s = .next t ∧
      t = r.1.foldl (releaseOne v) { s with tt.ringWait := r.2.1, tt.ringLeft := r.2.2 } ∧
      t.tt.ringWait = r.2.1 ∧ t.tt.ringLeft = r.2.2) ∧
  (∀ (v : Bool) (s : State), ringUp s = false → exec (.deferredTrafficRelease ⟨.ring, v⟩) s = .next s) ∧
  (∀ (v : Bool) (s : State) (r : List Waiting × List Waiting × List Nat), junctionUp s = true →
    r = releaseClasses (fun _ => true) id 4 s.tt.mramWait s.tt.mramLeft →
    ∃ t, exec (.deferredTrafficRelease ⟨.mram, v⟩) s = .next t ∧
      t = r.1.foldl (releaseOne v) { s with tt.mramWait := r.2.1, tt.mramLeft := r.2.2 } ∧
      t.tt.mramWait = r.2.1 ∧ t.tt.mramLeft = r.2.2) ∧
  (∀ (port : Nat) (v : Bool) (s : State) (r : List Waiting × List Waiting × List Nat), junctionUp s = true →
    r = releaseClasses (fun w => w.port == port) (fun c => 6 * port + c) 6 s.tt.egressWait s.tt.egressLeft →
    ∃ t, exec (.deferredTrafficRelease ⟨.egress port, v⟩) s = .next t ∧
      t = r.1.foldl (releaseOne v) { s with tt.egressWait := r.2.1, tt.egressLeft := r.2.2 } ∧
      t.tt.egressWait = r.2.1 ∧ t.tt.egressLeft = r.2.2) ∧
  ∀ s : State, junctionUp s = true → atBoundary s = true → 0 < s.host.due →
    exec .deferredCommandEffect s = .next (publishState (redoServo ((effectOrder (s.host.deferred.take s.host.due)).foldl applyOne
      { s with host.deferred := s.host.deferred.drop s.host.due, host.due := 0 })))

/-! ### The time base (chapter 03) -/

/-- SOURCE_QUALIFIED, SOURCE_LOST, STEP_APPLIED, SLEW_COMPLETE and FREERUN_ENTRY: a source that is due is marked qualified
with its offset, and the selection is judged again; a source whose loss is due is lost; a step whose second has come moves
module time and every stamp and offset measured in it by its amount, counts modulo 16, leaves the residual as the error, and
is no longer pending; a slew ends when the error is gone; STATE becomes FREERUN when the holdover estimate has reached 1 µs.
It rests on R70, R77 to R80, of which it states what is said here. -/
def Obligations.TimeSourcesQualify : Prop :=
  (∀ (id : Nat) (err : Int) (s : State), sourceDue s id = true →
    exec (.sourceQualified id err) s = .next (reselect { s with time.srcs := s.time.srcs.modify id (fun x =>
      { x with qualified := true, present := true, offset := err }) })) ∧
  (∀ (id : Nat) (s : State), lossDue s id = true → exec (.sourceLost id) s = .next (loseSource id s)) ∧
  (∀ (residual : Int) (s : State) (due : Nat) (amt : Int), s.time.step = some (due, amt) → due ≤ s.time.sec →
    ∃ u, exec (.stepApplied residual) s = .next (reselect (judgeState (decide (s.time.state = 0)) u)) ∧
      u.time.sec = (((s.time.sec * 1000000000 + s.time.ns : Nat) : Int) + amt).toNat / 1000000000 ∧
      u.time.ns = (((s.time.sec * 1000000000 + s.time.ns : Nat) : Int) + amt).toNat % 1000000000 ∧
      u.time.step = none ∧ u.time.stepCount = (s.time.stepCount + 1) % 16 ∧ u.time.steppedAt = some s.mono ∧
      u.time.err = residual ∧ u.time.slewing = decide (residual ≠ 0) ∧ u.time.slewAt = s.mono ∧
      u.time.srcs = s.time.srcs.map (fun x => { x with offset := x.offset - amt }) ∧
      u.ref.refs = s.ref.refs.map (stepUnit amt) ∧ u.ref.sens = s.ref.sens.map (stepUnit amt)) ∧
  (∀ s : State, s.time.slewing = true → curErr s = 0 →
    exec .slewComplete s = .next (judgeState false { s with time.slewing := false, time.err := 0, time.steer := 0 })) ∧
  ∀ s : State, s.time.state = 2 → s.time.selected = none → 1000 ≤ holdEst s →
    ∃ t, exec .freerunEntry s = .next t ∧ t = setTimeState 1 s ∧ t.time.state = 1

/-- A source adopted: with module time valid an error below 1 ms starts a slew and no step; from 1 ms on the step is
announced two seconds ahead. It rests on R78, R79, of which it states what is said here. -/
def Obligations.ErrorsSlewOrStep : Prop :=
  ∀ (id : Nat) (s : State), s.time.state ≠ 0 → s.time.step = none →
    ∀ off, off = (s.time.srcs.getD id {}).offset →
      (adoptSource id s).time.selected = some id ∧
      (off.natAbs < 1000000 → (adoptSource id s).time.step = none ∧ (adoptSource id s).time.slewing = decide (off ≠ 0)) ∧
      (1000000 ≤ off.natAbs → (adoptSource id s).time.step = some (s.time.sec + 2, off))

/-- EXT10M_QUALIFIED, EXT10M_LOST, PPS_OUT_PULSE, PPS_IN_EDGE and SNAP_LATCH: the 10 MHz input is marked qualified or lost;
an output whose pulse is due at a second boundary begins it with the width, polarity and offset in force at its start, and
counts it; an edge on the pulse input is captured with the cable delay taken off and the quality of that instant, and a bad
interval loses the source; without a label port the pulse is labelled at once, with one its label is awaited; a latch copies
the time, the frame, STATE, the step, TAI−UTC and the last capture, and counts. It rests on R74, R82, R83, R85, R93, of
which it states what is said here. -/
def Obligations.TimeEdgesAreTaken : Prop :=
  (∀ s : State, s.time.running = true →
    exec .ext10mQualified s = .next { s with time.extPresent := true, time.extQualified := true, time.extSince := some s.mono }) ∧
  (∀ s : State, exec .ext10mLost s = .next { s with time.extQualified := false, time.extSince := none }) ∧
  (∀ (out b : Nat) (s : State), ppsDue s (s.time.ppsOut.getD out {}) = some b →
    exec (.ppsOutPulse out) s = .next { s with time.ppsOut := s.time.ppsOut.modify out (fun p =>
      { p with lastNs := some ((b : Int) * 1000000000), edgeNs := (b : Int) * 1000000000 + p.cfg.offset,
               pulses := p.pulses + 1, width := p.cfg.width, pol := p.cfg.polarity, offset := p.cfg.offset }) }) ∧
  (∀ (ns t : Nat) (good : Bool) (s u : State), s.time.running = true → s.time.ppsInCfg.enable = true →
    t = (((s.time.sec * 1000000000 + ns : Nat) : Int) - s.time.ppsInCfg.offset).toNat →
    good = (match s.time.ppsLast with
      | none => false
      | some l => decide (l + 999999000 ≤ t ∧ t ≤ l + 1000001000)) →
    u = hearSource 2 { s with time.ppsSec := t / 1000000000 % 2 ^ 32, time.ppsNs := t % 1000000000,
                              time.ppsQual := qualityByte s, time.ppsLast := some t } →
    ∃ v, v = (if !good && !s.time.ppsLast.isNone then loseSource 2 u else u) ∧
      (s.time.ppsInCfg.labelPort = 255 → exec (.ppsInEdge ns) s = .next (unlabelled t good v)) ∧
      (s.time.ppsInCfg.labelPort ≠ 255 → exec (.ppsInEdge ns) s = .next { v with time.ppsPend := some (t, good) })) ∧
  ∀ (value : Nat) (s : State), value.testBit 0 = true →
    exec (.snapLatch value) s = .next { s with time.snap :=
      { seq := (s.time.snap.seq + 1) % 2 ^ 32, sec := s.time.sec, ns := s.time.ns, frac := s.time.frac,
        quality := qualityByte s, frame := s.tt.frame, timeState := timeStateReg s, errEst := errEst s,
        stepAt := (s.time.step.map (·.1)).getD 0, stepAmt := ofSigned 64 ((s.time.step.map (·.2)).getD 0),
        taiUtc := ofSigned 16 (taiUtc s s.time.sec), ppsSec := s.time.ppsSec, ppsNs := s.time.ppsNs } }

/-- PTP_MESSAGE, PTP_ANNOUNCE_TIMEOUT, PTP_MESSAGE_TRANSMIT and TX_STAMP_QUEUED: a message of a version or type not
supported is counted and ignored, one of another domain or transport changes nothing; of the others an Announce is judged, a
request is noted, and the offset measured by the slave port is taken; an Announce is noted among the masters of its port,
and the best master clock algorithm decides every port again: the port of the best master that is no worse than this clock
is the slave, every port is free of a master where this clock is better, and an announce-only clock that is worse is passive
(the order is the model's reading of Table 3-6, assumption 112); a port that hears no Announce in time forgets its masters,
a slave port also loses the PTP source, and the ports are decided again; a message that the port may send is charged to the
time class and sent, or waits; a transmit stamp is queued for a host's request, or with stamp copying. It rests on R70, R86,
R87, R89, R90, of which it states what is said here. -/
def Obligations.PtpPortsFollowTheirRoles : Prop :=
  (∀ (port : Nat) (m : PtpMsg) (s : State), s.time.running = true → ptpOn s port = true →
    m.supported = false ∨ ptpKnown m.messageType = false →
    exec (.ptpMessage port m) s = .next { s with time.ptp := s.time.ptp.modify port (fun p =>
      { p with ignored := sat 32 (p.ignored + 1) }) }) ∧
  (∀ (port : Nat) (m : PtpMsg) (s : State), s.time.running = true → ptpOn s port = true → m.supported = true →
    ptpKnown m.messageType = true → m.domain ≠ s.time.ptpClock.domain ∨ m.transport ≠ (s.time.ptp.getD port {}).cfg.transport →
    exec (.ptpMessage port m) s = .next s) ∧
  (∀ (port : Nat) (m : PtpMsg) (s u : State), s.time.running = true → ptpOn s port = true → m.supported = true →
    ptpKnown m.messageType = true → m.domain = s.time.ptpClock.domain →
    m.transport = (s.time.ptp.getD port {}).cfg.transport →
    u = ptpRequest port m (if m.messageType = 11 then ptpAnnounce port m s else s) →
    (m.offset = none → exec (.ptpMessage port m) s = .next u) ∧
    ∀ o : Int, m.offset = some o → exec (.ptpMessage port m) s =
      .next (if slavePort u = some port then ptpOffset port o u else u)) ∧
  (∀ (port : Nat) (m : PtpMsg) (s : State),
    ptpAnnounce port m s = decidePorts { s with time.ptp := s.time.ptp.modify port (noteForeign s.mono m) }) ∧
  (∀ (s u : State),
    u = { s with time.ptp := s.time.ptp.mapIdx (fun k p => { p with role := if ptpOn s k = true then portRole s k else p.role }) } →
    decidePorts s = if slavePort s ≠ none ∧ slavePort u ≠ slavePort s then ptpLost u else u) ∧
  (∀ (port : Nat) (s : State) (e b : PtpData), portBest s port = some e → clockBest s = some b → s.time.ptpClock.clockType ≠ 3 →
    (comparePtp (ownData s) b ≤ 0 → b.receiverPort = port + 1 → portRole s port = .slave) ∧
    (0 < comparePtp (ownData s) b → portRole s port = freeRole s)) ∧
  (∀ (port : Nat) (s : State) (e : PtpData), portBest s port = some e → s.time.ptpClock.clockType = 3 →
    portRole s port = if 0 ≤ comparePtp (ownData s) e then freeRole s else .passive) ∧
  (∀ (port : Nat) (s : State), (s.time.ptp.getD port {}).role = .slave →
    heldFor s (s.time.ptp.getD port {}).lastAnnounce (announceTimeoutMs (s.time.ptp.getD port {}).cfg) = true →
    exec (.ptpAnnounceTimeout port) s = .next (decidePorts (loseSource 1 { s with
      time.ptp := s.time.ptp.modify port (fun p => { p with role := freeRole s, foreign := [] }), time.ptpOffsets := [] }))) ∧
  (∀ (port : Nat) (s : State), (s.time.ptp.getD port {}).role = .listening ∨ (s.time.ptp.getD port {}).role = .passive →
    heldFor s (s.time.ptp.getD port {}).lastAnnounce (announceTimeoutMs (s.time.ptp.getD port {}).cfg) = true →
    exec (.ptpAnnounceTimeout port) s = .next (decidePorts { s with
      time.ptp := s.time.ptp.modify port (fun p => { p with role := freeRole s, foreign := [] }) })) ∧
  (∀ (port : Nat) (kind : PtpTx) (s : State) (r : Bool × State), ptpMay s port kind = true →
    r = chargeEgress { cls := 0, bytes := ptpBytes (s.time.ptp.getD port {}).cfg.transport kind, port := port, cargo := .ptp kind } s →
    exec (.ptpMessageTransmit port kind) s = .next (if r.1 then sendPtp port kind r.2 else r.2)) ∧
  ∀ (port : Nat) (e : StampReq) (s : State), e.kind = 0 ∨ (s.time.ptp.getD port {}).cfg.copy = true →
    exec (.txStampQueued port e) s = .next (queueStamp port e s)

/-! ### Records, references, fusion and observer (chapters 01, 05 and 06) -/

/-- RECORD_ARRIVAL: a whole record takes the ingress delay of its link and the quality of its instant; one whose last byte
and stamp come before the cut of the collected window joins that set, if the set has room for it and its 20 bytes of header,
in the order of the set; one for which the set has no room is dropped; a later one joins the next set. A sentence ends the
discarding of its port, and a whole one joins the frame set in the same way; while the port discards, what holds no start of
a sentence is gone. It rests on R25 to R27, of which it states what is said here. -/
def Obligations.RecordsJoinTheirSet : Prop :=
  (∀ (r : InRecord) (s : State), junctionUp s = true → s.time.running = true → arrivesWhole r.data = true →
    linkWorks s r.link = true → exec (.recordArrival r) s = .next (takeRecord (stamped s r) s)) ∧
  (∀ (r q : InRecord) (s : State) (last : Nat), junctionUp s = true → s.time.running = true → arrivesWhole r.data = true →
    linkWorks s r.link = true → (∀ bs, r.data ≠ .sentence bs) →
    q = { r with stampNs := r.stampNs + ingress s r.link, quality := qualityByte s } →
    last = max (r.stampNs + ingress s r.link) r.doneNs →
    (isTickData r.data = false → last < windowEnd false s → s.inp.fFull = false →
      setSize s.inp.fset + r.length + 20 ≤ setCap false →
      exec (.recordArrival r) s = .next { s with inp.fset := insertRec q s.inp.fset }) ∧
    (isTickData r.data = true → last < windowEnd true s → s.inp.tFull = false →
      setSize s.inp.tset + r.length + 20 ≤ setCap true →
      exec (.recordArrival r) s = .next { s with inp.tset := insertRec q s.inp.tset }) ∧
    (last < windowEnd (isTickData r.data) s →
      (if isTickData r.data then s.inp.tFull = true ∨ setCap true < setSize s.inp.tset + r.length + 20
        else s.inp.fFull = true ∨ setCap false < setSize s.inp.fset + r.length + 20) →
      exec (.recordArrival r) s = .next (dropRec (isTickData r.data) q s)) ∧
    (isTickData r.data = false → windowEnd false s ≤ last →
      exec (.recordArrival r) s = .next { s with inp.fnext := insertRec q s.inp.fnext }) ∧
    (isTickData r.data = true → windowEnd true s ≤ last →
      exec (.recordArrival r) s = .next { s with inp.tnext := insertRec q s.inp.tnext })) ∧
  (∀ (r q : InRecord) (bs : List Byte) (s u : State) (last : Nat), junctionUp s = true → s.time.running = true →
    linkWorks s r.link = true → r.data = .sentence bs → s.inp.portSkip.contains r.link = false →
    q = { r with stampNs := r.stampNs + ingress s r.link, quality := qualityByte s } →
    last = max (r.stampNs + ingress s r.link) r.doneNs →
    u = { s with inp.portSkip := s.inp.portSkip.filter (fun l => l != r.link) } →
    (∀ utc, zdaUtc (portOf u r.link) bs = some utc →
      exec (.recordArrival r) s = .next (addRecord q (labelPps r.link utc r.doneNs u))) ∧
    (zdaUtc (portOf u r.link) bs = none → last < windowEnd false s → s.inp.fFull = false →
      setSize s.inp.fset + r.length + 20 ≤ setCap false →
      exec (.recordArrival r) s = .next { u with inp.fset := insertRec q s.inp.fset }) ∧
    (zdaUtc (portOf u r.link) bs = none → last < windowEnd false s →
      s.inp.fFull = true ∨ setCap false < setSize s.inp.fset + r.length + 20 →
      exec (.recordArrival r) s = .next (dropRec false q u)) ∧
    (zdaUtc (portOf u r.link) bs = none → windowEnd false s ≤ last →
      exec (.recordArrival r) s = .next { u with inp.fnext := insertRec q s.inp.fnext })) ∧
  ∀ (r : InRecord) (bs : List Byte) (s : State), r.data = .sentence bs → s.inp.portSkip.contains r.link = true →
    bs.all (fun b => !isStart b) = true → exec (.recordArrival r) s = .next s

/-- REDELIVERY, JUNCTION_INPUT_PATH_FAULT, FAST_PACKET_TIMEOUT and SENTENCE_OVERLENGTH: a redelivered set that is complete
and matches the accepted one clears the request and writes its record, any other also puts the lane out; after three sets in
a row without a majority the module falls silent; a packet incomplete for 750 ms is dropped and counted as a discard of
cause 3; a sentence without its end is a discard of cause 0, and its port skips to the next start. It rests on R30, R31,
R126, R130, of which it states what is said here. -/
def Obligations.BadInputIsDiscarded : Prop :=
  (∀ (kind : SetKind) (lane : Lane) (err copy : Nat) (r : Redeliv) (s : State),
    s.inp.redeliv.find? (fun x => x.lane == lane && x.kind == kind) = some r →
    copy = (match kind with
      | .frame => s.inp.fdig
      | .tick => s.inp.tdig) ^^^ err →
    ∃ u, u = { s with inp.redeliv := s.inp.redeliv.filter (fun x => !(x.lane == lane && x.kind == kind)) } ∧
      (copy = r.accept → exec (.redelivery kind lane err true) s = .next (logLMask 2 5 (2 ^ lane.num)
        (leBytes 1 (if kind == .frame then 0 else 1) ++ leBytes 8 r.accept ++ leBytes 8 r.first) u)) ∧
      (copy ≠ r.accept → exec (.redelivery kind lane err true) s = .next (laneFault lane 1 (logLMask 2 5 (2 ^ lane.num)
        (leBytes 1 (if kind == .frame then 0 else 1) ++ leBytes 8 0 ++ leBytes 8 copy) u))) ∧
      exec (.redelivery kind lane err false) s = .next (laneFault lane 1 (logLMask 2 5 (2 ^ lane.num)
        (leBytes 1 (if kind == .frame then 0 else 1) ++ leBytes 8 0 ++ leBytes 8 r.first) u))) ∧
  (∀ s : State, 3 ≤ s.inp.fNoMaj → exec (.junctionInputPathFault .frame) s = .next (fallSilent s)) ∧
  (∀ s : State, 3 ≤ s.inp.tNoMaj → exec (.junctionInputPathFault .tick) s = .next (fallSilent s)) ∧
  (∀ (link src pgn : Nat) (s : State),
    s.inp.fast.any (fun x => x.link == link && x.src == src && x.pgn == pgn && decide (x.since + 750 ≤ s.mono)) = true →
    ∃ t, exec (.fastPacketTimeout link src pgn) s = .next t ∧
      t = discardBound link 3 (fun b => b.canSources.contains src) { s with
        inp.fast := s.inp.fast.filter (fun x => !(x.link == link && x.src == src && x.pgn == pgn)) } ∧
      t.inp.fast = s.inp.fast.filter (fun x => !(x.link == link && x.src == src && x.pgn == pgn)) ∧
      (s.inp.discards.any (fun d => d.1 == link && d.2.1 == 3) = false → t.inp.discards = (link, 3, 1) :: s.inp.discards)) ∧
  ∀ (link : Nat) (s : State), junctionUp s = true →
    ∃ t, exec (.sentenceOverlength link) s = .next t ∧
      t = discardBound link 0 (fun _ => true) { s with
        inp.portSkip := link :: s.inp.portSkip.filter (fun l => l != link) } ∧
      t.inp.portSkip = link :: s.inp.portSkip.filter (fun l => l != link)

/-- SENSOR_DEVIATING, SENSOR_READMIT, REF_NO_DATA and PROBATION_END: a candidate of a voted quantity beyond its threshold
for 5 s is marked deviating and its record written, one within half of it for 30 s is admitted again; an ACTIVE reference or
sensor without a delivered record for three periods has no data; a reference on probation whose third consecutive update has
passed is proven. It rests on R140, R159, R176, of which it states what is said here. -/
def Obligations.SensorsAndReferencesAreJudged : Prop :=
  (∀ (q : VoteQ) (cand : Nat) (s : State) (c : Cand), c = (s.ref.votes.getD q.num {}).cands.getD cand {} →
    c.deviating = false → heldFor s c.outSince 5000 = true →
    ∃ t, exec (.sensorDeviating q cand) s = .next t ∧
      t = logL 5 4 (leBytes 1 q.num ++ leBytes 1 0 ++ leBytes 4 (2 ^ cand)) { s with ref.votes := s.ref.votes.modify q.num (fun v =>
        { v with cands := v.cands.modify cand (fun c => { c with deviating := true, outSince := none, inSince := none }) }) } ∧
      t.ref.votes = s.ref.votes.modify q.num (fun v =>
        { v with cands := v.cands.modify cand (fun c => { c with deviating := true, outSince := none, inSince := none }) })) ∧
  (∀ (q : VoteQ) (cand : Nat) (s : State) (c : Cand), c = (s.ref.votes.getD q.num {}).cands.getD cand {} →
    c.deviating = true → heldFor s c.inSince 30000 = true →
    exec (.sensorReadmit q cand) s = .next { s with ref.votes := s.ref.votes.modify q.num (fun v =>
      { v with cands := v.cands.modify cand (fun c => { c with deviating := false, outSince := none, inSince := none }) }) }) ∧
  (∀ (sensor : Bool) (i : Nat) (s : State), (unitOf s sensor i).state = .active → (unitOf s sensor i).lastRx = none →
    exec (.refNoData sensor i) s = .next (onUnit sensor i (fun u => { u with state := .noData }) s)) ∧
  (∀ (sensor : Bool) (i at_ : Nat) (s : State), (unitOf s sensor i).state = .active → (unitOf s sensor i).lastRx = some at_ →
    3 * periodNs s sensor i ≤ (((s.mono - at_) * 1000000 : Nat) : Int) →
    exec (.refNoData sensor i) s = .next (onUnit sensor i (fun u => { u with state := .noData }) s)) ∧
  ∀ (r : Nat) (s : State), lanesRun s = true → (s.ref.refs.getD r {}).fusion = 1 → (s.ref.refs.getD r {}).proven = false →
    (s.ref.refs.getD r {}).probation = 3 →
    exec (.probationEnd r) s = .next { s with ref.refs := s.ref.refs.modify r (fun u =>
      { u with proven := true, probation := 0, fusion := 0 }) }

/-- REF_CONFLICT_RAISED, REF_CONFLICT_CLEARED, CONFLICT_TIMEOUT, RECENTRE_MEASURED and GRID_HOLD_EXPIRY: the third frame of
a condition raises the conflict, records it and puts its parties into it; 5 s of agreement clear it, and a party still in
conflict is FUSED if it was chosen, else rejected by the vote; the conflict timeout of the image lets the alarm level see
it; after three frames without a supported peak the grid is to be recentred on the combined measurement of the admitted
references; a held grid is let go 10 s after the last HOLD. It rests on R180 to R183, R196, of which it states what is said
here. -/
def Obligations.ConflictsAreRaisedAndCleared : Prop :=
  (∀ s : State, lanesRun s = true → s.fus.conflict = false → 3 ≤ s.fus.condRun →
    ∃ t, exec .refConflictRaised s = .next t ∧
      t = assertVec 38 (logL 6 1 (leBytes 1 1 ++ leBytes 2 (maskOf s.fus.parties) ++ leBytes 1 s.fus.condition) { s with
        fus.conflict := true
        fus.conflictAt := s.mono
        fus.conflictDegraded := false
        fus.agreeSince := none
        fus.handed := none
        ref.refs := s.ref.refs.mapIdx (fun i u => if s.fus.parties.contains i then { u with fusion := 6 } else u) }) ∧
      t.fus.conflict = true ∧ t.fus.conflictAt = s.mono ∧ t.fus.conflictDegraded = false ∧
      t.ref.refs = s.ref.refs.mapIdx (fun i u => if s.fus.parties.contains i then { u with fusion := 6 } else u)) ∧
  (∀ s : State, lanesRun s = true → s.fus.conflict = true → heldFor s s.fus.agreeSince 5000 = true →
    ∃ t, exec .refConflictCleared s = .next t ∧ t = clearConflict s ∧ t.fus.conflict = false ∧ t.fus.parties = [] ∧
      t.ref.refs = s.ref.refs.mapIdx (fun i u => if s.fus.parties.contains i && u.fusion = 6
        then { u with fusion := if s.fus.chosen.contains i then 2 else 3 } else u)) ∧
  (∀ s : State, lanesRun s = true → s.fus.conflict = true → s.fus.conflictDegraded = false →
    s.fus.conflictAt + s.image.fusion.conflictMs ≤ s.mono →
    exec .conflictTimeout s = .next (updateLevel { s with fus.conflictDegraded := true })) ∧
  (∀ (s : State) (n e a b c : Qty), lanesRun s = true → 3 ≤ s.fus.noPeakRun →
    gaussMeanOf ((s.fus.gaussMean.filter (fun g => s.fus.admitted.contains g.1 && g.2.1 == s.fus.tf)).map (·.2.2)) =
      some (.gauss n e a b c) →
    exec .recentreMeasured s = .next { s with fus.recentre := some (n, e), fus.recentred := true, fus.noPeakRun := 0 }) ∧
  ∀ s : State, s.fus.heldBuf.isSome = true → s.fus.heldAt + 10000 ≤ s.mono →
    exec .gridHoldExpiry s = .next { s with fus.heldBuf := none }

/-- OBSERVER_INIT_END: with a peak in hand the position and its covariance are taken from its fit, velocities and forces
start at zero, the wave part is cleared, and the references that support the peak are in use. It rests on R187, R188, of
which it states what is said here. -/
def Obligations.ObserverStartsFromThePeak : Prop :=
  ∀ (s : State) (sup : List Nat) (p : Nat × Nat × Nat) (m : Qty × Qty × Qty × Qty × Qty), lanesRun s = true →
    s.obs.init = true → initPeak s = some (sup, p) → peakFit (s.fus.grids.getD s.fus.cur {}) sup p = some m →
    ∃ t, exec .observerInitEnd s = .next t ∧ t.obs.init = false ∧ t.obs.n = m.1 ∧ t.obs.e = m.2.1 ∧ t.obs.u = 0 ∧ t.obs.v = 0 ∧
      t.obs.r = 0 ∧ t.obs.envN = 0 ∧ t.obs.envE = 0 ∧ t.obs.envM = 0 ∧ t.obs.waveN = 0 ∧ t.obs.waveE = 0 ∧
      t.obs.waveN2 = 0 ∧ t.obs.waveE2 = 0 ∧
      t.obs.pNN = m.2.2.1 ∧ t.obs.pNE = m.2.2.2.1 ∧ t.obs.pEE = m.2.2.2.2 ∧
      t.ref.refs = s.ref.refs.mapIdx (fun i u => if sup.contains i then { u with fusion := 2 } else u)

/-! ### Control, loops and allocation (chapters 07 and 08) -/

/-- POSITION_TERMS_RETURN, PERIOD_LOST, ALLOC_FAILING, DEMAND_UNMET and TRANSIT_ENTRY: what each does when its time has
come: the position terms return with the whole gain; an axis whose three marks in a row were ignored, or whose last mark is
1.5 periods old, loses its period, and the loss is recorded; 100 frames without a solution are recorded as a failing
allocation; slack of 5 s on one axis is recorded as an unmet demand and the lack of it for 5 s ends that; a thruster that
stood at a sector for the escape time starts its transit, if none is in transit. It rests on R208, R212, R241, R248, R250,
of which it states what is said here. -/
def Obligations.ControlTimersAct : Prop :=
  (∀ (s : State), lanesRun s = true → s.ctl.termsOff = true → s.obs.level < 3 → heldFor s s.ctl.returnAt 10000 = true →
    exec .positionTermsReturn s = .next { s with ctl.termsOff := false, ctl.gainScale := 1, ctl.returnAt := none }) ∧
  (∀ (axis : Nat) (s : State), lanesRun s = true → axis ≤ 2 → (s.ctl.axes.getD axis {}).pulse = true →
    (s.ctl.axes.getD axis {}).compState ≠ 0 → (s.ctl.axes.getD axis {}).periodLost = false →
    3 ≤ (s.ctl.axes.getD axis {}).ignoredRun ∨
      (s.ctl.axes.getD axis {}).period * 1500 ≤ ((s.mono - (s.ctl.axes.getD axis {}).pulseSeen : Nat) : Qty) →
    exec (.periodLost axis) s = .next (logL 7 3 (leBytes 1 axis)
      { s with ctl.axes := s.ctl.axes.modify axis (fun x => { x with compState := 2, periodLost := true }) })) ∧
  (∀ s : State, lanesRun s = true → 100 ≤ s.alloc.notSolved → s.alloc.failing = false →
    exec .allocFailing s = .next (logFlags (allocFlags s) { s with alloc.failing := true })) ∧
  (∀ s : State, lanesRun s = true → s.alloc.unmet = false → (s.alloc.slackOver.any (fun t => heldFor s t 5000)) = true →
    exec (.demandUnmet true) s = .next (logFlags (allocFlags s) { s with alloc.unmet := true })) ∧
  (∀ s : State, lanesRun s = true → s.alloc.unmet = true → heldFor s s.alloc.slackUnder 5000 = true →
    exec (.demandUnmet false) s = .next { s with alloc.unmet := false }) ∧
  ∀ (k sector : Nat) (s : State), lanesRun s = true → sector < 4 → s.pow.state = .active →
    takesPart (s.alloc.thr.getD k {}).state = true → s.image.alloc.escapeMs ≠ 0 →
    heldFor s ((s.alloc.thr.getD k {}).edgeSince.getD sector none) s.image.alloc.escapeMs = true →
    s.alloc.thr.any (fun y => y.inTransit.isSome) = false →
    exec (.transitEntry k sector) s = .next (logThrs s.alloc.thr { s with alloc.thr := s.alloc.thr.modify k (fun y =>
      { y with inTransit := some sector, state := .transit, edgeSince := List.replicate 4 none }) })

/-- LOOP_BANK_SWAP_APPLY, INJECTION_START, INJECTION_END and CAPTURE_DONE: the swap takes the new bank at the strobe of its
tick, every loop going on from its present output, the step of the tick being done again where it was done before the swap;
an injection begins at its tick, with the shift register all ones and the present output as its base, and an armed capture
triggers with it; it ends for its reason, recorded, and cuts a capture that is not whole unless its time had run; a capture
is done when it holds 16,384 samples. It rests on R222, R223, R225 to R227, of which it states what is said here. -/
def Obligations.LoopsSwapAndInject : Prop :=
  (∀ (s : State) (w : Swap), s.ctl.swap = some w → lanesRun s = true → w.axesDone = true → s.tt.tick = w.tick →
    s.servoUndo = none → ∃ u, u = { s with ctl.activeLoop := w.bank, ctl.swap := none } ∧
    exec .loopBankSwapApply s = .next
      { u with ctl.loops := s.ctl.loops.mapIdx (fun t x => x.mapIdx (fun k y => rebase u t k y)) }) ∧
  (∀ (s : State) (w : Swap) (c : CtlSt), s.ctl.swap = some w → lanesRun s = true → w.axesDone = true →
    s.tt.tick = w.tick → s.servoUndo = some c → ∃ u, u = { s with ctl.activeLoop := w.bank, ctl.swap := none } ∧
    exec .loopBankSwapApply s = .next (redoServo
      { u with servoUndo := some { c with loops := c.loops.mapIdx (fun t x => x.mapIdx (fun k y => rebase u t k y)) } })) ∧
  (∀ (s : State) (j : Inject) (b : Int), s.ctl.inj.job = some j → lanesRun s = true → s.ctl.inj.live = true →
    s.ctl.inj.running = false → s.tt.tick = j.startTick → s.ctl.inj.notBefore ≤ s.tt.ticks - s.tt.tick →
    b = (match s.servoUndo with
      | some c => ((c.loops.getD j.index []).getD j.slot {}).u
      | none => ((s.ctl.loops.getD j.index []).getD j.slot {}).u) →
    ∃ u, u = { s with ctl.inj.running := true, ctl.inj.startedAt := s.tt.ticks, ctl.inj.lfsr := 2 ^ j.order - 1, ctl.inj.base := b,
                      ctl.inj.reason := 0 } ∧
      (j.capture = false ∨ s.ctl.inj.capState ≠ 1 → exec .injectionStart s = .next (redoServo u)) ∧
      (j.capture = true → s.ctl.inj.capState = 1 → exec .injectionStart s = .next (redoServo { u with
        ctl.inj.capState := 2, ctl.inj.sigs := j.signals, ctl.inj.decim := j.decim, ctl.inj.pre := j.pre,
        ctl.inj.samples := s.ctl.inj.preBuf, ctl.inj.preBuf := [], ctl.inj.trigger := s.ctl.inj.preBuf.length,
        ctl.inj.trigFrame := frame32 s, ctl.inj.phase := 0 }))) ∧
  (∀ (s : State) (j : Inject) (c : Nat), s.ctl.inj.job = some j → s.ctl.inj.live = true → lanesRun s = true → injEnds s j ≠ 0 →
    c = (if injEnds s j ≠ 1 && j.capture && (s.ctl.inj.capState = 1 || (s.ctl.inj.running && s.ctl.inj.capState = 2)) then 4
      else s.ctl.inj.capState) →
    exec .injectionEnd s = .next (assertVec 39 (logL 7 4 (leBytes 1 j.target ++ leBytes 1 j.index ++ leBytes 1 (injEnds s j))
      { s with ctl.inj.job := none, ctl.inj.live := false, ctl.inj.running := false, ctl.inj.reason := injEnds s j,
               ctl.inj.capState := c }))) ∧
  ∀ s : State, s.ctl.inj.capState = 2 → 16384 ≤ s.ctl.inj.samples.length →
    exec .captureDone s = .next { s with ctl.inj.capState := 3 }

/-! ### Islands (chapter 09) -/

/-- LINK_FAULT, SPLIT_ALARM, READBACK_FAULT, ALARM_ENTRY, ALARM_UNDELIVERABLE, ASSISTED_POWER_FAIL, LINK_SLOT_LOSS_HOLD,
HOLD_TIMEOUT and ISLAND_THERMAL_LIMIT: a channel without data for three ticks has a link fault and is judged; two setpoints
in disagreement for ten ticks in REGULATE, a readback beyond its window for twenty samples and 200 ms of COMPLIANCE while it
regulates are causes of ALARM; a readback away from the alarm level for 20 ms is marked; the loss of power acts on a powered
island; three ticks without a valid slot or setpoint put it into HOLD; when the hold time has run its points go to THROUGH,
and an island whose reset waited for that takes it, with its new configuration; the thermal limit of a working island puts
it into FAULT, its points THROUGH. It rests on R266, R271, R272, R274, R280, R281, R440, R459, of which it states what is
said here. -/
def Obligations.IslandsFailSafe : Prop :=
  (∀ (ch : Nat) (s : State), lanesRun s = true → 3 ≤ (chanOf s ch).upMiss → (chanOf s ch).linkFault = false →
    exec (.linkFault ch) s = .next (judgeChan ch (onIsl ch (fun i => { i with linkFault := true }) s))) ∧
  (∀ (ch : Nat) (s : State), islandsUp s = true → (chanOf s ch).split = true → 10 ≤ (chanOf s ch).splitRun →
    (chanOf s ch).state = .regulate → exec (.splitAlarm ch) s = .next (onIsl ch (alarmCause s) s)) ∧
  (∀ (ch : Nat) (s : State), 20 ≤ (chanOf s ch).rbRun → (chanOf s ch).rbFault = false →
    exec (.readbackFault ch) s = .next (onIsl ch (fun i => alarmCause s { i with rbFault := true }) s)) ∧
  (∀ (ch : Nat) (s : State), (chanOf s ch).compliance = true → (chanOf s ch).compAt + 200 ≤ s.mono →
    (chanOf s ch).alarm = false → (chanOf s ch).state = .regulate ∨ (chanOf s ch).state = .capture →
    exec (.alarmEntry ch) s = .next (onIsl ch (alarmCause s) s)) ∧
  (∀ (ch : Nat) (s : State), (chanOf s ch).state = .alarm → 20 ≤ (chanOf s ch).undelRun →
    (chanOf s ch).undeliverable = false →
    exec (.alarmUndeliverable ch) s = .next (onIsl ch (fun i => { i with undeliverable := true }) s)) ∧
  (∀ (ch : Nat) (s : State), (chanOf s ch).powered = true →
    exec (.assistedPowerFail ch) s = .next (onIsl ch (islPowerFail s) s)) ∧
  (∀ (ch : Nat) (s : State), 3 ≤ (chanOf s ch).slotLoss ∨ 3 ≤ (chanOf s ch).noneRun →
    (chanOf s ch).state = .regulate ∨ (chanOf s ch).state = .capture ∨ (chanOf s ch).state = .alarm →
    exec (.linkSlotLossHold ch) s = .next (onIsl ch (fun i => { i with
      state := .hold, holdAt := some s.mono, holdByPower := false }) s)) ∧
  (∀ (ch : Nat) (s : State), (chanOf s ch).state = .hold →
    heldFor s (chanOf s ch).holdAt (chanOf s ch).cfg.holdMs = true ∨ s.time.running = false →
    ((chanOf s ch).resetDue = false → exec (.holdTimeout ch) s = .next (onIsl ch (fun i => { i with
      state := .through, driven := 0xFFFF, holdAt := none, capMoving := none, loopPowered := false,
      darkAt := if i.loopPowered && !i.powered then some s.mono else i.darkAt }) s)) ∧
    ((chanOf s ch).resetDue = true → ∃ t, exec (.holdTimeout ch) s = .next t ∧ (chanOf t ch).resetDue = false ∧
      (chanOf t ch).cfg = (chanOf s ch).cfgNext.getD {} ∧ (chanOf t ch).powered = islandsUp s ∧
      (chanOf t ch).driven = 0xFFFF ∧ (chanOf t ch).state =
        if s.pow.factoryBad && islandsUp s then .fault else modeState ((chanOf s ch).cfgNext.getD {}))) ∧
  ∀ (ch : Nat) (s : State), islAlive s (chanOf s ch) = true →
    exec (.islandThermalLimit ch) s = .next (onIsl ch (fun i => { i with state := .fault, driven := 0xFFFF, holdAt := none }) s)

/-- What a cause of ALARM and the loss of power do to an island: in REGULATE, CAPTURE and ALARM the cause drives the
configured alarm level; a readback that is to follow a change beyond its window is not judged for 20 ms; in HOLD and SAFE
the cause is only marked; an island that loses its power while it regulates, or in SAFE without an asserted line, goes to
HOLD on loop power and keeps its driven value; in SAFE under an asserted line it stays there. It rests on R265, R266, R274,
R280, R321, of which it states what is said here. -/
def Obligations.AlarmAndPowerFailOfAnIsland : Prop :=
  (∀ (s : State) (i : Isl), i.state = .regulate ∨ i.state = .capture ∨ i.state = .alarm →
    alarmCause s i = { i with state := .alarm, alarm := true, driven := alarmCode i.cfg, alarms := sat 16 (i.alarms + 1),
                              undelRun := 0,
                              rbQuiet := if rbWindowNa i.cfg < (((codeNa (alarmCode i.cfg) - codeNa i.driven).natAbs : Nat) : Int)
                                then s.mono + 20 else i.rbQuiet }) ∧
  (∀ (s : State) (i : Isl), i.state = .hold ∨ i.state = .safe → alarmCause s i = { i with alarm := true }) ∧
  (∀ (s : State) (i : Isl), i.state = .regulate ∨ i.state = .capture ∨ i.state = .alarm ∨
      (i.state = .safe ∧ springAsserted s = false) →
    islPowerFail s i = { i with powered := false, loopPowered := true, state := .hold, holdAt := some s.mono,
                                holdByPower := true }) ∧
  (∀ (s : State) (i : Isl), i.state = .hold →
    islPowerFail s i = { i with powered := false, loopPowered := true, holdByPower := true }) ∧
  (∀ (s : State) (i : Isl), i.state = .safe → springAsserted s = true →
    islPowerFail s i = { i with powered := false, loopPowered := true }) ∧
  ∀ (s : State) (i : Isl), i.state = .through ∨ i.state = .fault →
    islPowerFail s i = { i with powered := false, darkAt := if i.powered then some s.mono else i.darkAt }

/-- ISLAND_SAMPLE, COMPLIANCE_SET, COMPLIANCE_CLEAR, ENERGY_LOW, CAPTURE_TIMEOUT, SERIES_LIMITED_EXPIRY, DECIMATION_OUTPUT,
OVERLOAD_SET, OVERLOAD_CLEAR and NO_PULSE: a sample of a working island is judged by the limits in turn; three samples below
the limit set COMPLIANCE and ten above clear it; the store is low below its working level; a capture that lasts its limit
starts to move; a series limit judged too long becomes COMPLIANCE; an output of the chain, in a mode that has one and as
many in a tick as its depth gives, is the new value, added and counted; the overload needs three samples of one condition,
one in the frequency mode, and ten in range clear it and restart the chain; a frequency input without an edge reads zero. It
rests on R265, R276, R277, R283, R293, R296, R464, of which it states what is said here. -/
def Obligations.IslandSamplesAreJudged : Prop :=
  (∀ (ch : Nat) (x : IslSample) (s : State), (chanOf s ch).state ≠ .off → islAlive s (chanOf s ch) = true →
    exec (.islandSample ch x) s = .next (onIsl ch (fun i => digitalSample s ch x (freqSample s ch x (overloadSample s x (holdSample s
      (readbackSample s (complianceSample s x { i with
        vTerm := x.vTerm, readback := roundEven (islandValue ch i.cfg x.current), energyMv := x.energyMv })))))) s)) ∧
  (∀ (ch : Nat) (s : State), regulating (chanOf s ch) = true → 3 ≤ (chanOf s ch).compLow → (chanOf s ch).compliance = false →
    exec (.complianceSet ch) s = .next (onIsl ch (fun i =>
      { i with compliance := true, compAt := s.mono, compEvents := sat 32 (i.compEvents + 1), rbRun := 0 }) s)) ∧
  (∀ (ch : Nat) (s : State), 10 ≤ (chanOf s ch).compHigh → (chanOf s ch).compliance = true →
    exec (.complianceClear ch) s = .next (onIsl ch (fun i => { i with compliance := false }) s)) ∧
  (∀ (ch : Nat) (s : State), exec (.energyLow ch) s = .next (onIsl ch (fun i =>
    { i with energyLow := decide (i.energyMv < Config.energyWorkingMv) }) s)) ∧
  (∀ (ch : Nat) (s : State), (chanOf s ch).state = .capture → (chanOf s ch).capMoving = none →
    heldFor s (chanOf s ch).capAt (chanOf s ch).cfg.captureMs = true →
    exec (.captureTimeout ch) s = .next (onIsl ch (fun i => { i with capTimeout := true, capMoving := some (i.capCode : Qty) }) s)) ∧
  (∀ (ch : Nat) (s : State), (chanOf s ch).series = true → seriesWindow s (chanOf s ch) = false →
    exec (.seriesLimitedExpiry ch) s = .next (onIsl ch (fun i => if i.compliance then { i with series := false }
      else { i with series := false, compliance := true, compAt := s.mono, compEvents := sat 32 (i.compEvents + 1) }) s)) ∧
  (∀ (ch : Nat) (raw : Int) (s : State) (m : Qty) (o : Int), 1 ≤ (chanOf s ch).cfg.mode → (chanOf s ch).cfg.mode ≤ 5 →
    islAlive s (chanOf s ch) = true → outputsDone s (chanOf s ch) < outputsDue (chanOf s ch).cfg.depth s.tt.ticks →
    m = (if (chanOf s ch).cfg.dcOn && !(chanOf s ch).dcFrozen then
      Config.filterStep (chanOf s ch).dcMean (islandValue ch (chanOf s ch).cfg raw)
        ((outPeriodNs (chanOf s ch).cfg.depth : Qty) / 1000000000) (chanOf s ch).cfg.tauDc else (chanOf s ch).dcMean) →
    o = roundEven (if (chanOf s ch).cfg.dcOn then islandValue ch (chanOf s ch).cfg raw - m
      else islandValue ch (chanOf s ch).cfg raw) →
    ∃ t, exec (.decimationOutput ch raw) s = .next t ∧ (chanOf t ch).value = o ∧
      (chanOf t ch).sum = (chanOf s ch).sum + o ∧ (chanOf t ch).count = (chanOf s ch).count + 1 ∧
      (chanOf t ch).newFlag = true ∧ (chanOf t ch).outputs = sat 32 ((chanOf s ch).outputs + 1) ∧ (chanOf t ch).dcMean = m ∧
      outputsDone t (chanOf t ch) = outputsDone s (chanOf s ch) + 1 ∧
      ∀ k, k ≠ ch → chanOf t k = chanOf s k) ∧
  (∀ (ch q : Nat) (set : List InRecord) (s : State) (u : UpSlot), ch < s.isl.length →
    (set.filterMap (fun r => match r.data with
      | .slot k v => some (k, v, r.quality)
      | _ => none)).find? (fun g => g.1 == ch) = some (ch, u, q) →
    (chanOf (readSlots set s) ch).up = u ∧ (chanOf (readSlots set s) ch).upQual = q ∧
      (chanOf (readSlots set s) ch).upMiss = 0 ∧ (chanOf (readSlots set s) ch).cls = classOf (chanOf s ch).cfg u.value) ∧
  (∀ (ch : Nat) (s : State), 3 ≤ (chanOf s ch).cfg.mode → (chanOf s ch).cfg.mode ≤ 6 → (chanOf s ch).overload = false →
    (if (chanOf s ch).cfg.mode = 6 then 1 else 3) ≤ (chanOf s ch).ovRun ∨ 3 ≤ (chanOf s ch).supRun →
    exec (.overloadSet ch) s = .next (onIsl ch (fun i => { i with overload := true }) s)) ∧
  (∀ (ch : Nat) (s : State), (chanOf s ch).overload = true → 10 ≤ (chanOf s ch).ovOkRun →
    exec (.overloadClear ch) s = .next (onIsl ch (fun i => { i with
      overload := false, outputs := 0, sum := 0, count := 0, newFlag := false }) s)) ∧
  ∀ (ch : Nat) (s : State), (chanOf s ch).cfg.mode = 6 → (chanOf s ch).noPulse = false →
    (chanOf s ch).lastEdge + (chanOf s ch).cfg.timeout ≤ s.mono →
    exec (.noPulse ch) s = .next (onIsl ch (fun i => { i with noPulse := true, value := 0 }) s)

/-- UPSTREAM_SLOT, APPLY_MARKER, HART_FRAME_RECEIVED, HART_TRANSACTION_END, MULTIDROP_POLL, MISSING_RETRY,
CONFIG_PENDING_APPLY and COMPLIANCE_CHECK_PHASE: the slot of every island that works and does not fail on the way joins the
tick set; every working island takes its slot fields and drives what they say, in Fault too, where no slot is sent; a
received frame's bytes pass upstream, and of burst frames the newest of each device and command is kept, up to 8; the end of
a transaction whose frame the modem has sent completes its command; the next device in turn is polled, a missing one again
after 10 s; a waiting configuration comes into force at a frame boundary without a transaction in flight; a loop check goes
on to its next phase or ends with its outcome. It rests on R269, R271, R272, R286, R287 to R291, R300, of which it states
what is said here. -/
def Obligations.IslandLinksAndHart : Prop :=
  (∀ (bad : List Nat) (s : State), islandsUp s = true →
    ∃ u, u = (List.range 128).foldl (fun st ch =>
        if bad.contains ch || !(islAlive s (chanOf s ch)) || masterDown s ch then st
        else addRecord { link := 64 + ch, quality := qualityByte s, stampNs := nowNs s, doneNs := nowNs s, length := 32,
                         data := .slot ch (slotOfIsl (chanOf s ch)) } st) s ∧
      exec (.upstreamSlot bad) s = .next { u with
        isl := u.isl.map (fun i => { i with sum := 0, count := 0, newFlag := false, hartRx := i.hartRx.drop 4 }) }) ∧
  (∀ (missed bad : List Nat) (s : State), islandsUp s = true ∨ s.pow.state = .fault →
    exec (.applyMarker missed bad) s = .next { s with isl := s.isl.mapIdx (fun ch i =>
      if islAlive s i then applyMarked s ch (takeSlotFields s (missed.contains ch) (bad.contains ch) ch i) else i) }) ∧
  (∀ (ch : Nat) (f : HartFrame) (s : State), drives s = true → hartOk (chanOf s ch).cfg = true →
    islAlive s (chanOf s ch) = true →
    ((chanOf s ch).cfg.burst = false ∨ f.isBurst = false →
      exec (.hartFrameReceived ch f) s = .next (onIsl ch (rxHart f) s)) ∧
    ((chanOf s ch).cfg.burst = true → f.isBurst = true →
      (∀ k, (chanOf s ch).bursts.findIdx? (fun b => b.1.address == f.address && b.1.command == f.command) = some k →
        ∃ t, exec (.hartFrameReceived ch f) s = .next t ∧ (chanOf t ch).bursts = (chanOf s ch).bursts.set k (f, s.mono)) ∧
      ((chanOf s ch).bursts.findIdx? (fun b => b.1.address == f.address && b.1.command == f.command) = none →
        ∃ t, exec (.hartFrameReceived ch f) s = .next t ∧ (chanOf t ch).bursts =
          if (chanOf s ch).bursts.length < 8 then (chanOf s ch).bursts ++ [(f, s.mono)]
          else (chanOf s ch).bursts.set ((oldestBurst (chanOf s ch).bursts).getD 0) (f, s.mono)))) ∧
  (∀ (ch : Nat) (r : HartResult) (s : State) (j : HartJob) (rest : List HartJob), (chanOf s ch).hartQ = j :: rest →
    drives s = true → hartOk (chanOf s ch).cfg = true → (chanOf s ch).hartSent = true →
    exec (.hartTransactionEnd ch r) s = .next (completeSlot j.task 0
      (hartBytes r.outcome (min r.attempts (j.retries + 1)) r.respCode r.devStatus j.command r.data)
      (onIsl ch (fun i => { i with
        hartQ := rest, hartDown := none, hartFrag := 0, hartTx := [], hartFull := false, hartSent := false
        hartErrors := if r.outcome = 1 then sat 16 (i.hartErrors + 1) else i.hartErrors }) s))) ∧
  (∀ (ch : Nat) (r : Option PollReply) (s : State), drives s = true → hartOk (chanOf s ch).cfg = true →
    mdMode (chanOf s ch).cfg = true → (chanOf s ch).hartQ = [] → (chanOf s ch).energyLow = false →
    (chanOf s ch).md ≠ [] → ((chanOf s ch).md.getD (nextDev (chanOf s ch).md (chanOf s ch).mdNext) {}).missing = false →
    exec (.multidropPoll ch r) s = .next (onIsl ch (fun i =>
      { i with md := i.md.modify (nextDev i.md i.mdNext) (pollDev s r), mdNext := (nextDev i.md i.mdNext + 1) % i.md.length }) s)) ∧
  (∀ (ch addr : Nat) (r : Option PollReply) (s : State), drives s = true → hartOk (chanOf s ch).cfg = true →
    mdMode (chanOf s ch).cfg = true → (chanOf s ch).hartQ = [] → (chanOf s ch).energyLow = false →
    (chanOf s ch).md.any (fun d => d.addr == addr && d.missing && decide (d.missedAt + 10000 ≤ s.mono)) = true →
    exec (.missingRetry ch addr r) s = .next (onIsl ch (fun i =>
      { i with md := i.md.map (fun d => if d.addr == addr then pollDev s r d else d) }) s)) ∧
  (∀ (ch : Nat) (c : ChanCfg) (s : State), (chanOf s ch).cfgNext = some c → (chanOf s ch).hartDown = none →
    (chanOf s ch).resetDue = false → s.tt.tick = 0 →
    exec (.configPendingApply ch) s = .next (onIsl ch (takeCfg c) s)) ∧
  (∀ (x : CheckMeas) (c : CheckSt) (s : State), s.check = some c → checkAllowed s c.ch = false →
    exec (.complianceCheckPhase x) s = .next (endCheck 4 0 0 s)) ∧
  ∀ (x : CheckMeas) (c : CheckSt) (s : State), s.check = some c → checkAllowed s c.ch = true →
    (x.limited = true ∨ s.sb.limited.contains c.ch = true → exec (.complianceCheckPhase x) s = .next (endCheck 3 0 0 s)) ∧
    (x.limited = false → s.sb.limited.contains c.ch = false →
      (c.phase = 0 → c.since + 200 ≤ s.mono →
        exec (.complianceCheckPhase x) s = .next (onIsl c.ch (fun i => { i with checkDrive := some c.iTest })
          { s with check := some { c with vLo := x.vMean, phase := 1, since := s.mono } })) ∧
      (c.phase = 1 → c.since + 200 ≤ s.mono → c.trial = false ∨ x.vMean - ((chanOf s c.ch).cfg.supAllow : Int) < 8500 →
        exec (.complianceCheckPhase x) s = .next (endCheck
          (if 8500 ≤ x.vMean - ((chanOf s c.ch).cfg.supAllow : Int) then 0 else 1) 0 0
          { s with check := some { c with vHi := x.vMean } })) ∧
      (c.phase = 1 → c.since + 200 ≤ s.mono → c.trial = true → 8500 ≤ x.vMean - ((chanOf s c.ch).cfg.supAllow : Int) →
        exec (.complianceCheckPhase x) s = .next (onIsl c.ch (fun i => { i with loopPowered := true })
          { s with check := some { c with vHi := x.vMean, phase := 2, since := s.mono } })) ∧
      (c.phase = 2 → x.vMin < 7200 → exec (.complianceCheckPhase x) s = .next (endCheck 2 x.vMin x.heldMs s)) ∧
      (c.phase = 2 → 7200 ≤ x.vMin → c.since + c.trialMs ≤ s.mono →
        exec (.complianceCheckPhase x) s = .next (endCheck 0 x.vMin x.heldMs s)))

/-! ### The signal box (chapter 10) -/

namespace Sys2Proof.Claims

/-- Outside RUN both safe contacts are commanded open (R314) and both lines to the islands are asserted (R321, Table 10-4).
-/
def SafeOutsideRun (b : SbSt) : Prop := b.state ≠ .run → b.cmdA = false ∧ b.cmdB = false ∧ b.springA = true ∧ b.springB = true

end Sys2Proof.Claims

/-- Every step keeps both safe contacts commanded open, and both lines to the islands asserted, outside RUN. It rests on
R314, R321, of which it states what is said here. -/
def Obligations.ContactsOpenOutsideRun : Prop :=
  ∀ s t : State, SafeOutsideRun s.sb → step s = .next t → SafeOutsideRun t.sb

/-- RUN is entered by a reset pulse and by nothing else: the pulse lasted 100 ms to 2 s and neither fell nor began while
RST_STUCK was set, and the signal box waited in RESET_WAIT with all four inputs closed, no discrepancy latched, the proof
complete, the limits block verified and two lanes' sets present in the current tick. It rests on R317, R318, of which it
states what is said here. -/
def Obligations.RunOnlyByReset : Prop :=
  ∀ (c : Instr) (s t : State), exec c s = .next t → t.sb.state = .run → s.sb.state ≠ .run →
    c = .resetPulse ∧ s.sb.state = .resetWait ∧ (∃ w, s.sb.pulseEnd = some w ∧ 100 ≤ w ∧ w ≤ 2000) ∧
    s.sb.rstStuck = false ∧ s.sb.rstWhileStuck = false ∧
    s.sb.esd.a = true ∧ s.sb.esd.b = true ∧ s.sb.en.a = true ∧ s.sb.en.b = true ∧ s.sb.esd.discrepancy = false ∧
    s.sb.en.discrepancy = false ∧ s.sb.proofDone = true ∧ s.sb.limitsOk = true ∧
    s.sb.signTick = s.tt.ticks ∧ 2 ≤ (s.sb.present.list.filter (· == true)).length

/-- RESET_PULSE, at its falling edge: a pulse for which one of the conditions fails is counted as refused, and its reason is
logged: RST_STUCK, too short, not in RESET_WAIT, an input open, a discrepancy, the proof, the limits, the lanes; one longer
than 2,000 ms also sets RST_STUCK. A pulse for which all hold moves RESET_WAIT to RUN, closes both safe contacts, releases
the lines at the next strobe and counts no stop. It rests on R317, R318, of which it states what is said here. -/
def Obligations.ResetPulsesStartOrAreRefused : Prop :=
  ∀ (s : State) (w r : Nat), s.sb.pulseEnd = some w → s.sb.powered = true →
    r = (if s.sb.rstWhileStuck = true ∨ s.sb.rstStuck = true ∨ 2000 < w then 7
      else if w < 100 then 8
      else if s.sb.state ≠ .resetWait then 6
      else if ¬(s.sb.esd.a = true ∧ s.sb.esd.b = true ∧ s.sb.en.a = true ∧ s.sb.en.b = true) then 1
      else if s.sb.esd.discrepancy = true ∨ s.sb.en.discrepancy = true then 2
      else if s.sb.proofDone = false then 3
      else if s.sb.limitsOk = false then 4
      else if s.sb.signTick ≠ s.tt.ticks ∨ (s.sb.present.list.filter (· == true)).length < 2 then 5 else 0) →
    (r ≠ 0 → exec .resetPulse s = .next (logJ 10 3 (leBytes 1 r) { s with
      sb.pulseEnd := none, sb.rstStuck := s.sb.rstStuck || decide (2000 < w), sb.refused := sat 16 (s.sb.refused + 1) })) ∧
    (r = 0 → ∃ t, exec .resetPulse s = .next t ∧
      t = sbGoto .run 0 { s with
        sb.pulseEnd := none, sb.cmdA := true, sb.cmdB := true, sb.safeA := true, sb.safeB := true, sb.openCmdAt := none,
        sb.releaseAt := some s.tt.ticks } ∧
      t.sb.state = .run ∧ t.sb.cmdA = true ∧ t.sb.cmdB = true ∧ t.sb.safeA = true ∧ t.sb.safeB = true ∧
      t.sb.releaseAt = some s.tt.ticks ∧ t.sb.pulseEnd = none ∧ t.sb.stops = s.sb.stops)

/-- Leaving RUN: both contacts are commanded open, both lines are asserted, and a stop is counted with its time. It rests on
R314, R316, R321, of which it states what is said here. -/
def Obligations.LeavingRunOpensTheContacts : Prop :=
  ∀ (x : SbState) (cause : Nat) (s : State), s.sb.state = .run →
    (sbGoto x cause s).sb.state = x ∧ (sbGoto x cause s).sb.cmdA = false ∧ (sbGoto x cause s).sb.cmdB = false ∧
    (sbGoto x cause s).sb.springA = true ∧ (sbGoto x cause s).sb.springB = true ∧
    (sbGoto x cause s).sb.stops = sat 32 (s.sb.stops + 1) ∧ (sbGoto x cause s).sb.openCmdAt = some s.mono ∧
    (sbGoto x cause s).sb.stopSec = s.time.sec ∧ (sbGoto x cause s).sb.stopNs = s.time.ns

/-- SB_COMMAND_SET, SB_INTERNAL, SAFETY_INPUT_CHANGE, DISCREPANCY, SAFE_CONTACT_TIMEOUT, YAW_RATE_STOP, SB_SELF_TEST_END,
PROOF_DUE, RST_STUCK, RST_STUCK_CLEAR, SPRINGBOK_RELEASE and SPRINGBOK_TEST: what each does when it is due: a disagreement,
a failed self-test, a lost line and a contact that stays closed lead to FAULT with their cause; a changed input, a
discrepancy and a held yaw rate are judged as stop causes; a passed self-test ends INIT and a failed one is kept; the proof
falls due, and a STOPPED signal box then needs a new one; RST-ACK high for more than 2 s is stuck, low for 1 s no longer;
the lines are released at the strobe after the reset; each line's missed tests are counted in a row. It rests on R313, R314,
R318, R320, R321, R324, Table 10-5, of which it states what is said here. -/
def Obligations.SignalBoxJudgesItsInputs : Prop :=
  (∀ (x : SbTickIn) (s : State), s.sb.powered = true → exec (.sbCommandSet x) s = .next (sbTick s x)) ∧
  (∀ s : State, 3 ≤ s.sb.disagreeRun → exec (.sbInternal .channelDisagreement) s = .next (sbFault 5 s)) ∧
  (∀ s : State, s.sb.testFail = true → exec (.sbInternal .selfTest) s = .next (sbFault 5 s)) ∧
  (∀ s : State, 2 ≤ s.sb.missA ∨ 2 ≤ s.sb.missB → exec (.sbInternal .springbokLine) s = .next (sbFault 5 s)) ∧
  (∀ (closed : Bool) (s : State), s.sb.powered = true → s.sb.esd.a ≠ closed →
    exec (.safetyInputChange .esdA closed) s = .next (sbEval (sbCauses s.sb)
      { s with sb.esd := pairChange s false closed s.sb.esd })) ∧
  (∀ (closed : Bool) (s : State), s.sb.powered = true → s.sb.esd.b ≠ closed →
    exec (.safetyInputChange .esdB closed) s = .next (sbEval (sbCauses s.sb)
      { s with sb.esd := pairChange s true closed s.sb.esd })) ∧
  (∀ (closed : Bool) (s : State), s.sb.powered = true → s.sb.en.a ≠ closed →
    exec (.safetyInputChange .enA closed) s = .next (sbEval (sbCauses s.sb)
      { s with sb.en := pairChange s false closed s.sb.en })) ∧
  (∀ (closed : Bool) (s : State), s.sb.powered = true → s.sb.en.b ≠ closed →
    exec (.safetyInputChange .enB closed) s = .next (sbEval (sbCauses s.sb)
      { s with sb.en := pairChange s true closed s.sb.en })) ∧
  (∀ s : State, s.sb.powered = true → s.sb.rstHigh = false →
    exec (.safetyInputChange .rstAck true) s = .next { s with
      sb.rstHigh := true, sb.rstAt := s.mono, sb.rstWhileStuck := s.sb.rstStuck }) ∧
  (∀ s : State, s.sb.powered = true → s.sb.rstHigh = true →
    exec (.safetyInputChange .rstAck false) s = .next { s with
      sb.rstHigh := false, sb.rstFell := s.mono, sb.pulseEnd := some (s.mono - s.sb.rstAt) }) ∧
  (∀ s : State, s.sb.powered = true → differsLong s s.sb.esd = true → s.sb.esd.discrepancy = false →
    exec (.discrepancy .esd) s = .next (sbEval (sbCauses s.sb) { s with sb.esd.discrepancy := true })) ∧
  (∀ s : State, s.sb.powered = true → differsLong s s.sb.en = true → s.sb.en.discrepancy = false →
    exec (.discrepancy .en) s = .next (sbEval (sbCauses s.sb) { s with sb.en.discrepancy := true })) ∧
  (∀ (contactB : Bool) (s : State), s.sb.powered = true → heldFor s s.sb.openCmdAt 1 = true →
    exec (.safeContactTimeout contactB) s = .next (sbFault 6 { s with
      sb.safeA := s.sb.safeA || !contactB, sb.safeB := s.sb.safeB || contactB, sb.openCmdAt := none })) ∧
  (∀ (s : State) (since : Nat), s.sb.powered = true → s.sb.yawSince = some since → s.sb.yawHeld = false →
    s.sb.limits.rLim ≠ 0 → s.sb.limits.tStop * 1000 ≤ ((s.mono - since : Nat) : Qty) →
    exec .yawRateStop s = .next (sbEval (sbCauses s.sb) { s with sb.yawHeld := true })) ∧
  (∀ s : State, s.sb.powered = true → s.sb.state = .init → s.sb.testFail = false →
    ∃ u, u = proofStep { s with sb.testA := true, sb.testB := true } ∧
      exec (.sbSelfTestEnd true true true) s = .next (sbEval (sbCauses u.sb)
        (sbGoto (if u.sb.proofDone then .resetWait else .proofPending) 0 u))) ∧
  (∀ (passed openA openB : Bool) (s : State), s.sb.powered = true → s.sb.state = .init → s.sb.testFail = false →
    (passed && openA && openB) = false →
    exec (.sbSelfTestEnd passed openA openB) s = .next { s with sb.testFail := true, sb.testA := openA, sb.testB := openB }) ∧
  (∀ (s : State) (since : Nat), s.sb.powered = true → s.sb.limits.proofH ≠ 0 → s.sb.proofDone = true → s.sb.proofDue = false →
    s.sb.state ≠ .stopped → s.sb.proofAt = some since → since + s.sb.limits.proofH * 3600000 < s.mono →
    exec .proofDue s = .next { s with sb.proofDue := true }) ∧
  (∀ (s : State) (since : Nat), s.sb.powered = true → s.sb.limits.proofH ≠ 0 → s.sb.proofDone = true → s.sb.proofDue = false →
    s.sb.state = .stopped → s.sb.proofAt = some since → since + s.sb.limits.proofH * 3600000 < s.mono →
    exec .proofDue s = .next { s with
      sb.proofDue := true, sb.proofDone := false, sb.esd.proven := false, sb.en.proven := false }) ∧
  (∀ s : State, s.sb.powered = true → s.sb.rstHigh = true → s.sb.rstAt + 2000 < s.mono →
    exec .rstStuck s = .next { s with sb.rstStuck := true }) ∧
  (∀ s : State, s.sb.powered = true → s.sb.rstStuck = true → s.sb.rstHigh = false → s.sb.rstFell + 1000 ≤ s.mono →
    exec .rstStuckClear s = .next { s with sb.rstStuck := false }) ∧
  (∀ (s : State) (at_ : Nat), s.sb.releaseAt = some at_ → s.sb.state = .run → s.tt.ticks ≠ at_ →
    exec .springbokRelease s = .next { s with sb.springA := false, sb.springB := false, sb.releaseAt := none }) ∧
  ∀ (seenA seenB : Bool) (s : State), s.sb.powered = true →
    exec (.springbokTest seenA seenB) s = .next { s with
      sb.missA := if seenA then 0 else s.sb.missA + 1, sb.missB := if seenB then 0 else s.sb.missB + 1 }

/-! ### GNSS (chapter 04) -/

/-- GNSS_EPOCH, EPOCH_BLOCK_TIMEOUT, CHANNEL_STATE_CHANGE, MODE_FALLBACK, MODE_RETURN, RTCM_FRAME, ANTENNA_FAULT_DETECT,
ANTENNA_RETRY, SNAPSHOT_CAPTURE and HOTFIX_COMPLETE: at the tick 5 strobe of the frames of its rate a tracking receiver
takes its epoch, after a change of mode that waits for it; a block that does not close is counted, a missed update of every
internal reference; a channel takes its event, and a satellite admitted takes all its signals; the mode falls back after 10
s and returns after 60 s, from the next epoch on; the next correction frame is judged; a short at an antenna switches its
supply off, tried again 10 s later; the eight newest captures are kept; the receiver enters its mode when the hot fix ends:
one without a capture or without a solution fails, one that is solved gives its channels their start and is delivered by a
Lead as a record, and kept by another module until it is Lead. It rests on R99, R103, R104, R108, R115, R116, R119, of which
it states what is said here. -/
def Obligations.ReceiverFollowsItsRules : Prop :=
  (∀ (e : EpochIn) (s : State), junctionUp s = true → s.time.running = true → s.tt.tick = 5 →
    s.tt.frame % epochFrames s.gnss.rate = 0 → s.gnss.epochFrame ≠ some s.tt.frame →
    exec (.gnssEpoch e) s = .next (if tracking (takeMode s) then takeEpoch e (takeMode s) else takeMode s)) ∧
  (∀ s : State, s.gnss.blockOpen = true →
    exec .epochBlockTimeout s = .next ((List.range 16).foldl (fun s i => match s.image.ref.refs.getD i none with
      | some c => if c.kind = 0 && (unitOf s false i).enabled then missUpdate false i s else s
      | none => s)
      { s with gnss.blockOpen := false, gnss.missed := sat 32 (s.gnss.missed + 1) })) ∧
  (∀ (channel : Nat) (ev : TrackEvent) (s : State), tracking s = true → channel < 160 →
    (∀ system sv band antenna k, ev ≠ .allocated system sv band antenna k) →
    exec (.channelStateChange channel ev) s = .next { s with gnss.chans := s.gnss.chans.modify channel (chanEvent s ev) }) ∧
  (∀ (channel system sv band antenna : Nat) (k : Int) (s : State) (chans : List GnssChan), tracking s = true → channel < 160 →
    chans = s.gnss.chans.modify channel (chanEvent s (.allocated system sv band antenna k)) →
    exec (.channelStateChange channel (.allocated system sv band antenna k)) s = .next { s with
      gnss.chans := if (s.gnss.chans.getD channel {}).state = .idle ∧ mayAllocate s system sv band antenna k = true
        then giveSignals s system sv k chans else chans }) ∧
  (∀ s : State, s.gnss.sel = 3 → s.gnss.mode = 1 → heldFor s s.gnss.dualLowSince 10000 = true →
    exec .modeFallback s = .next { s with gnss.modeNext := some 2, gnss.dualOkSince := none }) ∧
  (∀ s : State, s.gnss.sel = 3 → s.gnss.mode = 2 → heldFor s s.gnss.dualOkSince 60000 = true →
    exec .modeReturn s = .next { s with gnss.modeNext := some 1, gnss.dualLowSince := none }) ∧
  (∀ (f : List Byte) (rest : List (List Byte)) (s : State), lanesRun s = true → s.gnss.corrQ = f :: rest →
    exec (.rtcmFrame f) s = .next (rtcmFrame f { s with gnss.corrQ := rest })) ∧
  (∀ (antenna microamps : Nat) (atLimit : Bool) (s u : State), junctionUp s = true → antenna < 2 →
    s.image.gnss.antBAbsent = false ∨ antenna ≠ 1 → u = noteAntenna antenna microamps atLimit s →
    (heldFor u (u.gnss.antLimit.getD antenna none) 100 = true →
      exec (.antennaFaultDetect antenna ⟨microamps, atLimit⟩) s = .next (setGnssFlag 9 { u with
        gnss.antShort := u.gnss.antShort.set antenna true, gnss.antOff := u.gnss.antOff.set antenna (some u.mono),
        gnss.antLow := u.gnss.antLow.set antenna none, gnss.antLimit := u.gnss.antLimit.set antenna none,
        gnss.antNormal := u.gnss.antNormal.set antenna none })) ∧
    (heldFor u (u.gnss.antLimit.getD antenna none) 100 = false → heldFor u (u.gnss.antLow.getD antenna none) 1000 = true →
      exec (.antennaFaultDetect antenna ⟨microamps, atLimit⟩) s = .next (setGnssFlag 9 { u with
        gnss.antOpen := u.gnss.antOpen.set antenna true, gnss.antNormal := u.gnss.antNormal.set antenna none })) ∧
    (heldFor u (u.gnss.antLimit.getD antenna none) 100 = false → heldFor u (u.gnss.antLow.getD antenna none) 1000 = false →
      exec (.antennaFaultDetect antenna ⟨microamps, atLimit⟩) s = .next u)) ∧
  (∀ (antenna : Nat) (s : State), antenna < 2 → antFault s antenna = true →
    s.gnss.antOff.getD antenna none = none ∨ heldFor s (s.gnss.antOff.getD antenna none) 10000 = true →
    exec (.antennaRetry antenna true) s = .next { s with
      gnss.antShort := s.gnss.antShort.set antenna false, gnss.antOpen := s.gnss.antOpen.set antenna false,
      gnss.antOff := s.gnss.antOff.set antenna none, gnss.antNormal := s.gnss.antNormal.set antenna (some s.mono) } ∧
    exec (.antennaRetry antenna false) s = .next { s with
      gnss.antOff := s.gnss.antOff.modify antenna (fun t => t.map (fun _ => s.mono)) }) ∧
  (∀ (c : CaptureIn) (s : State), s.gnss.mode = 3 → s.pow.state = .layover → s.time.ns < 1000000 →
    s.gnss.snaps.head?.map (·.sec) ≠ some s.time.sec →
    ∃ t x, exec (.snapshotCapture c) s = .next t ∧ t.gnss.snaps = (x :: s.gnss.snaps).take 8 ∧
      x.sec = s.time.sec ∧ x.ns = s.time.ns ∧ x.frac = s.time.frac ∧ x.quality = qualityByte s ∧ x.seq = s.gnss.snapSeq ∧ x.agc = c.agc ∧
      x.samples = fitBytes snapBytes c.samples ∧ x.crc = crc32c (fitBytes snapBytes c.samples) ∧
      t.gnss.snapSeq = (s.gnss.snapSeq + 1) % 2 ^ 32) ∧
  (∀ (h : HotfixIn) (s : State) (t0 : Nat), s.gnss.hotfix = some t0 →
    hotSnap s t0 = none ∨ (∃ x, hotSnap s t0 = some x ∧ hotSolve h x s = none) →
    ∃ t, exec (.hotfixComplete h) s = .next t ∧
      t = { enterGnssMode (startMode s.gnss.sel) { s with gnss.hotfix := none } with gnss.hotfixFailed := true } ∧
      t.gnss.mode = startMode s.gnss.sel) ∧
  ∀ (h : HotfixIn) (s v u : State) (t0 at_ : Nat) (x : SnapShot) (r : EpochRes), s.gnss.hotfix = some t0 →
    hotSnap s t0 = some x → hotSolve h x s = some r → at_ = r.sec * 1000000000 + r.ns →
    v = enterGnssMode (startMode s.gnss.sel) { s with gnss.hotfix := none } →
    u = { v with gnss.hotfixFailed := false, gnss.chans := hotChans h v } →
    (s.cons.role = .lead → exec (.hotfixComplete h) s =
      .next (addRecord (epochRecord u at_ r) { u with gnss.blocks := u.gnss.blocks ++ [(at_, r)] })) ∧
    (s.cons.role ≠ .lead → exec (.hotfixComplete h) s = .next { u with gnss.hotRes := some (at_, r) })

/-! ### Lanes and the junction die (chapter 11) -/

/-- EGRESS_COPY and EGRESS_TIMEOUT: a copy of a lane in service joins the others of its packet, and the packet is judged; a
packet that 500 µs after its first copy has no two identical copies, with two or more lanes in service, silences the module,
and with fewer is judged by the lane that is left; the lanes whose copies of a packet sent are missing are charged with a
miscompare. It rests on R330, of which it states what is said here. -/
def Obligations.OutgoingCopiesAreVoted : Prop :=
  (∀ (lane : Lane) (id err : Nat) (s : State) (v : Voting), s.host.voting.find? (fun v => v.pkt.id == id) = some v →
    inService s lane = true → v.copies.any (fun c => c.1 == lane) = false →
    ∃ w, w = { v with copies := v.copies ++ [(lane, err)], first := if v.copies.isEmpty then s.mono else v.first } ∧
      exec (.egressCopy lane id err) s = .next (judgeEgress w (onVoting id (fun _ => w) s))) ∧
  (∀ (id : Nat) (s : State) (v : Voting), s.host.voting.find? (fun v => v.pkt.id == id) = some v → v.copies ≠ [] →
    v.sent = false → 2 ≤ nServing s → exec (.egressTimeout id) s = .next (fallSilent s)) ∧
  (∀ (id : Nat) (s : State) (v : Voting), s.host.voting.find? (fun v => v.pkt.id == id) = some v → v.copies ≠ [] →
    v.sent = false → nServing s < 2 → exec (.egressTimeout id) s = .next (judgeEgress v s)) ∧
  ∀ (id : Nat) (s : State) (v : Voting), s.host.voting.find? (fun v => v.pkt.id == id) = some v → v.copies ≠ [] →
    v.sent = true → exec (.egressTimeout id) s = .next
      (((serving s).filter (fun l => !v.copies.any (fun c => c.1 == l))).foldl (fun s l => chargeEgressErr l s)
        (dropVoting id s))

/-- REINTEGRATION_START, LANE_ENTER_SERVICE, LANE_MONITOR_FAULT, TICK_STROBE_MISSING, JUNCTION_PAIR_DIFFERENCE,
JUNCTION_BLOCK_RECOVERED and RETAINED_REGION_SCRUB: an excluded lane starts its return after a second, and enters service
after ten matching frames with a full digest among them; a lane whose clock or supply is out of tolerance has a fault, or is
excluded on its way back; a missing strobe silences the module; a difference in blocks 8 to 13 does so too, and in block 6
the second, or the first of a Lead whose Layover is ready; in the others the first resets the block and a second within 10 s
takes it out; a reset block works again; a scrub in Layover counts a single error, drops a checkpoint with a double one, and
silences the module for a double one elsewhere. It rests on R331, R334, R335, R336, Tables 11-2 and 11-3, of which it states
what is said here. -/
def Obligations.LanesFailAndReturn : Prop :=
  (∀ (lane : Lane) (s : State), s.image.consist.autoReintegrate = true → (laneOf s lane).state = .excluded →
    (laneOf s lane).noRetry = false → runState s = true → heldFor s (laneOf s lane).exclAt 1000 = true →
    exec (.reintegrationStart lane) s = .next (beginReint lane s)) ∧
  (∀ (lane : Lane) (s : State), (laneOf s lane).state = .shadow → 10 ≤ (laneOf s lane).shadowRun →
    (laneOf s lane).shadowFull = true → s.tt.nextAct = 0 → lanesRun s = true →
    ∃ t, exec (.laneEnterService lane) s = .next t ∧ inService t lane = true ∧ (laneOf t lane).devRun = 0 ∧
      (laneOf t lane).changed = frame32 s ∧ ∀ l, l ≠ lane → laneOf t l = laneOf s l) ∧
  (∀ (lane : Lane) (supply : Bool) (s : State), junctionUp s = true → (laneOf s lane).state = .inService →
    exec (.laneMonitorFault lane supply) s = .next (laneFault lane (if supply then 9 else 8) s)) ∧
  (∀ (lane : Lane) (supply : Bool) (s : State), junctionUp s = true →
    (laneOf s lane).state = .reintegrating ∨ (laneOf s lane).state = .shadow →
    exec (.laneMonitorFault lane supply) s = .next (excludeLane lane (if supply then 9 else 8) s)) ∧
  (∀ s : State, lanesRun s = true → exec .tickStrobeMissing s = .next (fallSilent s)) ∧
  (∀ (block u code : Nat) (second : Bool) (s : State), junctionUp s = true → 1 ≤ block → block ≤ 13 →
    second = (match blockEntry s block u with
      | none => false
      | some b => b.out || decide (s.mono < b.at_ + 10000)) →
    code = (if 8 ≤ block ∨ block = 6 ∧ (second = true ∨ s.cons.role = .lead ∧ layoverReady s = true) then 3
      else if second then 2 else 1) →
    ∃ v w, v = assertVec 36 (logJ 11 2 (leBytes 1 block ++ leBytes 1 code)
        { s with jx.diffs := sat 16 (s.jx.diffs + 1), jx.lastBlock := block }) ∧
      w = setBlock { block, unit := u, at_ := s.mono, resetting := !second, out := second } v ∧
      exec (.junctionPairDifference block u) s =
        .next (if code = 3 then fallSilent v else if block = 5 then updateRing w else w)) ∧
  (∀ (block u : Nat) (s : State) (b : BlockFault), blockEntry s block u = some b → b.resetting = true →
    block ≠ 5 ∨ junctionUp s = false →
    exec (.junctionBlockRecovered block u) s = .next (setBlock { b with resetting := false } s)) ∧
  (∀ (u : Nat) (s : State) (b : BlockFault), blockEntry s 5 u = some b → b.resetting = true → junctionUp s = true →
    exec (.junctionBlockRecovered 5 u) s = .next (updateRing (setBlock { b with resetting := false } s))) ∧
  (∀ s : State, s.pow.state = .layover → exec (.retainedRegionScrub .single) s =
    .next { s with jx.eccCount := sat 32 (s.jx.eccCount + 1) }) ∧
  (∀ s : State, s.pow.state = .layover → exec (.retainedRegionScrub .doubleElsewhere) s = .next (fallSilent s)) ∧
  ∀ s : State, s.pow.state = .layover → exec (.retainedRegionScrub .doubleCheckpoint) s = .next { s with
    cons.deltas := [], cons.full := none, cons.pieces := [], cons.fullWait := none,
    cons.asm := if s.cons.sending = 0 then none else s.cons.asm }

/-! ### The ring, the consist and the takeover (chapter 11) -/

/-- RING_LINK_UP, RING_LINK_DOWN, LINK_DELAY_MEASURE and RING_MESSAGE: a link comes up after three valid messages and goes
down after 1 ms of silence, eight CRC failures or with its block; its delay is half of the round trip less the peer's
turnaround; a message of a working link is received, in Fault only forwarded, and one whose CRC fails is counted. It rests
on R338 to R340, of which it states what is said here. -/
def Obligations.RingLinksComeAndGo : Prop :=
  (∀ (east : Bool) (s : State) (l : LinkSt), l = s.cons.links.getD (linkNum east) {} → junctionUp s = true → l.up = false →
    3 ≤ l.good → blockDown s 5 (linkNum east) = false →
    exec (.ringLinkUp east) s = .next (updateRing { s with cons.links := s.cons.links.modify (linkNum east) (fun l =>
      { l with up := true, upAt := some s.mono, crcErr := 0 }) })) ∧
  (∀ (east : Bool) (s : State) (l : LinkSt), l = s.cons.links.getD (linkNum east) {} → junctionUp s = true → l.up = true →
    l.lastAt + 1 ≤ s.mono ∨ 8 ≤ l.crcErr ∨ blockDown s 5 (linkNum east) = true →
    exec (.ringLinkDown east) s = .next (updateRing { s with cons.links := s.cons.links.modify (linkNum east) (fun l =>
      { l with up := false, good := 0, crcErr := 0, upAt := none }) })) ∧
  (∀ (east : Bool) (r d : Int) (s : State), junctionUp s = true → (s.cons.links.getD (linkNum east) {}).up = true →
    exec (.linkDelayMeasure east r d) s = .next { s with cons.links := s.cons.links.modify (linkNum east) (fun l =>
      { l with delayPs := (r - d) / 2 }) }) ∧
  (∀ (east v : Bool) (m : RingMsg) (s : State), blockDown s 5 (linkNum east) = false → s.pow.state = .fault →
    exec (.ringMessage east ⟨m, v⟩) s = .next (if m.crcOk then forwardMsg east m s else s)) ∧
  (∀ (east v : Bool) (m : RingMsg) (s : State), junctionUp s = true → blockDown s 5 (linkNum east) = false → m.crcOk = true →
    exec (.ringMessage east ⟨m, v⟩) s = .next (receiveMsg east m v s)) ∧
  ∀ (east v : Bool) (m : RingMsg) (s : State), junctionUp s = true → blockDown s 5 (linkNum east) = false → m.crcOk = false →
    exec (.ringMessage east ⟨m, v⟩) s = .next (badMessage east m s)

/-- ROLL_CALL_START, ROLL_CALL_END, NO_HOME and ROLE_ASSIGNMENT: the HOME module with a link starts the roll call after
Boot, or on the command; it sends the roll call with address 1, takes that address unless the roll call is a check, and
writes it to its factory page on a store; the roll call ends with its result, sent to all, when its answers are complete or
200 ms after its start; a roll call that gave no answers ends without one; a module without a roll call within 5 s of a
link, or without a link, takes its stored address; a module in Ready with an image takes its first role; one in Layover
without a role takes its place again; a Witness that is the first of those fit to be Layover becomes it when nobody is. It
rests on R341, R343, R344, of which it states what is said here; the 200 ms of the end are the model's choice (log entry
111). -/
def Obligations.RollCallsAndRoles : Prop :=
  (∀ s : State, junctionUp s = true → s.cons.home = true → s.cons.links.any (·.up) = true →
    (s.cons.rollAt = none ∧ s.cons.rollDone = false) ∨ s.cons.rollReq.isSome = true →
    exec .rollCallStart s = .next (beginRoll (s.cons.rollReq.getD 2) s)) ∧
  (∀ (op : Nat) (s : State), ∃ u v, u = { s with cons.addr := if op = 0 then s.cons.addr else 1 } ∧
    v = (if op = 1 then writeFactory (some 1) u else u) ∧
    beginRoll op s = sendRoll (.rollCall op 1 Config.serial true) 0xFF { v with
      cons.rollAt := some v.mono, cons.rollOp := op, cons.rollGiven := 1, cons.rollReq := none, cons.rollCount := 0,
      cons.rollWest := false,
      cons.rollAnswers := [{ assigned := 1, stored := v.cons.stored, serial := Config.serial }] }) ∧
  (∀ s : State, junctionUp s = true → s.cons.rollAnswers ≠ [] →
    rollComplete s = true ∨ heldFor s s.cons.rollAt 200 = true →
    exec (.rollCallEnd ()) s = .next (endRoll s.cons.rollOp (rollOutcome s)
      (sendRoll (.rollResult s.cons.rollOp (rollOutcome s)) 0xFF s))) ∧
  (∀ s : State, junctionUp s = true → s.cons.rollAnswers = [] → heldFor s s.cons.rollAt 200 = true → s.cons.rollTask = none →
    exec (.rollCallEnd ()) s = .next { s with cons.rollAt := none }) ∧
  (∀ s : State, junctionUp s = true → runState s = true → s.cons.rollDone = false → s.cons.rollAt = none →
    s.cons.noHome = false → (s.cons.links.any (fun l => heldFor s l.upAt 5000) = true ∨
      (s.cons.links.all (fun l => !l.up) = true ∧ 1 < s.image.consist.size ∧ s.cons.bootEnd + 5000 ≤ s.mono)) →
    exec .noHome s = .next (updateRing { s with
      cons.addr := s.cons.stored, cons.noHome := true, cons.alarm := s.cons.alarm || s.cons.stored == 0,
      cons.waitAt := s.mono })) ∧
  (∀ s : State, junctionUp s = true → imageActive s = true → s.cons.role = .none → s.pow.state = .ready →
    exec .roleAssignment s = .next (firstRole s)) ∧
  (∀ s : State, junctionUp s = true → imageActive s = true → s.cons.role = .none → s.pow.state = .layover →
    s.cons.alarm = false → exec .roleAssignment s = .next (rejoin s)) ∧
  ∀ s : State, junctionUp s = true → imageActive s = true → s.cons.role = .witness → layoverSeen s = none →
    ([1, 2, 3, 4].filter (fun k => eligible s k && present s k &&
      (k == s.cons.addr || (peerAt s k).hb.role == 3))).head? = some s.cons.addr →
    exec .roleAssignment s = .next (setRole .layover { s with cons.layover := s.cons.addr })

/-- HEARTBEAT_WORD, LEAD_LOST, CARRIER_FAULT, ARB_CONFIRMED, ARB_REFUSED, LEAD_YIELD and SPLIT_VIEW_CLEAR: a good word of
another module, at most 3 ticks old by the frame its ring heartbeats give, is heard on its carrier and kept for relay; a
module silent on every carrier for more than 17 ms is lost, recorded by what it was, and the loss of the Lead is acted on; a
carrier silent while another is heard is a fault; a confirmation gives the start signal, without one the request is repeated
after 1 s; a Lead that hears nobody for 100 ms under WITNESS, or for 20 ms under EXTERNAL, falls silent; a split view is
cleared after 60 s. It rests on R347 to R350, of which it states what is said here. -/
def Obligations.LossOfTheLeadIsSeen : Prop :=
  (∀ (hbB : Bool) (slot word : Nat) (s : State) (p : Peer) (own est age : Nat), junctionUp s = true → slot < 4 →
    slot + 1 ≠ s.cons.addr → word / 256 % 256 = crc8 (word % 256) → word % 4 = slot → p = peerAt s (slot + 1) →
    (∃ at_, p.ringAt = some at_ ∧ s.mono ≤ at_ + 1000) → own = s.tt.ticks % 16 → est = (own + p.offset.getD 0) % 16 →
    age = (est + 16 - word / 16 % 16) % 16 → age ≤ 3 →
    ∃ u, u = onPeer (slot + 1) (fun q => { q with offset := p.offset, fromWord := p.fromWord }) s ∧
      exec (.heartbeatWord hbB slot word) s = .next (heard (slot + 1) (if hbB then 3 else 2)
        (onPeer (slot + 1) (fun q => { q with isLead := word.testBit 2, bit3 := word.testBit 3 })
          { u with cons.nowWords := s.cons.nowWords.set slot (some word) }))) ∧
  (∀ (addr at_ kind : Nat) (s : State), newestHeard s addr = some at_ → junctionUp s = true → addr ≠ s.cons.addr →
    (peerAt s addr).lost = false → at_ + 17 < s.mono →
    kind = (if addr = s.cons.lead then 1 else if addr = s.cons.layover then 2 else 3) →
    ∃ u, u = assertVec 36 (logJ 11 4 (leBytes 1 kind ++ leBytes 1 addr ++ leBytes 1 15)
        (onPeer addr (fun p => { p with lost := true, isLead := false }) s)) ∧
      exec (.leadLost addr) s = .next (updateRing
        (if kind = 1 then onLeadLost u else if kind = 2 then { u with cons.layover := 0 } else u))) ∧
  (∀ (carrier addr : Nat) (s : State), junctionUp s = true → carrier < 4 → addr ≠ s.cons.addr →
    heardIn s addr carrier 17 = false → heardAny s addr 17 = true → s.cons.carrierFault.getD carrier false = false →
    exec (.carrierFault carrier addr) s = .next (assertVec 36 (logJ 11 4 (leBytes 1 4 ++ leBytes 1 addr ++ leBytes 1 (2 ^ carrier))
      { s with cons.carrierFault := s.cons.carrierFault.set carrier true }))) ∧
  (∀ s : State, awaiting s = true → s.mono ≤ s.cons.arbAt + 1000 → s.image.consist.arbitration = 2 → s.cons.arbOut = true →
    exec .arbConfirmed s = .next { s with
      cons.startAt := some s.mono, cons.startSec := s.time.sec, cons.arbRefused := false, cons.arbIn := true,
      cons.arbInSince := s.mono - 1 }) ∧
  (∀ s : State, awaiting s = true → s.mono ≤ s.cons.arbAt + 1000 → s.image.consist.arbitration = 1 →
    [1, 2, 3, 4].any (fun k => present s k && k != s.cons.addr && k != s.cons.lead && (peerAt s k).bit3) = true →
    exec .arbConfirmed s = .next { s with
      cons.startAt := some s.mono, cons.startSec := s.time.sec, cons.arbRefused := false, cons.arbInSince := s.mono - 1 }) ∧
  (∀ s : State, awaiting s = true → s.image.consist.arbitration ≠ 0 → s.cons.arbAt + 1000 ≤ s.mono →
    exec .arbRefused s = .next { s with cons.arbRefused := true, cons.arbAt := s.mono }) ∧
  (∀ s : State, s.cons.role = .lead → s.image.consist.arbitration = 1 →
    [1, 2, 3, 4].all (fun k => k == s.cons.addr || !(heardAny s k 100)) = true → exec .leadYield s = .next (fallSilent s)) ∧
  (∀ s : State, s.cons.role = .lead → s.image.consist.arbitration = 2 →
    [1, 2, 3, 4].all (fun k => k == s.cons.addr || !(heardAny s k 20)) = true →
    exec .leadYield s = .next (fallSilent { s with cons.arbIn := false, cons.arbInSince := s.mono - 20 })) ∧
  ∀ s : State, s.cons.splitView = true → s.cons.splitAt + 60000 ≤ s.mono →
    exec .splitViewClear s = .next { s with cons.splitView := false }

/-- TAKEOVER_START, TAKEOVER_RESTORE, TAKEOVER_FIRST_FRAME, TAKEOVER_CAPTURE, TRANSFER_SHADOW_END, TRANSFER_RELEASE and
TRANSFER_ABORT: the start signal, or a transfer that can begin, wakes the Layover; its Boot restores the checkpoint, tests
the hold-up store and VBAK, and excludes the lanes whose self-test fails; the first frame comes at the boundary 240 ms after
the start signal; the islands are captured at the boundary that ends the second complete frame, and the takeover completes
when all are taken; a shadowing module takes the Lead from the full image assembled since; the outgoing module leaves its
islands and becomes Layover; an abort ends the transfer. It rests on R354 to R358, of which it states what is said here. -/
def Obligations.TakeoversRunTheirPhases : Prop :=
  (∀ s : State, s.cons.role = .layover → s.pow.state = .layover → s.cons.startAt.isSome = true →
    exec .takeoverStart s = .next (beginTake 5 { s with cons.phase := 0 })) ∧
  (∀ s : State, s.cons.role = .layover → s.pow.state = .layover → s.cons.startAt = none → leadTransfers s = true →
    takeoverReady s = true → s.cons.phase = 0 → exec .takeoverStart s = .next (beginTake 6 { s with
      cons.phase := 1, cons.prepFrame := (leadHb s).delta, cons.outgoing := false })) ∧
  (∀ (ok : Lane3 Bool) (h v : Nat) (s : State), s.pow.state = .boot → s.pow.bootKind = 1 → s.cons.restored = false →
    ∃ u w, u = testVbak v (measureHoldup h (restore s)) ∧
      w = { u with cons.phase := if u.cons.phase = 1 then 2 else u.cons.phase, cons.bootOk := ok.list.all id } ∧
      exec (.takeoverRestore ⟨ok, h, v⟩) s = .next (lanesAll.foldl (fun s l => if ok.get l then s else excludeLane l 10 s) w)) ∧
  (∀ s : State, s.pow.state = .boot → s.pow.bootKind = 1 → s.cons.restored = true → s.cons.phase = 0 →
    heldFor s s.cons.startAt 240 = true → atBoundary s = true → exec .takeoverFirstFrame s = .next (takeLead 5 s)) ∧
  (∀ s : State, s.cons.role = .lead → runState s = true → s.cons.capturing = true → 2 ≤ s.cons.goodFrames →
    atBoundary s = true → exec .takeoverCapture s = .next { s with
      cons.capturing := false, cons.capWait := true, cons.capLink := s.pow.state == .active }) ∧
  (∀ s : State, s.cons.role = .lead → runState s = true → s.cons.capturing = false → s.cons.capWait = true →
    allTaken s = true → exec .takeoverCapture s = .next (takeComplete s)) ∧
  (∀ s : State, s.cons.role = .lead → runState s = true → s.cons.capturing = false → s.cons.capWait = false →
    s.cons.phase = 3 → s.cons.captured = false → allCaptured s = true →
    exec .takeoverCapture s = .next { s with cons.captured := true }) ∧
  (∀ (s : State) (f : FullImg), s.pow.state = .boot → s.pow.bootKind = 1 → s.cons.phase = 2 → s.cons.outgoing = false →
    10 ≤ s.cons.shadowFrames → s.cons.full = some f → s.cons.prepFrame < f.fast.frame → atBoundary s = true →
    exec .transferShadowEnd s = .next { takeLead 6 (restore s) with cons.phase := 3 }) ∧
  (∀ s : State, s.cons.role = .transferring → s.cons.outgoing = true → (leadHb s).flags.testBit 5 = true →
    ∃ u v, u = endInjection 7 (abortCheck s) ∧ v = stagePending u.log.lanePend.length u ∧
      exec .transferRelease s = .next (enterLayover 6 (setRole .layover { v with
        isl := v.isl.map islandThrough, cons.phase := 0, cons.outgoing := false, cons.layover := v.cons.addr }))) ∧
  (∀ s : State, outgoingAborts s = true → exec .transferAbort s = .next (abortTransfer s)) ∧
  ∀ s : State, outgoingAborts s = false → incomingAborts s = true →
    ∃ u, u = enterLayover 6 (assertVec 36 (logJ 11 8 (leBytes 1 2 ++ leBytes 1 s.cons.phase)
        { s with cons.phase := 0, cons.restored := false, pow.bootMs := s.mono - s.pow.bootAt })) ∧
      exec .transferAbort s = .next (if u.cons.leadLostAt.isSome && u.image.consist.arbitration = 0 then
        { u with cons.startAt := some u.mono, cons.startSec := u.time.sec } else u)

/-! ### The host interface and the recorder (chapters 12 and 13) -/

/-- COMMAND_DATAGRAM, RELAY_RECORD_EXPIRY, SESSION_TIMEOUT, COMPLETION_REPLY, RESPONDER, QUEUE_DOORBELL, QUEUE_ENABLE,
COMPLETION_HEAD_WRITE, VEC_PEND_CLEAR, VEC_TEST, REGISTER_WRITE, IMAGE_TRANSFER_ABANDON and IMAGE_COMMIT_COMPLETE: a
datagram of a listed source arrives as a packet, one of another source is counted; a relay without a reply for 1 s is
forgotten; a session without an accepted packet for its timeout is closed; a completed command's reply goes to the source of
its session; the responder serves the waiting packets when no lane does; a doorbell fetches up to its tail, and a bad tail,
a failed fetch or an entry of bad length stops the queue with its error; the queue and vector registers take their writes;
an image transfer without a chunk for 60 s is given up; the checks of a commit fail it with their detail, or load the image.
It rests on R362, R363, R372, R375, R379, R383 to R386, R390, R392, of which it states what is said here. -/
def Obligations.HostTrafficIsServed : Prop :=
  (∀ (port srcIp srcPort : Nat) (p : Packet) (s : State), junctionUp s = true → portUp s port = true →
    (cmdPort s port).service = true → sourceOk (cmdPort s port) srcIp = true → p.wireSize + 28 ≤ (cmdPort s port).mtu →
    exec (.commandDatagram port (.udp srcIp srcPort s.image.cmd.udpPort false p)) s =
      .next (arrivePacket port { p with src := .udp port srcIp srcPort } s)) ∧
  (∀ (port srcIp srcPort : Nat) (p : Packet) (s : State), junctionUp s = true → portUp s port = true →
    (cmdPort s port).service = true → sourceOk (cmdPort s port) srcIp = false →
    exec (.commandDatagram port (.udp srcIp srcPort s.image.cmd.udpPort false p)) s =
      .next { s with host.unlisted := sat 16 (s.host.unlisted + 1) }) ∧
  (∀ (index : Nat) (r : Relay) (s : State), s.host.relays[index]? = some r → r.at_ + 1000 ≤ s.mono →
    exec (.relayRecordExpiry index) s = .next { s with host.relays := s.host.relays.eraseIdx index }) ∧
  (∀ (slot : Nat) (x : Session) (s : State), s.host.sessions.getD slot none = some x → junctionUp s = true →
    atBoundary s = true → x.lastAt + 1000 * x.timeoutS ≤ s.mono →
    exec (.sessionTimeout slot) s = .next (closeSession slot 3 s)) ∧
  (∀ (slot tag : Nat) (x : Session) (t : Slot) (s : State), s.host.sessions.getD slot none = some x →
    slotOf x tag = some t → junctionUp s = true → t.done = true → t.due = true →
    exec (.completionReply slot tag) s = .next (emitReply
      { dst := x.src, queue := t.queue, opcode := t.opcode, tag := t.tag, session := x.value, sequence := t.sequence,
        status := t.status, reads := sat 16 (t.reads + 1), result := t.result, completion := true }
      (onSlot slot tag (fun t => { t with due := false, reads := sat 16 (t.reads + 1) }) s))) ∧
  (∀ s : State, junctionUp s = true → nServing s = 0 →
    exec .responder s = .next ((s.inp.packets ++ setPackets s.inp.fcur).foldl processOne { s with
      inp.packets := []
      inp.fcur := s.inp.fcur.filter (fun r => match r.data with
        | .packet _ => false
        | _ => true) })) ∧
  (∀ (queue tail : Nat) (f : FetchIn) (s : State) (n : Nat), junctionUp s = true → queue < 32 → blockDown s 4 0 = false →
    (queueOf s queue).enable = true → (queueOf s queue).error = 0 → tail % 256 < ringSize (queueOf s queue) →
    f.dmaFault = false → f.entryLenBad = false →
    n = (tail % 256 + ringSize (queueOf s queue) - (queueOf s queue).sqHead) % ringSize (queueOf s queue) →
    exec (.queueDoorbell queue tail f) s = .next (onQueue queue (fun x => { x with sqHead := (x.sqHead + n) % ringSize x })
      (fetchAll queue f n s))) ∧
  (∀ (queue tail : Nat) (f : FetchIn) (s : State), junctionUp s = true → queue < 32 → blockDown s 4 0 = false →
    (queueOf s queue).enable = true → (queueOf s queue).error = 0 → ringSize (queueOf s queue) ≤ tail % 256 →
    exec (.queueDoorbell queue tail f) s = .next (onQueue queue (fun x => { x with error := 1 }) s)) ∧
  (∀ (queue tail n got : Nat) (f : FetchIn) (s : State), junctionUp s = true → queue < 32 → blockDown s 4 0 = false →
    (queueOf s queue).enable = true → (queueOf s queue).error = 0 → tail % 256 < ringSize (queueOf s queue) →
    f.dmaFault = true ∨ f.entryLenBad = true →
    n = (tail % 256 + ringSize (queueOf s queue) - (queueOf s queue).sqHead) % ringSize (queueOf s queue) →
    got = min n f.packets.length →
    exec (.queueDoorbell queue tail f) s = .next (onQueue queue (fun x => { x with error := if f.dmaFault then 2 else 3 })
      (onQueue queue (fun x => { x with sqHead := (x.sqHead + got) % ringSize x }) (fetchAll queue f got s)))) ∧
  (∀ (queue value : Nat) (s : State), junctionUp s = true → pcieUp s = true → queue < 32 →
    exec (.queueEnable queue value) s = .next (onQueue queue (writeCtrl value) s)) ∧
  (∀ (queue value : Nat) (s : State), junctionUp s = true → pcieUp s = true → queue < 32 →
    exec (.completionHeadWrite queue value) s = .next (onQueue queue (takeHead value) s)) ∧
  (∀ (high : Bool) (value : Nat) (s : State), junctionUp s = true → pcieUp s = true →
    exec (.vecPendClear high value) s = .next (clearPend high value s)) ∧
  (∀ (value : Nat) (s : State), junctionUp s = true → pcieUp s = true → value % 64 < 48 →
    exec (.vecTest value) s = .next (assertVec (value % 64) s)) ∧
  (∀ (offset value : Nat) (s : State), offset < 65536 → junctionUp s = true → blockDown s 4 0 = false →
    exec (.registerWrite offset value) s = .next (writeReg offset value s)) ∧
  (∀ (x : Transfer) (s : State), s.host.transfer = some x → junctionUp s = true → s.host.commit = none →
    x.lastAt + 60000 ≤ s.mono → exec .imageTransferAbandon s =
      .next (onImgSlot x.slot (fun y => { y with state := 3 }) { s with host.transfer := none })) ∧
  (∀ (readbackOk : Bool) (task : Task) (at_ : Nat) (x : Transfer) (s : State), s.host.commit = some (task, at_) →
    s.host.transfer = some x → junctionUp s = true → commitFailure s x readbackOk = none →
    ∃ u v, u = { s with
          host.transfer := none
          host.slots := s.host.slots.modify x.slot (fun y => { y with detail := 0, keyUnchecked := !keyChecked s }) } ∧
      v = logImage x.slot 1 0 u ∧
      exec (.imageCommitComplete readbackOk) s = .next (if v.cons.role == .layover || v.cons.role == .witness
        then commitAtOnce (activate x.slot v) else { v with host.activateAt := some x.slot })) ∧
  ∀ (readbackOk : Bool) (task : Task) (at_ : Nat) (x : Transfer) (detail status : Nat) (s : State),
    s.host.commit = some (task, at_) → s.host.transfer = some x → junctionUp s = true →
    commitFailure s x readbackOk = some (detail, status) →
    exec (.imageCommitComplete readbackOk) s = .next (completeSlot task status [] (logImage x.slot 2 detail { s with
      host.commit := none, host.transfer := none,
      host.slots := s.host.slots.modify x.slot (fun y => { y with state := 3, detail := detail }) }))

/-- RECORDER_WRITE, REC_LOAD, REC_NEXT, REC_PREV and REC_LOAD_COMPLETE: with no budget for a record the staged ones wait;
with it they are written in order, as many as the budget of their class holds, and charged; a record whose readback fails
twice or more is a fault of the recorder; the cursor commands start a load of the record at, after or before the cursor; its
end puts the record's result and bytes into the window and counts the load. It rests on R403, R409, R411, of which it states
what is said here. -/
def Obligations.RecordsAreWrittenAndRead : Prop :=
  (∀ (fails : Nat) (s : State), junctionUp s = true → s.log.started = true → s.tt.mramLeft.getD 1 0 < 64 →
    exec (.recorderWrite fails) s = .next { s with tt.recWait := recordsWait s }) ∧
  (∀ (fails : Nat) (s : State), junctionUp s = true → s.log.started = true → 64 ≤ s.tt.mramLeft.getD 1 0 → 2 ≤ fails →
    s.log.staged ≠ [] → s.log.full = false →
    exec (.recorderWrite fails) s = .next (faultFill (decide (3 ≤ fails)) { s with
      tt.mramLeft := s.tt.mramLeft.modify 1 (· - 64 * min (s.tt.mramLeft.getD 1 0 / 64) (fails + 1)) })) ∧
  (∀ (s u v : State) (before after : Nat), junctionUp s = true → s.log.started = true → 64 ≤ s.tt.mramLeft.getD 1 0 →
    u = writeMany (s.tt.mramLeft.getD 1 0 / 64) s →
    before = s.log.staged.length + (if s.log.fullRec.isSome then 1 else 0) →
    after = u.log.staged.length + (if u.log.fullRec.isSome then 1 else 0) →
    v = stageLost { u with tt.mramLeft := u.tt.mramLeft.modify 1 (· - 64 * (before - after)) } → v.log.clear = none →
    exec (.recorderWrite 0) s = .next { v with tt.recWait := recordsWait v }) ∧
  (∀ s : State, junctionUp s = true → s.log.loading = false →
    exec .recLoad s = .next { s with log.loading := true, log.cursor := s.log.cursor % 2 ^ 32 } ∧
    exec .recNext s = .next { s with log.loading := true, log.cursor := (s.log.cursor + 1) % 2 ^ 32 } ∧
    exec .recPrev s = .next { s with log.loading := true, log.cursor := (s.log.cursor + (2 ^ 32 - 1)) % 2 ^ 32 }) ∧
  ∀ s : State, s.log.loading = true → ∃ t, exec .recLoadComplete s = .next t ∧ t.log = { s.log with
    loading := false, result := (findRec s s.log.cursor).1, window := (findRec s s.log.cursor).2,
    loads := (s.log.loads + 1) % 2 ^ 16 }

/-! ### The display and the supplies (chapters 14 and 15) -/

/-- DISPLAY_FRAME_START, CRACK_DETECTED, GLASS_TEMPERATURE_SAMPLE, REGION_DEAD and REGION_HOLD_END: a frame start counts the
frame, takes the band and contrast that are due, measures the crack loop and composes the frame; a crack seen in three
frames is recorded and judged; a glass temperature chooses the band, and one that cannot be read is recorded, and again when
it can; a region of the module without rendering for 500 ms is dead; a hold time that is over ends the running update. It
rests on R415 to R418, R420, R421, R423, of which it states what is said here. -/
def Obligations.DisplayEventsAct : Prop :=
  (∀ (ohm : Nat) (s : State), dieAlive s = true → driverOut s = false → s.disp.oneLevel = false →
    ∃ u, u = takeBand { s with disp.frames := (s.disp.frames + 1) % 2 ^ 32, disp.clockMs := s.mono } ∧
      exec (.displayFrameStart ohm) s = .next (composeFrame ((List.range 16).foldl frameRegion
        (measureCrack ohm { u with disp.vLcd := vLcdOf u })))) ∧
  (∀ s : State, dieAlive s = true → 3 ≤ s.disp.crackRun → s.disp.cracked = false →
    exec .crackDetected s = .next (judgeBlank (dispEvent 2 1 { s with disp.cracked := true }))) ∧
  (∀ (temp : Option Qty) (deg : Qty) (s : State), dieAlive s = true → glassTemp s temp = some deg → s.disp.tempLost = false →
    exec (.glassTemperatureSample temp) s = .next { s with
      disp.temp := deg, disp.tempLost := false,
      disp.bandNext := some (bandFor s.image.disp.bandThr (s.disp.bandNext.getD s.disp.band) deg) }) ∧
  (∀ (temp : Option Qty) (deg : Qty) (s : State), dieAlive s = true → glassTemp s temp = some deg → s.disp.tempLost = true →
    exec (.glassTemperatureSample temp) s = .next (dispEvent 3 0 { s with
      disp.temp := deg, disp.tempLost := false,
      disp.bandNext := some (bandFor s.image.disp.bandThr (s.disp.bandNext.getD s.disp.band) deg) })) ∧
  (∀ (temp : Option Qty) (s : State), dieAlive s = true → glassTemp s temp = none → s.disp.tempLost = false →
    exec (.glassTemperatureSample temp) s = .next (dispEvent 3 1 { s with disp.tempLost := true })) ∧
  (∀ (region : Nat) (s : State), dieAlive s = true → region < 16 → (regionCfg s region).source = 2 →
    (regionAt s region).rendered + 500 ≤ s.mono → exec (.regionDead region) s = .next (setDead region true s)) ∧
  ∀ (region : Nat) (s : State), dieAlive s = true → (regionAt s region).running.isSome = true →
    holdOver s (regionAt s region) 16 = true →
    exec (.regionHoldEnd region) s = .next (onRegion region (fun x => { x with running := none }) s)

/-- SUPPLY_CHANGE, VBAK_TEST, OVER_TEMPERATURE, POWER_FAIL, HOLDUP_STOP, CHAMOIS_SECOND, CHAMOIS_COPY and VBAK_COLLAPSE: a
measured voltage is kept in steps of 10 mV, and a change named that is due is judged, logged where it has a code, and may
end a power fail; a logic input is VALID from 18.0 V on and INVALID below 17.0 V; VBAK below 2.2 V is low; the base plate
above its maximum is marked; with both logic inputs INVALID a power fail begins: the counters are copied to the factory
record, the staged records are flushed and the display goes to one level; 8 ms later, or at the store's threshold, the rails
go off, into Backup while VBAK holds 1.8 V, else Off; the counter of seconds runs, and is copied every 60 s; a VBAK that
collapses loses the counters. It rests on R426 to R429, R431, R460, of which it states what is said here. -/
def Obligations.SuppliesAreJudged : Prop :=
  (∀ (i : SupplyIn) (ev : SupplyEv) (mv : Nat) (s : State), supplyDue s i ev mv = false →
    exec (.supplyChange i ev mv) s = .next (setSupply i (supplyMeasured (supplyOf s i) mv) s)) ∧
  (∀ (i : SupplyIn) (ev : SupplyEv) (mv : Nat) (s u : State), supplyDue s i ev mv = true →
    u = (let v := setSupply i (supplyAfter (supplyOf s i) ev mv) s
      match ev with
      | .fldLow => { v with pow.fldLow := true }
      | .fldRestored => { v with pow.fldLow := false }
      | .fldOvercurrent => { v with pow.fldOver := true }
      | .fldOvercurrentEnd => { v with pow.fldOver := false }
      | _ => v) →
    (supplyCode ev = none → exec (.supplyChange i ev mv) s = .next (rideThrough i mv u)) ∧
    ∀ e, supplyCode ev = some e → exec (.supplyChange i ev mv) s = .next (rideThrough i mv (supplyEvent i.num e (mv / 10) u))) ∧
  (∀ (mv : Nat) (s : State), s.pow.pwrA.valid = false → 18000 ≤ mv →
    ∃ t, exec (.supplyChange .pwrA .valid mv) s = .next t ∧
      t.pow.pwrA = { s.pow.pwrA with mv := mv / 10 * 10, valid := true, absent := false } ∧ t.pow.pwrB = s.pow.pwrB) ∧
  (∀ (mv : Nat) (s : State), s.pow.pwrB.valid = false → 18000 ≤ mv →
    ∃ t, exec (.supplyChange .pwrB .valid mv) s = .next t ∧
      t.pow.pwrB = { s.pow.pwrB with mv := mv / 10 * 10, valid := true, absent := false } ∧ t.pow.pwrA = s.pow.pwrA) ∧
  (∀ (mv : Nat) (s : State), s.pow.pwrA.valid = true → mv < 17000 →
    ∃ t, exec (.supplyChange .pwrA .invalid mv) s = .next t ∧ t.pow.pwrA.valid = false ∧ t.pow.pwrA.mv = mv / 10 * 10 ∧
      t.pow.state = s.pow.state) ∧
  (∀ (mv : Nat) (s : State), s.pow.pwrB.valid = true → mv < 17000 →
    ∃ t, exec (.supplyChange .pwrB .invalid mv) s = .next t ∧ t.pow.pwrB.valid = false ∧ t.pow.pwrB.mv = mv / 10 * 10 ∧
      t.pow.state = s.pow.state) ∧
  (∀ (mv : Nat) (s : State), dieAlive s = true → s.pow.vbakAt + 3600000 ≤ s.mono →
    ∃ t, exec (.vbakTest mv) s = .next t ∧ t.pow.vbakLow = decide (mv < 2200) ∧ t.pow.vbakAt = s.mono) ∧
  (∀ (temp : Int) (s : State), dieAlive s = true →
    ∃ t, exec (.overTemperature temp) s = .next t ∧ t.pow.overTemp = decide (baseMax < temp) ∧
      t.pow.tBase = (temp : Qty) / 10 ∧ t.pow.state = s.pow.state) ∧
  (∀ s : State, poweredOn s = true → dieAlive s = true → s.pow.pf = none → s.pow.pwrA.valid = false → s.pow.pwrB.valid = false →
    ∃ t, exec .powerFail s = .next t ∧ t.pow.pf = some s.mono ∧ t.pow.facOpSec = s.pow.opSec ∧
      t.pow.facCycles = s.pow.cycles ∧ t.pow.copyAt = s.mono ∧ t.disp.oneLevel = true) ∧
  (∀ s : State, poweredOn s = true → dieAlive s = false → s.pow.pf = none → s.pow.pwrA.valid = false → s.pow.pwrB.valid = false →
    exec .powerFail s = .next { s with pow.pf := some s.mono }) ∧
  (∀ (atThreshold : Bool) (s : State), poweredOn s = true → s.pow.pf.isSome = true →
    atThreshold = true ∨ heldFor s s.pow.pf 8 = true → 1800 ≤ s.pow.vbak.mv →
    ∃ t, exec (.holdupStop atThreshold) s = .next t ∧ t.pow.state = .backup ∧ (s.pow.latch = true → t.pow.opSec = s.pow.opSec) ∧
      (s.pow.latch = false → t.pow.opSec = 0) ∧ t.sb.powered = false ∧ nServing t = 0) ∧
  (∀ (atThreshold : Bool) (s : State), poweredOn s = true → s.pow.pf.isSome = true →
    atThreshold = true ∨ heldFor s s.pow.pf 8 = true → s.pow.vbak.mv < 1800 →
    ∃ t, exec (.holdupStop atThreshold) s = .next t ∧ t.pow.state = .off ∧ t.pow.latch = false ∧ t.pow.opSec = 0) ∧
  (∀ s : State, poweredOn s = true → exec .chamoisSecond s = .next { s with pow.opSec := (s.pow.opSec + 1) % 2 ^ 32 }) ∧
  (∀ (s : State) (r : Bool × State), dieAlive s = true → s.pow.copyAt + 60000 ≤ s.mono →
    r = chargeMram { cls := 3, bytes := 12, cargo := .factory none } s →
    exec .chamoisCopy s = .next (if r.1 then storeFactory none r.2 else r.2)) ∧
  ∀ s : State, s.pow.state = .backup → s.pow.pwrA.valid = false → s.pow.pwrB.valid = false →
    exec .vbakCollapse s = .next { s with
      pow.state := .off, pow.since := s.mono, pow.latch := false, pow.opSec := 0, pow.cycles := 0, pow.shutdown := 0 }

/-- BOOT_START, BOOT_COMPLETE, LAYOVER_ENTRY, LAYOVER_LANES_OFF, SYS_RST_ASSERT, SYS_RST_RELEASE, WATCHDOG and
FAULT_RESTART: a VALID logic input starts a Boot; a Boot whose self-test passes and that has two lanes in service is Ready,
any other is Fault; a module in Ready with the role Layover or Witness enters Layover at a boundary, and its lanes go off at
one with the signal box in RUN; SYS-RST low for 10 µs holds the module in Boot, and its release boots; a Boot that takes 2 s
is restarted, three times in a row, then Fault or dead rails; a Fault under AFTER_60S restarts after 60 s, three times in an
hour. It rests on R434, R437 to R442, of which it states what is said here. -/
def Obligations.ModuleStatesFollowTheirEvents : Prop :=
  (∀ (b : BootIn) (s : State), poweredOn s = false → s.pow.pwrA.valid = true ∨ s.pow.pwrB.valid = true →
    exec (.bootStart b) s = .next (bootFrom 0 b.home b.railsOk true s)) ∧
  (∀ (b : BootIn) (s : State), poweredOn s = false → s.pow.pwrA.valid = true ∨ s.pow.pwrB.valid = true → b.railsOk = true →
    ∃ t, exec (.bootStart b) s = .next t ∧ t.pow.state = .boot ∧ t.sb.state = .init ∧ t.sb.powered = true ∧
      t.cons.home = b.home ∧ t.host.sessions = State.reset.host.sessions) ∧
  (∀ (b : BootOut) (s : State), s.pow.state = .boot → s.pow.bootKind = 0 → s.pow.railsOk = true → s.pow.rstLow = false →
    b.junctionOk = true → 2 ≤ nServing (bootSteps b s) →
    ∃ t, exec (.bootComplete b) s = .next t ∧ t.pow.state = .ready ∧ t.pow.watchdog = 0 ∧
      t.cons.bootOk = (b.lanesOk.list.all id && b.badIslands.isEmpty && b.gnssOk)) ∧
  (∀ (b : BootOut) (s : State), s.pow.state = .boot → s.pow.bootKind = 0 → s.pow.railsOk = true → s.pow.rstLow = false →
    b.junctionOk = false → exec (.bootComplete b) s = .next (fallSilent s)) ∧
  (∀ (b : BootOut) (s : State), s.pow.state = .boot → s.pow.bootKind = 0 → s.pow.railsOk = true → s.pow.rstLow = false →
    b.junctionOk = true → nServing (bootSteps b s) < 2 →
    exec (.bootComplete b) s = .next (fallSilent (bootSteps b s))) ∧
  (∀ s : State, s.pow.state = .ready → s.cons.role = .layover ∨ s.cons.role = .witness → atBoundary s = true →
    exec .layoverEntry s = .next (enterLayover 2 s)) ∧
  (∀ s : State, s.pow.state = .layover → s.pow.resetLanes = true → s.sb.state = .run → atBoundary s = true →
    exec .layoverLanesOff s = .next { s with pow.resetLanes := false, lanes := s.lanes.map (fun x => { x with powered := false }) }) ∧
  (∀ (lowUs : Nat) (s : State), 10 ≤ lowUs → poweredOn s = true → s.pow.rstLow = false → s.pow.railsDead = false →
    ∃ t, exec (.sysRstAssert lowUs) s = .next t ∧ t.pow.rstLow = true ∧ t.pow.railsOk = false ∧ nServing t = 0 ∧
      t.time.running = false ∧ t.pow.shutdown = 2) ∧
  (∀ (railsOk : Bool) (s : State), s.pow.state = .boot → s.pow.rstLow = true →
    exec (.sysRstRelease railsOk) s = .next (bootFrom 1 s.cons.home railsOk false s)) ∧
  (∀ (railsOk : Bool) (s : State), s.pow.state = .boot → s.pow.bootKind = 0 → s.pow.rstLow = false → s.pow.railsDead = false →
    s.time.running = false ∨ s.pow.bootAt + 2000 ≤ s.mono → s.pow.watchdog < 3 →
    exec (.watchdog railsOk) s = .next (bootFrom 4 s.cons.home railsOk true { s with pow.watchdog := s.pow.watchdog + 1 })) ∧
  (∀ (railsOk : Bool) (s : State), s.pow.state = .boot → s.pow.bootKind = 0 → s.pow.rstLow = false → s.pow.railsDead = false →
    s.time.running = false ∨ s.pow.bootAt + 2000 ≤ s.mono → 3 ≤ s.pow.watchdog →
    exec (.watchdog railsOk) s = .next (if s.pow.railsOk then fallSilent s else { s with pow.railsDead := true })) ∧
  ∀ s : State, s.pow.state = .fault → s.image.consist.faultRestart = true → heldFor s s.pow.silentAt 60000 = true →
    (recentRestarts s).length < 3 →
    exec .faultRestart s = .next (bootFrom 3 s.cons.home true true { s with pow.restarts := s.mono :: recentRestarts s })

/-! ### The commands of Table 12-18 (chapter 12) -/

namespace Sys2Proof.Claims

/-- A packet of opcode `op` in an open session that passes every check of Table 12-4 before the fields of its payload
(R368 to R375, R378, R379): `k` and `x` are its session, `u` the state that the command's own checks meet: the session has
taken the sequence number, and, for an opcode with a slot, a slot waits. -/
structure Taken (spec : OpSpec) (p : Packet) (s : State) (k : Nat) (x : Session) (u : State) : Prop where
  up : junctionUp s = true
  inSession : p.session ≠ 0
  session : sessionOf s p.session = some (k, x)
  newer : x.seq < p.sequence
  state : ∃ v, v = onSession k (fun y => { y with seq := p.sequence, lastAt := s.mono, src := p.src }) s ∧
    ((slotless p.opcode = true ∧ u = v) ∨
      (slotless p.opcode = false ∧ ∃ y, u = onSession k (fun _ => y) v ∧
        takeSlot { x with seq := p.sequence, lastAt := s.mono, src := p.src }
          { tag := p.tag, opcode := p.opcode, noReply := noReply p, queue := p.queue, sequence := p.sequence } = some y))
  queue : p.queue < 32
  flags : p.flags < 4
  source : ∀ q i n, p.src = .pcie q i n → q = p.queue
  authority : max (spec.auth p) (spec.authNow u p) ≤ x.authority
  role : roleOk spec u p = true
  length : spec.len u p = true
  served : servedNow u p = true

/-- The command `c`, of opcode `op`, completes: where its fields and the state meet `ok`, it answers `done`, stored in the
slot of its tag, and the state is the one that `done` gives with that reply. -/
def Answers (c : Packet → Instr) (op : Nat) (spec : OpSpec) (ok : Nat → Packet → State → Prop)
    (done : Nat → Packet → State → Done) : Prop :=
  ∀ (p : Packet) (s : State) (k : Nat) (x : Session) (u : State), p.opcode = op → Taken spec p s k x u → ok k p u →
    24 + (done k p u).result.length ≤ x.maxPacket → (done k p u).result.length ≤ 4076 →
    exec (c p) s = .next (if slotless op then replyNoSlot p (done k p u) p.session (done k p u).state
      else storeAndReply k p (done k p u))

/-- A row of Table 12-18: its opcode, its meaning and the command of the block. -/
structure OpRow where
  op : Nat
  spec : OpSpec
  cmd : Packet → Instr

/-- The rows of Table 12-18 below 0x0600; IMAGE_CHUNK once for each outcome of its read-back. -/
def opRows1 : List OpRow :=
  [⟨0x0101, pingSpec, .ping⟩, ⟨0x0102, getIdentitySpec, .getIdentity⟩, ⟨0x0103, openSessionSpec, .openSession⟩,
   ⟨0x0104, closeSessionSpec, .closeSession⟩, ⟨0x0105, getResultSpec, .getResult⟩, ⟨0x0106, ackResultSpec, .ackResult⟩,
   ⟨0x0107, getStateSpec, .getState⟩, ⟨0x0108, setModeSpec, .setMode⟩, ⟨0x0201, imageBeginSpec, .imageBegin⟩,
   ⟨0x0202, imageChunkSpec true, fun p => .imageChunk p true⟩,
   ⟨0x0202, imageChunkSpec false, fun p => .imageChunk p false⟩, ⟨0x0203, imageCommitSpec, .imageCommit⟩,
   ⟨0x0204, imageInfoSpec, .imageInfo⟩, ⟨0x0301, refSetSpec true, .refEnable⟩, ⟨0x0302, refSetSpec false, .refDisable⟩,
   ⟨0x0303, refStatusSpec, .refStatus⟩, ⟨0x0304, leverGetSpec, .leverArmGet⟩, ⟨0x0305, leverFreezeSpec, .leverArmFreeze⟩,
   ⟨0x0306, trackReadSpec, .trackTableRead⟩, ⟨0x0401, fusionStatusSpec, .fusionStatus⟩,
   ⟨0x0402, gridSnapshotSpec, .gridSnapshot⟩, ⟨0x0403, conflictResolveSpec, .conflictResolve⟩,
   ⟨0x0404, setpointSetSpec, .setpointSet⟩, ⟨0x0501, loopBankWriteSpec, .loopBankWrite⟩,
   ⟨0x0502, loopBankSwapSpec, .loopBankSwap⟩, ⟨0x0503, injectStartSpec, .injectStart⟩,
   ⟨0x0504, captureReadSpec, .captureRead⟩, ⟨0x0505, repetitiveSpec, .repetitiveCtrl⟩]

/-- The rows of Table 12-18 from 0x0600 on. -/
def opRows2 : List OpRow :=
  [⟨0x0601, allocStatusSpec, .allocStatus⟩, ⟨0x0602, thrusterEnableSpec, .thrusterEnable⟩,
   ⟨0x0603, thrusterDisableSpec, .thrusterDisable⟩, ⟨0x0604, allocModeSpec, .allocMode⟩,
   ⟨0x0605, attachBodySetSpec, .attachBodySet⟩, ⟨0x0701, chanConfigSpec, .chanConfig⟩,
   ⟨0x0702, chanStatusSpec, .chanStatus⟩, ⟨0x0703, chanReadSpec, .chanRead⟩, ⟨0x0704, hartTransactSpec, .hartTransact⟩,
   ⟨0x0705, chanCharSpec, .chanCharacteristic⟩, ⟨0x0706, filterConfigSpec, .filterConfig⟩,
   ⟨0x0707, complianceCheckSpec, .complianceCheck⟩, ⟨0x0801, gnssStatusSpec, .gnssStatus⟩,
   ⟨0x0802, gnssRawSpec, .gnssRaw⟩, ⟨0x0803, gnssCorrectionsSpec, .gnssCorrections⟩, ⟨0x0804, gnssModeSpec, .gnssMode⟩,
   ⟨0x0805, integrityReportSpec, .integrityReport⟩, ⟨0x0901, timeGetSpec, .timeGet⟩,
   ⟨0x0902, timeSourceSpec, .timeSource⟩, ⟨0x0903, ptpConfigSpec, .ptpConfig⟩, ⟨0x0904, txStampReadSpec, .txStampRead⟩,
   ⟨0x0905, ppsConfigSpec, .ppsConfig⟩, ⟨0x0A01, safetyStatusSpec, .safetyStatus⟩,
   ⟨0x0A02, safetyLimitsGetSpec, .safetyLimitsGet⟩, ⟨0x0A03, proofStatusSpec, .proofStatus⟩,
   ⟨0x0B01, consistStatusSpec, .consistStatus⟩, ⟨0x0B02, rollCallSpec, .rollCall⟩,
   ⟨0x0B03, transferLeadSpec, .transferLead⟩, ⟨0x0B04, laneStatusSpec, .laneStatus⟩,
   ⟨0x0B05, laneReintegrateSpec, .laneReintegrate⟩, ⟨0x0C01, recReadBlockSpec, .recReadBlock⟩,
   ⟨0x0C02, recInfoSpec, .recInfo⟩, ⟨0x0C03, recClearSpec, .recClear⟩, ⟨0x0C04, recMarkSpec, .recMark⟩,
   ⟨0x0D01, dispRegionWriteSpec, .dispRegionWrite⟩, ⟨0x0D02, dispStatusSpec, .dispStatus⟩,
   ⟨0x0D03, dispConfigSpec, .dispConfig⟩, ⟨0x0E01, powerStatusSpec, .powerStatus⟩, ⟨0x0E02, powerModeSpec, .powerMode⟩,
   ⟨0x0F01, timetableStatusSpec, .timetableStatus⟩, ⟨0x0F02, timetableCountersSpec, .timetableCounters⟩]

/-- Every row of Table 12-18. -/
def opRows : List OpRow := opRows1 ++ opRows2

end Sys2Proof.Claims

/-- The reply of a command is stored: a final answer puts the opcode, the status and the result into the slot of its tag,
done, and read once, or with NO_REPLY not yet read. It rests on R374, R375, of which it states what is said here. -/
def Obligations.RepliesAreStored : Prop :=
  ∀ (k : Nat) (p : Packet) (d : Done) (x : Session) (t : Slot), d.status ≠ 2 → d.state.host.sessions.getD k none = some x →
    slotOf x p.tag = some t → t.sequence = p.sequence → t.done = false →
    ∃ y r, (storeAndReply k p d).host.sessions.getD k none = some y ∧ slotOf y p.tag = some r ∧ r.opcode = p.opcode ∧
      r.status = d.status ∧ r.result = d.result ∧ r.done = true ∧ r.reads = (if noReply p then 0 else 1)

/-- A command packet of an open session: for every row of Table 12-18 and every form of its payload, a packet that passes
the checks before its fields runs the meaning of its opcode, and its answer is sent, and stored for an opcode with a slot, a
result beyond the session's limit excepted; the same packet in the frame set is processed alike; an opcode outside the table
answers BAD_OPCODE in its slot; a packet whose sequence number is not newer than the session's is discarded and counted. It
rests on R368, R373, of which it states what is said here. -/
def Obligations.EveryPacketRunsItsOpcode : Prop :=
  (∀ r ∈ opRows, Answers r.cmd r.op r.spec (fun _ _ _ => True) r.spec.run) ∧
  (∀ (spec : OpSpec) (p : Packet) (s : State) (k : Nat) (x : Session) (u : State), opTable p.opcode = some spec →
    Taken spec p s k x u → 24 + (spec.run k p u).result.length ≤ x.maxPacket → (spec.run k p u).result.length ≤ 4076 →
    processOne s p = (if slotless p.opcode then replyNoSlot p (spec.run k p u) p.session (spec.run k p u).state
      else storeAndReply k p (spec.run k p u))) ∧
  (∀ (p : Packet) (s : State) (k : Nat) (x y : Session), opTable p.opcode = none → junctionUp s = true → p.session ≠ 0 →
    sessionOf s p.session = some (k, x) → x.seq < p.sequence → 24 ≤ x.maxPacket → slotless p.opcode = false →
    takeSlot { x with seq := p.sequence, lastAt := s.mono, src := p.src }
      { tag := p.tag, opcode := p.opcode, noReply := noReply p, queue := p.queue, sequence := p.sequence } = some y →
    processOne s p = storeAndReply k p (fail 0x0010 (onSession k (fun _ => y)
      (onSession k (fun y => { y with seq := p.sequence, lastAt := s.mono, src := p.src }) s)))) ∧
  ∀ (p : Packet) (s : State) (k : Nat) (x : Session), junctionUp s = true → p.session ≠ 0 →
    sessionOf s p.session = some (k, x) → p.sequence ≤ x.seq →
    processOne s p = onSession k (fun y => { y with discarded := sat 32 (y.discarded + 1) })
      { s with host.discarded := sat 16 (s.host.discarded + 1) }

/-- Results of the system commands, in the forms named: PING echoes its payload; GET_IDENTITY and GET_STATE answer their
blocks, GET_STATE the snapshot of the boundary with the session's slot; OPEN_SESSION without authentication, default packet
size and timeout takes a free slot and logs it; CLOSE_SESSION closes; GET_RESULT of a completed slot repeats it and counts
the read; ACK_RESULT frees the slots it names; SET_MODE to a mode that differs and can be taken answers DEFERRED with the
frame of its effect. It rests on R369, R370, R372, R376, R377, of which it states what is said here. -/
def Obligations.SystemCommandsAnswer : Prop :=
  Answers .ping 0x0101 pingSpec (fun _ _ _ => True) (fun _ p u => { status := 0, result := p.payload, state := u }) ∧
  Answers .getIdentity 0x0102 getIdentitySpec (fun _ _ _ => True)
    (fun _ _ u => { status := 0, result := identityResult u, state := u }) ∧
  (∀ (p : Packet) (s : State) (j : Nat) (x : Session) (v : State), junctionUp s = true → p.opcode = 0x0103 → p.session = 0 →
    p.queue < 32 → p.flags < 4 → (∀ q i n, p.src = .pcie q i n → q = p.queue) → p.payload.length = 40 →
    fieldByte p.payload 0 ≤ 2 → fieldByte p.payload 1 ≤ 4 → fieldNat p.payload 2 2 = 0 → fieldNat p.payload 4 2 = 0 →
    levelGranted s p = true → sameOpen s (fieldNat p.payload 8 8) p.src = none → freeSession s = some j →
    x = newSession s j p →
    v = { s with
      host.sessions := s.host.sessions.set j (some x)
      host.nonces := s.host.nonces.filter (fun n => decide (s.mono < n.2 + 60000)) } →
    (openResult v j x).length ≤ 4076 →
    ∃ u, u = logJ 12 1 (leBytes 1 j ++ leBytes 1 1 ++ leBytes 1 x.authority ++ fitBytes 16 x.name) v ∧
      exec (.openSession p) s = .next (replyNoSlot p { status := 0, result := openResult v j x, state := u } 0 u)) ∧
  Answers .closeSession 0x0104 closeSessionSpec (fun _ _ _ => True)
    (fun k _ u => { status := 0, state := closeSession k 2 u }) ∧
  (∀ r : Slot, Answers .getResult 0x0105 getResultSpec
    (fun k p u => (u.host.sessions.getD k none).bind (fun x => slotOf x (fieldNat p.payload 0 2)) = some r ∧ r.done = true)
    (fun k p u =>
      { status := if r.reads = 0 then 0 else 3, reads := sat 16 (r.reads + 1)
        result := leBytes 2 r.tag ++ leBytes 2 r.opcode ++ leBytes 2 r.status ++ zeros 2 ++ r.result
        state := onSlot k (fieldNat p.payload 0 2) (fun y => { y with reads := sat 16 (y.reads + 1) }) u })) ∧
  (∀ x : Session, Answers .ackResult 0x0106 ackResultSpec
    (fun k p u => 1 ≤ fieldByte p.payload 0 ∧ fieldByte p.payload 0 ≤ 32 ∧ u.host.sessions.getD k none = some x)
    (fun k p u =>
      let tags := (List.range (fieldByte p.payload 0)).map (fun i => fieldNat p.payload (2 + 2 * i) 2)
      { status := 0, result := leBytes 1 (x.slots.filter (fun r => tags.contains r.tag)).length ++ zeros 3
        state := onSession k (fun y => { y with slots := y.slots.filter (fun r => !tags.contains r.tag) }) u })) ∧
  Answers .getState 0x0107 getStateSpec (fun _ _ _ => True)
    (fun k _ u => { status := 0, result := u.host.stSnap.take 29 ++ leBytes 1 k ++ u.host.stSnap.drop 30, state := u }) ∧
  Answers .setMode 0x0108 setModeSpec
    (fun _ p u => fieldByte p.payload 0 < 5 ∧ u.pow.state = .active ∧
      modeMet u (dpModeOf (fieldByte p.payload 0)) (fieldByte p.payload 1) = true ∧ u.set.mode ≠ dpModeOf (fieldByte p.payload 0))
    (fun _ p u =>
      { status := 1, result := leBytes 1 u.set.mode.code ++ leBytes 1 (fieldByte p.payload 0) ++ zeros 2 ++ leBytes 4 (effectFrame u)
        state := defer (.mode (dpModeOf (fieldByte p.payload 0)) (fieldByte p.payload 1)) u })

/-- Results of the image commands, in the forms named: IMAGE_BEGIN of 4,096 to 8,388,608 bytes begins a transfer in the slot
that is not active; IMAGE_CHUNK at the next offset with a good read-back is accepted; IMAGE_COMMIT in Ready, Commissioning,
a Layover or a Witness waits for its checks; IMAGE_INFO answers both slots. It rests on R389, R390, R392, of which it states
what is said here. -/
def Obligations.ImageCommandsAnswer : Prop :=
  Answers .imageBegin 0x0201 imageBeginSpec
    (fun _ p u => 4096 ≤ fieldNat p.payload 0 4 ∧ fieldNat p.payload 0 4 ≤ 8388608 ∧ u.host.commit = none ∧ u.host.transfer = none)
    (fun k p u =>
      let x : Transfer :=
        { session := k, slot := targetSlot u, length := fieldNat p.payload 0 4, digest := (p.payload.drop 8).take 32, lastAt := u.mono }
      { status := 0, result := leBytes 1 (targetSlot u) ++ zeros 3 ++ leBytes 4 0
        state := onImgSlot (targetSlot u) (fun y => { y with state := 1, length := fieldNat p.payload 0 4, next := 0 })
          { u with host.transfer := some x } }) ∧
  (∀ x : Transfer, Answers (fun p => .imageChunk p true) 0x0202 (imageChunkSpec true)
    (fun k p u => u.host.transfer = some x ∧ x.session = k ∧ u.host.commit = none ∧ fieldNat p.payload 0 4 = x.next ∧
      9 ≤ p.payload.length ∧ p.payload.length ≤ 4080 ∧ x.next + (p.payload.length - 8) ≤ x.length)
    (fun k p u => acceptChunk k p x x.next (p.payload.drop 8) u)) ∧
  Answers .imageCommit 0x0203 imageCommitSpec
    (fun k _ u => (u.pow.state = .ready ∨ u.pow.state = .commissioning ∨ u.cons.role = .layover ∨ u.cons.role = .witness) ∧
      u.host.commit = none ∧ ∃ x, u.host.transfer = some x ∧ x.session = k)
    (fun k p u => { status := 2, state := { u with host.commit := some (taskOf k p, u.mono) } }) ∧
  Answers .imageInfo 0x0204 imageInfoSpec (fun _ _ _ => True)
    (fun _ _ u => { status := 0, result := imageEntry u 0 ++ imageEntry u 1, state := u })

/-- Results of the commands of references and fusion, in the forms named: REF_ENABLE and REF_DISABLE of an object not
already so answer DEFERRED; REF_STATUS and LEVER_ARM_GET answer one entry; a lever arm command that changes something
answers DEFERRED; TRACK_TABLE_READ answers the live tracks of its range, or all; FUSION_STATUS answers the fusion;
GRID_SNAPSHOT of full resolution answers the cells of the grid held or current; CONFLICT_RESOLVE EXCLUDE and an absolute
SETPOINT_SET answer DEFERRED. It rests on R143, R147, R158, R160, R181, R195 to R197, of which it states what is said here.
-/
def Obligations.ReferenceCommandsAnswer : Prop :=
  (∀ on : Bool, Answers (if on then .refEnable else .refDisable) (if on then 0x0301 else 0x0302) (refSetSpec on)
    (fun _ p u => fieldByte p.payload 0 ≤ 1 ∧ fieldByte p.payload 1 ≤ (if fieldByte p.payload 0 = 1 then 23 else 15) ∧
      unitDefined u (fieldByte p.payload 0 = 1) (fieldByte p.payload 1) = true ∧
      (unitOf u (fieldByte p.payload 0 = 1) (fieldByte p.payload 1)).enabled ≠ on)
    (fun _ p u =>
      { status := 1
        result := leBytes 1 (fieldByte p.payload 0) ++ leBytes 1 (fieldByte p.payload 1) ++
          leBytes 1 (unitOf u (fieldByte p.payload 0 = 1) (fieldByte p.payload 1)).state.code ++ zeros 1 ++ leBytes 4 (effectFrame u)
        state := defer (.refSet (fieldByte p.payload 0 = 1) (fieldByte p.payload 1) on) u })) ∧
  Answers .refStatus 0x0303 refStatusSpec
    (fun _ p u => fieldByte p.payload 0 ≤ 1 ∧ unitDefined u (fieldByte p.payload 0 = 1) (fieldByte p.payload 1) = true)
    (fun _ p u =>
      { status := 0, result := leBytes 1 1 ++ zeros 3 ++ refEntry u (fieldByte p.payload 0 = 1) (fieldByte p.payload 1), state := u }) ∧
  Answers .leverArmGet 0x0304 leverGetSpec
    (fun _ p u => fieldByte p.payload 0 ≠ 255 ∧ unitDefined u false (fieldByte p.payload 0) = true)
    (fun _ p u => { status := 0, result := leBytes 1 1 ++ zeros 3 ++ leverEntry u (fieldByte p.payload 0), state := u }) ∧
  (∀ v : Lever, Answers .leverArmFreeze 0x0305 leverFreezeSpec
    (fun _ p u => unitDefined u false (fieldByte p.payload 0) = true ∧ fieldByte p.payload 1 ≤ 2 ∧
      v = (u.ref.refs.getD (fieldByte p.payload 0) {}).lever ∧ v.state ≠ 0 ∧ v.state ≠ 5 ∧
      leverAlready (fieldByte p.payload 1) v = false)
    (fun _ p u => { status := 1, result := leverBytes u (fieldByte p.payload 0) (u.ref.leverSnap.getD (fieldByte p.payload 0) {}),
                    state := defer (.lever (fieldByte p.payload 0) (fieldByte p.payload 1)) u })) ∧
  Answers .trackTableRead 0x0306 trackReadSpec
    (fun _ p _ => 1 ≤ fieldByte p.payload 1 ∧ fieldByte p.payload 0 + fieldByte p.payload 1 ≤ 96)
    (fun _ p u =>
      let l := ((List.range (fieldByte p.payload 1)).map (· + fieldByte p.payload 0)).filter (fun j =>
        (fieldByte p.payload 2).testBit 0 || (u.ref.tracks.getD j {}).live)
      { status := 0
        result := leBytes 1 l.length ++ zeros 1 ++ leBytes 2 (u.ref.tracks.filter Track.live).length ++
          leBytes 4 u.ref.overflow ++ leBytes 4 u.ref.rowDrops ++ (l.map (trackEntry u)).flatten
        state := u }) ∧
  Answers .fusionStatus 0x0401 fusionStatusSpec (fun _ _ _ => True)
    (fun _ _ u => { status := 0, result := fusionResult u, state := u }) ∧
  Answers .gridSnapshot 0x0402 gridSnapshotSpec
    (fun _ p _ => 1 ≤ fieldByte p.payload 4 ∧ fieldByte p.payload 4 ≤ 44 ∧ 1 ≤ fieldByte p.payload 5 ∧ fieldByte p.payload 5 ≤ 44 ∧
      fieldByte p.payload 6 = 1 ∧ fieldByte p.payload 7 = 0 ∧ fieldNat p.payload 0 2 + fieldByte p.payload 4 ≤ gridSize ∧
      fieldNat p.payload 2 2 + fieldByte p.payload 5 ≤ gridSize)
    (fun _ p u =>
      let g := u.fus.grids.getD (u.fus.heldBuf.getD u.fus.cur) {}
      let r0 := fieldNat p.payload 0 2
      let c0 := fieldNat p.payload 2 2
      { status := 0
        result := leBytes 8 g.frame ++ f64Bytes g.n ++ f64Bytes g.e ++ leBytes 2 r0 ++ leBytes 2 c0 ++
          leBytes 1 (fieldByte p.payload 4) ++ leBytes 1 (fieldByte p.payload 5) ++ leBytes 1 1 ++
          leBytes 1 (if u.fus.heldBuf.isSome then 1 else 0) ++
          ((List.range (fieldByte p.payload 4)).map (fun i => ((List.range (fieldByte p.payload 5)).map (fun j =>
            leBytes 2 (blockMin g 1 (r0 + i * 1) (c0 + j * 1)))).flatten)).flatten
        state := u }) ∧
  Answers .conflictResolve 0x0403 conflictResolveSpec
    (fun _ p u => fieldByte p.payload 0 = 1 ∧ (bitsOf 16 (fieldNat p.payload 2 2)).any (fun i => !(unitDefined u false i)) = false)
    (fun _ p u =>
      { status := 1
        result := leBytes 2 (maskOf (if u.fus.conflict then u.fus.parties else [])) ++
          leBytes 2 (maskOf (excludedRefs u ++ bitsOf 16 (fieldNat p.payload 2 2))) ++ leBytes 4 (effectFrame u)
        state := defer (.resolve 1 (bitsOf 16 (fieldNat p.payload 2 2))) u }) ∧
  ∀ n e v r : Qty, Answers .setpointSet 0x0404 setpointSetSpec
    (fun _ p _ => fieldByte p.payload 0 = 0 ∧ fieldByte p.payload 1 = 0 ∧ fieldF64 p.payload 4 = some n ∧
      fieldF64 p.payload 12 = some e ∧ fieldF32 p.payload 24 = some v ∧ fieldF32 p.payload 28 = some r ∧ 0 ≤ v ∧ v ≤ 2 ∧ 0 ≤ r)
    (fun _ p u =>
      { status := 1, result := setpointResult u (u.obs.n, u.obs.e) (curTarget u) (speedOf u.image.fusion.vMax v)
        state := defer (.setPosition 0 n e (bamDeg (fieldNat p.payload 20 4)) v r) u })

/-- Results of the commands of control and allocation, in the forms named: LOOP_BANK_WRITE into a bank not in use writes and
seals it; LOOP_BANK_SWAP with the checks met, INJECT_START, REPETITIVE_CTRL, THRUSTER_ENABLE, THRUSTER_DISABLE and
ALLOC_MODE that change something answer DEFERRED; CAPTURE_READ of no signals, ALLOC_STATUS and ATTACH_BODY_SET's read answer
their blocks. It rests on R220 to R228, R238, R240, R253, R258, of which it states what is said here. -/
def Obligations.ControlCommandsAnswer : Prop :=
  Answers .loopBankWrite 0x0501 loopBankWriteSpec
    (fun _ p u => fieldByte p.payload 0 ≤ 1 ∧ fieldNat p.payload 4 2 % 4 = 0 ∧ fieldNat p.payload 6 2 % 4 = 0 ∧
      4 ≤ fieldNat p.payload 6 2 ∧ fieldNat p.payload 6 2 ≤ 4072 ∧
      fieldNat p.payload 4 2 + fieldNat p.payload 6 2 ≤ 0x3FFC ∧ u.ctl.swap = none ∧ fieldByte p.payload 0 ≠ u.ctl.active ∧
      fieldByte p.payload 0 ≠ u.ctl.activeLoop)
    (fun _ p u =>
      let bank := fieldByte p.payload 0
      let m := sealBank (memWriteAll (u.ctl.banks.getD bank []) (fieldNat p.payload 4 2) (p.payload.drop 8))
      let v := { u with ctl.banks := u.ctl.banks.set bank m }
      { status := 0, result := leBytes 4 (bankCrc v bank) ++ leBytes 2 (fieldNat p.payload 4 2) ++ leBytes 2 (fieldNat p.payload 6 2)
        state := v }) ∧
  Answers .loopBankSwap 0x0502 loopBankSwapSpec
    (fun _ p u => fieldByte p.payload 0 = 1 ∧ fieldByte p.payload 1 ≤ 1 ∧ fieldByte p.payload 2 ≤ 9 ∧
      bankCrc u (fieldByte p.payload 1) = fieldNat p.payload 4 4 ∧ kindsMatch u (fieldByte p.payload 1) = true ∧
      axisFieldsOk u (fieldByte p.payload 1) = true ∧ compFieldsOk u (fieldByte p.payload 1) = true ∧
      loopFieldsOk u (fieldByte p.payload 1) = true ∧ inEnvelope u (fieldByte p.payload 1) = true ∧ u.ctl.swap = none ∧
      fieldByte p.payload 1 ≠ u.ctl.active)
    (fun _ p u =>
      let w : Swap := { bank := fieldByte p.payload 1, tick := fieldByte p.payload 2, frame := effectFrame u, axesDone := false }
      let v := defer .swapAxes { u with ctl.swap := some w }
      { status := 1, result := swapResult v, state := v }) ∧
  (∀ j : Inject, Answers .injectStart 0x0503 injectStartSpec
    (fun _ p u => fieldByte p.payload 3 ≤ 4 ∧ fieldByte p.payload 0 ≤ 2 ∧ injOfPayload p.payload = some j ∧ injRangeBad j = false ∧
      (j.target = 2 ∨ (loopBind u j.index j.slot).isSome = true) ∧ (j.capture = true →
        j.signals.all capClassOk = true ∧ j.signals.all capSigOk = true) ∧ u.ctl.inj.job = none ∧
      injAllowed u j = true ∧ (j.waveform = 4 ∨ absQ j.amplitude ≤ injLimit u j))
    (fun _ _ u =>
      { status := 1, result := leBytes 4 (injStartFrame u j) ++ leBytes 1 j.startTick ++ zeros 3
        state := defer (.inject j) { u with ctl.inj.job := some j, ctl.inj.live := false, ctl.inj.running := false } })) ∧
  Answers .captureRead 0x0504 captureReadSpec
    (fun _ p _ => fieldByte p.payload 0 = 0)
    (fun _ p u =>
      let c := u.ctl.inj
      let rows := ((c.samples.reverse).drop (fieldNat p.payload 2 2)).take (fieldNat p.payload 4 2)
      { status := 0
        result := leBytes 1 c.capState ++ leBytes 1 c.reason ++ leBytes 2 rows.length ++ leBytes 4 c.samples.length ++
          leBytes 4 c.trigger ++ leBytes 4 c.trigFrame ++ leBytes 2 c.decim ++ leBytes 1 0 ++ zeros 1 ++
          ((List.range 8).map (fun k => f32Bytes (match c.sigs[k]? with
            | some g => if g.2.2.2 = 0 then 0 else capScale u g
            | none => 0))).flatten ++ zeros 4 ++ (rows.map (fun _ => [])).flatten
        state := u }) ∧
  (∀ x : Qty, Answers .repetitiveCtrl 0x0505 repetitiveSpec
    (fun _ p u => fieldByte p.payload 0 = 1 ∧ fieldByte p.payload 1 ≤ 7 ∧ fieldByte p.payload 2 ≤ 4 ∧ fieldByte p.payload 3 ≤ 1 ∧
      fieldF32 p.payload 4 = some x ∧ fieldByte p.payload 8 ≤ 127 ∧ 2 ≤ x ∧ x ≤ 120 ∧
      (fieldByte p.payload 3 = 1 → pulseInput u (fieldByte p.payload 8) = true) ∧
      (applyRepetitive (fieldByte p.payload 1) (fieldByte p.payload 2) (fieldByte p.payload 3) x (fieldByte p.payload 8) u).ctl.axes
        ≠ u.ctl.axes)
    (fun _ p u =>
      { status := 1, result := repResult u
        state := defer (.repetitive (fieldByte p.payload 1) (fieldByte p.payload 2) (fieldByte p.payload 3) x (fieldByte p.payload 8)) u })) ∧
  Answers .allocStatus 0x0601 allocStatusSpec (fun _ _ _ => True)
    (fun _ _ u => { status := 0, result := allocHeader u ++ ((cfgThrs u).map (fun x => allocEntry u x.1 x.2)).flatten, state := u }) ∧
  Answers .thrusterEnable 0x0602 thrusterEnableSpec
    (fun _ p u => fieldByte p.payload 0 ≤ 31 ∧
      (∃ c, thrCfg u (fieldByte p.payload 0) = some c ∧ lostCause u (fieldByte p.payload 0) c = false) ∧
      (u.alloc.thr.getD (fieldByte p.payload 0) {}).enabled = false)
    (fun _ p u =>
      { status := 1, result := thrResult u (fieldByte p.payload 0) (effectFrame u), state := defer (.thrEnable (fieldByte p.payload 0)) u }) ∧
  Answers .thrusterDisable 0x0603 thrusterDisableSpec
    (fun _ p u => fieldByte p.payload 0 ≤ 31 ∧ (thrCfg u (fieldByte p.payload 0)).isSome = true ∧
      (u.alloc.thr.getD (fieldByte p.payload 0) {}).enabled = true)
    (fun _ p u =>
      { status := 1, result := thrResult u (fieldByte p.payload 0) (effectFrame u)
        state := defer (.thrDisable (fieldByte p.payload 0) (forced p)) u }) ∧
  Answers .allocMode 0x0604 allocModeSpec
    (fun _ p u => fieldByte p.payload 0 = 1 ∧ modePolicy u p.payload ≤ 1 ∧ modePolicy u p.payload ≠ u.alloc.policy)
    (fun _ p u =>
      { status := 1, result := allocModeResult u 1 (effectFrame u)
        state := defer (.allocMode (modePolicy u p.payload) (modeGroups u p.payload) (bitN ((fieldByte p.payload 3).testBit 0) 0)) u }) ∧
  Answers .attachBodySet 0x0605 attachBodySetSpec
    (fun _ p u => fieldByte p.payload 0 = 0 ∧ (u.image.alloc.bodies[fieldByte p.payload 1]?).isSome = true)
    (fun _ p u => { status := 0, result := bodyResult u (fieldByte p.payload 1), state := u })

/-- Results of the commands of the channels, in the forms named: a configuration and a filter within range of a channel that
nothing uses answer DEFERRED; CHAN_STATUS, CHAN_READ and CHAN_CHARACTERISTIC answer their blocks; a HART transaction with a
long address joins its queue; a loop check begins. It rests on R257, R287, R289, R297 to R300, of which it states what is
said here. -/
def Obligations.ChannelCommandsAnswer : Prop :=
  Answers .chanConfig 0x0701 chanConfigSpec
    (fun _ p u => fieldByte p.payload 1 = 1 ∧ fieldByte p.payload 0 ≤ 127 ∧
      cfgRangeBad (cfgOfPayload p.payload (chanOf u (fieldByte p.payload 0)).cfg) (fieldByte p.payload 28) = false ∧
      fieldByte p.payload 28 ≤ 15 ∧
      (cfgOfPayload p.payload (chanOf u (fieldByte p.payload 0)).cfg).mdAddr.eraseDups.length =
        (cfgOfPayload p.payload (chanOf u (fieldByte p.payload 0)).cfg).mdAddr.length ∧
      (isOut (cfgOfPayload p.payload (chanOf u (fieldByte p.payload 0)).cfg) = false ∨
        outChar (chanAsked u (fieldByte p.payload 0)).charac = true) ∧ chanBound u (fieldByte p.payload 0) = false)
    (fun _ p u =>
      let i := chanOf u (fieldByte p.payload 0)
      { status := 1
        result := leBytes 1 (fieldByte p.payload 0) ++ leBytes 1 1 ++ cfgBytes i.cfg ++ leBytes 1 i.up.state ++
          leBytes 1 (if i.cfgNext.isSome && !i.resetDue then 1 else 0) ++ zeros 2 ++ leBytes 4 (effectFrame u)
        state := defer (.chanCfg (fieldByte p.payload 0) (cfgOfPayload p.payload i.cfg)) u }) ∧
  Answers .chanStatus 0x0702 chanStatusSpec
    (fun _ p _ => 1 ≤ fieldByte p.payload 1 ∧ fieldByte p.payload 1 ≤ 127 ∧ fieldByte p.payload 0 + fieldByte p.payload 1 ≤ 128)
    (fun _ p u =>
      { status := 0, state := u, result := leBytes 1 (fieldByte p.payload 1) ++ zeros 3 ++
          ((List.range (fieldByte p.payload 1)).map (fun k => chanEntry u (fieldByte p.payload 0 + k))).flatten }) ∧
  Answers .chanRead 0x0703 chanReadSpec
    (fun _ p _ => fieldByte p.payload 1 = 0 ∧ fieldByte p.payload 0 ≤ 127)
    (fun _ p u => { status := 0, result := chanValues u (fieldByte p.payload 0), state := u }) ∧
  Answers .hartTransact 0x0704 hartTransactSpec
    (fun _ p u => fieldByte p.payload 1 = 1 ∧ fieldByte p.payload 0 ≤ 127 ∧ fieldByte p.payload 2 ≤ 63 ∧ fieldByte p.payload 3 ≤ 5 ∧
      fieldNat p.payload 12 2 ≤ 255 ∧ hartOk (chanOf u (fieldByte p.payload 0)).cfg = true ∧
      (chanOf u (fieldByte p.payload 0)).hartQ.length < 4)
    (fun k p u =>
      let j : HartJob :=
        { long := true, polling := fieldByte p.payload 2, retries := fieldByte p.payload 3, longAddr := fieldNat p.payload 4 5,
          command := fieldNat p.payload 10 2, data := p.payload.drop 14, task := taskOf k p, since := u.mono }
      { status := 2, state := onIsl (fieldByte p.payload 0) (fun i => { i with hartQ := i.hartQ ++ [j] }) u }) ∧
  Answers .chanCharacteristic 0x0705 chanCharSpec
    (fun _ p _ => fieldByte p.payload 1 = 0 ∧ fieldByte p.payload 0 ≤ 127)
    (fun _ p u =>
      { status := 0, result := leBytes 1 (fieldByte p.payload 0) ++ leBytes 1 0 ++ charBytes (chanOf u (fieldByte p.payload 0)).cfg.charac,
        state := u }) ∧
  (∀ x : Qty, Answers .filterConfig 0x0706 filterConfigSpec
    (fun _ p u => fieldByte p.payload 1 = 1 ∧ fieldByte p.payload 3 ≤ 3 ∧ fieldByte p.payload 0 ≤ 127 ∧ fieldByte p.payload 2 ≤ 8 ∧
      fieldF32 p.payload 4 = some x ∧ 1 / 10 ≤ x ∧ x ≤ 1000 ∧ chanBound u (fieldByte p.payload 0) = false)
    (fun _ p u =>
      let i := chanOf u (fieldByte p.payload 0)
      { status := 1
        result := leBytes 1 (fieldByte p.payload 0) ++ leBytes 1 1 ++ leBytes 1 i.cfg.depth ++
          leBytes 1 (if i.dcFrozen then 2 else if i.cfg.dcOn then 1 else 0) ++ f32Bytes i.cfg.tauDc ++ f32Bytes i.dcMean ++
          leBytes 1 i.up.unsettled ++ zeros 3
        state := defer (.filter (fieldByte p.payload 0) (fieldByte p.payload 2) (fieldByte p.payload 3) x) u })) ∧
  Answers .complianceCheck 0x0707 complianceCheckSpec
    (fun _ p u => fieldByte p.payload 1 = 0 ∧ fieldByte p.payload 0 ≤ 127 ∧ 0 < fieldNat p.payload 2 2 ∧
      fieldNat p.payload 2 2 ≤ 48000 ∧ (chanOf u (fieldByte p.payload 0)).cfg.mode = 1 ∧
      checkAllowed u (fieldByte p.payload 0) = true ∧ u.check = none)
    (fun k p u =>
      let c : CheckSt :=
        { ch := fieldByte p.payload 0, trial := false, iTest := fieldNat p.payload 2 2, trialMs := fieldNat p.payload 4 2,
          since := u.mono, task := taskOf k p }
      { status := 2
        state := onIsl (fieldByte p.payload 0) (fun i => { i with checkDrive := some 8000, checkBack := 0 }) { u with check := some c } })

/-- Results of the commands of GNSS and time, in the forms named: GNSS_STATUS, GNSS_CORRECTIONS, INTEGRITY_REPORT and
TIME_GET answer their blocks; GNSS_RAW of the newest epoch answers its header and the entries asked for; GNSS_MODE,
TIME_SOURCE, PTP_CONFIG of a port and PPS_CONFIG of an output within their ranges answer DEFERRED; TX_STAMP_READ answers the
oldest stamps and removes them. It rests on R91, R94, R120, R122, of which it states what is said here. -/
def Obligations.GnssAndTimeCommandsAnswer : Prop :=
  Answers .gnssStatus 0x0801 gnssStatusSpec (fun _ _ _ => True)
    (fun _ _ u => { status := 0, result := gnssStatusResult u, state := u }) ∧
  (∀ r : EpochRes, Answers .gnssRaw 0x0802 gnssRawSpec
    (fun _ p u => fieldNat p.payload 0 4 = 0 ∧ u.gnss.held.head? = some r ∧
      1 ≤ fieldByte p.payload 5 ∧ fieldByte p.payload 5 ≤ 101 ∧ fieldByte p.payload 4 ≤ r.obs.length)
    (fun _ p u =>
      let es := ((r.obs.drop (fieldByte p.payload 4)).filter (fun o => (fieldByte p.payload 6).testBit o.1.antenna)).take
        (fieldByte p.payload 5)
      { status := 0, result := epochHeader r (fieldByte p.payload 4) es.length ++ (es.map obsBytes).flatten, state := u })) ∧
  Answers .gnssCorrections 0x0803 gnssCorrectionsSpec (fun _ p _ => fieldByte p.payload 0 = 0)
    (fun _ _ u => { status := 0, result := correctionsResult u, state := u }) ∧
  Answers .gnssMode 0x0804 gnssModeSpec
    (fun _ p _ => fieldByte p.payload 0 = 1 ∧ fieldByte p.payload 1 ≤ 3 ∧ 1 ≤ fieldByte p.payload 2 ∧ fieldByte p.payload 2 ≤ 6 ∧
      [1, 2, 5, 10, 20].contains (fieldByte p.payload 3) = true ∧ fieldByte p.payload 4 ≤ 30)
    (fun _ p u =>
      { status := 1, result := gnssModeResult 1 u
        state := defer (.gnssMode (fieldByte p.payload 1) (fieldByte p.payload 2) (fieldByte p.payload 3) (fieldByte p.payload 4)
          (fieldByte p.payload 5)) u }) ∧
  Answers .integrityReport 0x0805 integrityReportSpec (fun _ _ _ => True)
    (fun _ _ u => { status := 0, result := integrityResult u, state := u }) ∧
  Answers .timeGet 0x0901 timeGetSpec (fun _ _ _ => True) (fun _ _ u => { status := 0, result := u.host.tmSnap, state := u }) ∧
  Answers .timeSource 0x0902 timeSourceSpec
    (fun _ p _ => fieldByte p.payload 0 = 1 ∧
      orderOk [fieldByte p.payload 2, fieldByte p.payload 3, fieldByte p.payload 4] = true)
    (fun _ p u =>
      { status := 1, result := timeSourceResult u
        state := defer (.timeSource (fieldByte p.payload 1)
          [fieldByte p.payload 2, fieldByte p.payload 3, fieldByte p.payload 4]) u }) ∧
  Answers .ptpConfig 0x0903 ptpConfigSpec
    (fun _ p _ => fieldByte p.payload 1 = 1 ∧ fieldByte p.payload 0 ≤ 11 ∧ ptpPortOk p.payload = true)
    (fun _ p u =>
      { status := 1, result := ptpConfigResult (fieldByte p.payload 0) 1 u
        state := defer (.ptpPort (fieldByte p.payload 0) (ptpPortOf p.payload)) u }) ∧
  (∀ q : StampQ, Answers .txStampRead 0x0904 txStampReadSpec
    (fun _ p u => fieldByte p.payload 0 ≤ 11 ∧ 1 ≤ fieldByte p.payload 1 ∧ fieldByte p.payload 1 ≤ 16 ∧
      q = u.time.stamps.getD (fieldByte p.payload 0) {})
    (fun _ p u =>
      let out := q.entries.take (fieldByte p.payload 1)
      { status := 0
        result := leBytes 1 out.length ++ leBytes 1 (bitN q.ovf 0) ++ leBytes 2 q.drops ++ (out.map stampBytes).flatten
        state := { u with time.stamps := u.time.stamps.modify (fieldByte p.payload 0) (fun y =>
          { y with entries := y.entries.drop (fieldByte p.payload 1), ovf := false, drops := 0 }) } })) ∧
  Answers .ppsConfig 0x0905 ppsConfigSpec
    (fun _ p _ => fieldByte p.payload 1 = 1 ∧ fieldByte p.payload 0 < 2 ∧ fieldByte p.payload 2 = 1 ∧ fieldByte p.payload 3 ≤ 1 ∧
      -1000 ≤ fieldInt p.payload 8 4 ∧ fieldInt p.payload 8 4 ≤ 1000 ∧ 1000 ≤ fieldNat p.payload 4 4 ∧
      fieldNat p.payload 4 4 ≤ 500000000)
    (fun _ p u =>
      { status := 1, result := ppsConfigResult (fieldByte p.payload 0) 1 u
        state := defer (.pps (fieldByte p.payload 0)
          { enable := true, polarity := fieldByte p.payload 3, width := fieldNat p.payload 4 4, offset := fieldInt p.payload 8 4,
            labelPort := fieldByte p.payload 12 }) u })

/-- Results of the commands of the signal box, the consist and the lanes, in the forms named: SAFETY_STATUS, CONSIST_STATUS
and LANE_STATUS answer their blocks; SAFETY_LIMITS_GET answers the entries asked for; PROOF_STATUS without a proof and
without a validity answers that; ROLL_CALL to check begins one; TRANSFER_LEAD with a ready Layover and LANE_REINTEGRATE
answer DEFERRED. It rests on R327, R341, R357, R360, of which it states what is said here. -/
def Obligations.SafetyAndConsistCommandsAnswer : Prop :=
  Answers .safetyStatus 0x0A01 safetyStatusSpec (fun _ _ _ => True)
    (fun _ _ u =>
      { status := 0, state := u
        result := ((mirrorRegs u.sb.mirror).map (leBytes 4)).flatten ++ leBytes 1 (maskBools u.sb.mirror.present.list) ++ zeros 3 }) ∧
  Answers .safetyLimitsGet 0x0A02 safetyLimitsGetSpec
    (fun _ p u => fieldByte p.payload 0 ≤ 3 ∧ fieldByte p.payload 0 ≠ 0 ∧ 1 ≤ fieldByte p.payload 2 ∧ fieldByte p.payload 2 ≤ 128 ∧
      fieldByte p.payload 1 + fieldByte p.payload 2 ≤ (limitsSection u (fieldByte p.payload 0)).length)
    (fun _ p u =>
      { status := 0, state := u
        result := leBytes 1 (fieldByte p.payload 2) ++ zeros 3 ++
          (((limitsSection u (fieldByte p.payload 0)).drop (fieldByte p.payload 1)).take (fieldByte p.payload 2)).flatten }) ∧
  Answers .proofStatus 0x0A03 proofStatusSpec (fun _ _ u => u.sb.proofDone = false ∧ u.sb.limits.proofH = 0)
    (fun _ _ u =>
      let b := u.sb
      { status := 0, state := u
        result := leBytes 4 (sbProofBits b) ++ leBytes 4 0xFFFFFFFF ++ leBytes 4 0xFFFFFFFF ++
          openingBytes u b.esd.openA b.esd.secA b.esd.lastA ++ openingBytes u b.esd.openB b.esd.secB b.esd.lastB ++
          openingBytes u b.en.openA b.en.secA b.en.lastA ++ openingBytes u b.en.openB b.en.secB b.en.lastB ++ zeros 4 }) ∧
  Answers .consistStatus 0x0B01 consistStatusSpec (fun _ _ _ => True)
    (fun _ _ u => { status := 0, result := consistResult u, state := u }) ∧
  Answers .rollCall 0x0B02 rollCallSpec
    (fun _ p u => fieldByte p.payload 0 = 0 ∧ u.cons.rollTask = none)
    (fun k p u =>
      let v : State := { u with cons.rollTask := some (taskOf k p, false), cons.rollAt := some u.mono }
      { status := 2, state := if u.cons.home then { v with cons.rollReq := some 0 } else sendRoll (.rollAsk 0) 0xFF v }) ∧
  Answers .transferLead 0x0B03 transferLeadSpec
    (fun _ p u => fieldByte p.payload 0 = 0 ∧ fieldByte p.payload 1 = 0 ∧ u.cons.phase = 0 ∧
      u.host.deferred.contains .transfer = false ∧ layoverReady u = true ∧ bothRun u = true ∧ u.pow.state = .active)
    (fun _ _ u =>
      { status := 1, result := leBytes 1 u.cons.layover ++ leBytes 1 1 ++ zeros 2 ++ leBytes 4 (effectFrame u)
        state := defer .transfer u }) ∧
  Answers .laneStatus 0x0B04 laneStatusSpec (fun _ _ _ => True)
    (fun _ _ u => { status := 0, result := (lanesAll.map (laneEntry u)).flatten, state := u }) ∧
  Answers .laneReintegrate 0x0B05 laneReintegrateSpec
    (fun _ p u => fieldByte p.payload 1 ≤ 2 ∧ 1 ≤ fieldByte p.payload 0 ∧ fieldByte p.payload 0 ≤ 7 ∧
      laneOpLocked u (fieldByte p.payload 0) (fieldByte p.payload 1) = false)
    (fun _ p u =>
      { status := 1, result := leBytes 1 (laneMask u) ++ leBytes 1 (fieldByte p.payload 0) ++ zeros 2 ++ leBytes 4 (effectFrame u)
        state := defer (.lane (fieldByte p.payload 0) (fieldByte p.payload 1)) u })

/-- Results of the commands of the recorder, the display, the supplies and the timetable, in the forms named: REC_READ_BLOCK
answers the records examined; REC_INFO, DISP_STATUS, POWER_STATUS and TIMETABLE_STATUS answer their blocks; REC_CLEAR in
Ready, Commissioning or Layover begins; a session's first REC_MARK is staged; an update of a host region is queued;
DISP_CONFIG and POWER_MODE answer DEFERRED; TIMETABLE_COUNTERS answers the counters, and with CLEAR they are cleared at the
next boundary, answered OK by the model's choice (assumption 101). It rests on R65, R66, R411, R412, R420, R424, R436, R445,
R446, of which it states what is said here. -/
def Obligations.ServiceCommandsAnswer : Prop :=
  Answers .recReadBlock 0x0C01 recReadBlockSpec
    (fun _ p _ => 1 ≤ fieldByte p.payload 4 ∧ fieldByte p.payload 4 ≤ 63)
    (fun _ p u =>
      let early := seqBefore (fieldNat p.payload 0 4) u.log.first
      let e := examine u (fieldNat p.payload 8 4) 1024 (if early then u.log.first else fieldNat p.payload 0 4)
        (fieldByte p.payload 4) [] false
      { status := 0, state := u
        result := leBytes 4 u.log.first ++ leBytes 4 e.2.1 ++ leBytes 4 (recLast u) ++ leBytes 1 e.1.length ++
          leBytes 1 (bitN early 0 + bitN (seqBefore (recLast u) e.2.1) 1 + bitN e.2.2 2) ++ zeros 2 ++ e.1.flatten }) ∧
  Answers .recInfo 0x0C02 recInfoSpec (fun _ _ _ => True) (fun _ _ u => { status := 0, result := recInfoResult u, state := u }) ∧
  Answers .recClear 0x0C03 recClearSpec
    (fun _ p u => seqBefore (fieldNat p.payload 0 4) (recLast u) = false ∧ u.log.clear = none ∧
      (u.pow.state = .ready ∨ u.pow.state = .commissioning ∨ u.pow.state = .layover))
    (fun k p u => { status := 2, state := { u with log.clear := some { task := taskOf k p, first := u.log.first, last := recLast u } } }) ∧
  (∀ x : Session, Answers .recMark 0x0C04 recMarkSpec
    (fun k _ u => u.host.sessions.getD k none = some x ∧ x.marks = [] ∧ u.log.staged.length + u.log.early.length < stageCap)
    (fun k p u =>
      { status := 0, result := leBytes 4 u.log.seqNext ++ leBytes 8 u.time.sec ++ leBytes 4 u.time.ns
        state := onSession k (fun y => { y with marks := [u.tt.frame] })
          (logJ 14 1 (leBytes 1 k ++ leBytes 2 (fieldNat p.payload 0 2) ++ (p.payload.drop 4).take 32) u) })) ∧
  Answers .dispRegionWrite 0x0D01 dispRegionWriteSpec
    (fun _ p u => fieldByte p.payload 0 ≤ 15 ∧ fieldNat p.payload 2 2 ≤ 6000 ∧ (regionCfg u (fieldByte p.payload 0)).source = 1 ∧
      fieldNat p.payload 4 2 = (segmentsOf (regionCfg u (fieldByte p.payload 0))).length)
    (fun k p u =>
      let d : DispUpd :=
        { bits := updateBits (regionCfg u (fieldByte p.payload 0)) (p.payload.drop 8), hold := fieldNat p.payload 2 2, task := taskOf k p }
      { status := 2
        state := onRegion (fieldByte p.payload 0) (fun x => { x with queued := some d }) (supersede (fieldByte p.payload 0) u) }) ∧
  Answers .dispStatus 0x0D02 dispStatusSpec (fun _ _ _ => True)
    (fun _ _ u => { status := 0, result := dispStatusResult u, state := u }) ∧
  Answers .dispConfig 0x0D03 dispConfigSpec
    (fun _ p _ => fieldByte p.payload 0 = 1 ∧ fieldByte p.payload 1 ≤ 1 ∧ fieldByte p.payload 4 ≤ 1 ∧
      -500 ≤ fieldInt p.payload 2 2 ∧ fieldInt p.payload 2 2 ≤ 500)
    (fun _ p u =>
      { status := 1, result := dispConfigResult u 1 (effectFrame u)
        state := defer (.dispCfg 1 (fieldByte p.payload 1) (fieldInt p.payload 2 2) (fieldByte p.payload 4)) u }) ∧
  Answers .powerStatus 0x0E01 powerStatusSpec (fun _ _ _ => True)
    (fun _ _ u => { status := 0, result := u.host.pwSnap, state := u }) ∧
  Answers .powerMode 0x0E02 powerModeSpec
    (fun _ p u => 1 ≤ fieldByte p.payload 0 ∧ fieldByte p.payload 0 ≤ 4 ∧ powerAlready u (fieldByte p.payload 0) = false ∧
      powerAllowed u (fieldByte p.payload 0) = true)
    (fun _ p u =>
      { status := 1, result := leBytes 1 u.pow.state.code ++ leBytes 1 (powerTarget (fieldByte p.payload 0)) ++ zeros 2 ++
          leBytes 4 (effectFrame u)
        state := defer (.power (fieldByte p.payload 0)) u }) ∧
  Answers .timetableStatus 0x0F01 timetableStatusSpec (fun _ _ _ => True)
    (fun _ _ u => { status := 0, result := timetableStatusResult u, state := u }) ∧
  Answers .timetableCounters 0x0F02 timetableCountersSpec (fun _ p _ => (fieldByte p.payload 0).testBit 0 = true)
    (fun _ _ u => { status := 0, result := timetableCountersResult u, state := defer .counters u })

/-! ### Reset, and rules stated whole -/

/-- The state after reset: no power, nothing in the queue, the MRAM canonical with no byte listed, module time 0 and
INVALID, the receiver's mode AUTO, no role, no session, no lane in service, no island powered, the signal box unpowered with
its contacts open and both lines asserted. Registers that the manual gives no value start at 0 (the model's choice,
assumption 1). -/
def Obligations.ResetLeaves : Prop :=
  memWf State.reset.mram = true ∧ State.reset.mram = [] ∧ State.reset.pending = [] ∧ State.reset.pow.state = .off ∧
  State.reset.time.sec = 0 ∧ State.reset.time.ns = 0 ∧ State.reset.time.state = 0 ∧ State.reset.gnss.sel = 3 ∧
  State.reset.cons.role = .none ∧ State.reset.host.sessions.all (fun x => x.isNone) = true ∧ nServing State.reset = 0 ∧
  State.reset.isl.all (fun i => !i.powered) = true ∧ State.reset.sb.powered = false ∧ SafeOutsideRun State.reset.sb ∧
  State.reset.sb.state = .init ∧ State.reset.host.imgActive = none

/-- Records of a set are ordered by arrival stamp, those of one stamp by link number; a record added keeps its stamp, link
and length and the order of the set. -/
def Obligations.SetsAreOrdered : Prop :=
  ∀ (r : InRecord) (l : List InRecord),
    l.Pairwise (fun x y => x.stampNs < y.stampNs ∨ (x.stampNs = y.stampNs ∧ x.link ≤ y.link)) →
    (insertRec r l).Pairwise (fun x y => x.stampNs < y.stampNs ∨ (x.stampNs = y.stampNs ∧ x.link ≤ y.link)) ∧
    ∀ x, x ∈ insertRec r l ↔ x = r ∨ x ∈ l

/-- wrap180(a) differs from a by a whole multiple of 360° and lies above −180° and up to +180°; 180° and −180° both give
+180°. -/
def Obligations.WrapsToHalfATurn : Prop :=
  (∀ a : Qty, (∃ k : Int, wrap180 a = a + 360 * (k : Qty)) ∧ -180 < wrap180 a ∧ wrap180 a ≤ 180) ∧
  wrap180 180 = 180 ∧ wrap180 (-180) = 180

/-- The transmit stamp queue of a port: when it is full the newest stamp is dropped, OVF is set and the drop count
incremented, and no entry changes; otherwise the new one goes to the end; TX_STAMP_READ returns the oldest entries first and
removes them, returns OVF and the drop count, and clears both. -/
def Obligations.FullStampQueuesDropTheNewest : Prop :=
  (∀ (port : Nat) (e : StampReq) (s : State) (q : StampQ), s.time.stamps[port]? = some q → 16 ≤ q.entries.length →
    (queueStamp port e s).time.stamps[port]? = some { q with ovf := true, drops := sat 16 (q.drops + 1) }) ∧
  (∀ (port : Nat) (e : StampReq) (s : State) (q : StampQ), s.time.stamps[port]? = some q → q.entries.length < 16 →
    ∃ x : StampEntry, x.req = e ∧
      (queueStamp port e s).time.stamps[port]? = some { q with entries := q.entries ++ [x] }) ∧
  ∀ (k : Nat) (p : Packet) (s : State) (q : StampQ), fieldByte p.payload 0 ≤ 11 → 1 ≤ fieldByte p.payload 1 →
    fieldByte p.payload 1 ≤ 16 → s.time.stamps[fieldByte p.payload 0]? = some q →
    (txStampReadSpec.run k p s).status = 0 ∧
    (txStampReadSpec.run k p s).result = leBytes 1 (q.entries.take (fieldByte p.payload 1)).length ++ leBytes 1 (bitN q.ovf 0) ++
      leBytes 2 q.drops ++ ((q.entries.take (fieldByte p.payload 1)).map stampBytes).flatten ∧
    (txStampReadSpec.run k p s).state.time.stamps[fieldByte p.payload 0]? =
      some { entries := q.entries.drop (fieldByte p.payload 1), ovf := false, drops := 0 }
end

