-- ==== Sys2Proof/Laws/State.lean ====
section
/-! SUPPORT. The named updates of the state, one lemma for each field: what each update leaves alone and what it writes. -/

namespace Sys2Proof.Machine

/-! ### setLane -/

@[simp] theorem setLane_mono (s : State) (l : Lane) (v : LaneSt) : (setLane s l v).mono = s.mono := rfl
@[simp] theorem setLane_free (s : State) (l : Lane) (v : LaneSt) : (setLane s l v).free = s.free := rfl
@[simp] theorem setLane_image (s : State) (l : Lane) (v : LaneSt) : (setLane s l v).image = s.image := rfl
@[simp] theorem setLane_mram (s : State) (l : Lane) (v : LaneSt) : (setLane s l v).mram = s.mram := rfl
@[simp] theorem setLane_time (s : State) (l : Lane) (v : LaneSt) : (setLane s l v).time = s.time := rfl
@[simp] theorem setLane_tt (s : State) (l : Lane) (v : LaneSt) : (setLane s l v).tt = s.tt := rfl
@[simp] theorem setLane_inp (s : State) (l : Lane) (v : LaneSt) : (setLane s l v).inp = s.inp := rfl
@[simp] theorem setLane_gnss (s : State) (l : Lane) (v : LaneSt) : (setLane s l v).gnss = s.gnss := rfl
@[simp] theorem setLane_ref (s : State) (l : Lane) (v : LaneSt) : (setLane s l v).ref = s.ref := rfl
@[simp] theorem setLane_fus (s : State) (l : Lane) (v : LaneSt) : (setLane s l v).fus = s.fus := rfl
@[simp] theorem setLane_obs (s : State) (l : Lane) (v : LaneSt) : (setLane s l v).obs = s.obs := rfl
@[simp] theorem setLane_set (s : State) (l : Lane) (v : LaneSt) : (setLane s l v).set = s.set := rfl
@[simp] theorem setLane_ctl (s : State) (l : Lane) (v : LaneSt) : (setLane s l v).ctl = s.ctl := rfl
@[simp] theorem setLane_servoUndo (s : State) (l : Lane) (v : LaneSt) : (setLane s l v).servoUndo = s.servoUndo := rfl
@[simp] theorem setLane_alloc (s : State) (l : Lane) (v : LaneSt) : (setLane s l v).alloc = s.alloc := rfl
@[simp] theorem setLane_isl (s : State) (l : Lane) (v : LaneSt) : (setLane s l v).isl = s.isl := rfl
@[simp] theorem setLane_check (s : State) (l : Lane) (v : LaneSt) : (setLane s l v).check = s.check := rfl
@[simp] theorem setLane_sb (s : State) (l : Lane) (v : LaneSt) : (setLane s l v).sb = s.sb := rfl
@[simp] theorem setLane_lanes (s : State) (l : Lane) (v : LaneSt) : (setLane s l v).lanes = s.lanes.set l v := rfl
@[simp] theorem setLane_jx (s : State) (l : Lane) (v : LaneSt) : (setLane s l v).jx = s.jx := rfl
@[simp] theorem setLane_cons (s : State) (l : Lane) (v : LaneSt) : (setLane s l v).cons = s.cons := rfl
@[simp] theorem setLane_host (s : State) (l : Lane) (v : LaneSt) : (setLane s l v).host = s.host := rfl
@[simp] theorem setLane_log (s : State) (l : Lane) (v : LaneSt) : (setLane s l v).log = s.log := rfl
@[simp] theorem setLane_disp (s : State) (l : Lane) (v : LaneSt) : (setLane s l v).disp = s.disp := rfl
@[simp] theorem setLane_pow (s : State) (l : Lane) (v : LaneSt) : (setLane s l v).pow = s.pow := rfl
@[simp] theorem setLane_pending (s : State) (l : Lane) (v : LaneSt) : (setLane s l v).pending = s.pending := rfl

/-! ### onIsl -/

@[simp] theorem onIsl_mono (ch : Nat) (f : Isl → Isl) (s : State) : (onIsl ch f s).mono = s.mono := rfl
@[simp] theorem onIsl_free (ch : Nat) (f : Isl → Isl) (s : State) : (onIsl ch f s).free = s.free := rfl
@[simp] theorem onIsl_image (ch : Nat) (f : Isl → Isl) (s : State) : (onIsl ch f s).image = s.image := rfl
@[simp] theorem onIsl_mram (ch : Nat) (f : Isl → Isl) (s : State) : (onIsl ch f s).mram = s.mram := rfl
@[simp] theorem onIsl_time (ch : Nat) (f : Isl → Isl) (s : State) : (onIsl ch f s).time = s.time := rfl
@[simp] theorem onIsl_tt (ch : Nat) (f : Isl → Isl) (s : State) : (onIsl ch f s).tt = s.tt := rfl
@[simp] theorem onIsl_inp (ch : Nat) (f : Isl → Isl) (s : State) : (onIsl ch f s).inp = s.inp := rfl
@[simp] theorem onIsl_gnss (ch : Nat) (f : Isl → Isl) (s : State) : (onIsl ch f s).gnss = s.gnss := rfl
@[simp] theorem onIsl_ref (ch : Nat) (f : Isl → Isl) (s : State) : (onIsl ch f s).ref = s.ref := rfl
@[simp] theorem onIsl_fus (ch : Nat) (f : Isl → Isl) (s : State) : (onIsl ch f s).fus = s.fus := rfl
@[simp] theorem onIsl_obs (ch : Nat) (f : Isl → Isl) (s : State) : (onIsl ch f s).obs = s.obs := rfl
@[simp] theorem onIsl_set (ch : Nat) (f : Isl → Isl) (s : State) : (onIsl ch f s).set = s.set := rfl
@[simp] theorem onIsl_ctl (ch : Nat) (f : Isl → Isl) (s : State) : (onIsl ch f s).ctl = s.ctl := rfl
@[simp] theorem onIsl_servoUndo (ch : Nat) (f : Isl → Isl) (s : State) : (onIsl ch f s).servoUndo = s.servoUndo := rfl
@[simp] theorem onIsl_alloc (ch : Nat) (f : Isl → Isl) (s : State) : (onIsl ch f s).alloc = s.alloc := rfl
@[simp] theorem onIsl_isl (ch : Nat) (f : Isl → Isl) (s : State) : (onIsl ch f s).isl = s.isl.modify ch f := rfl
@[simp] theorem onIsl_check (ch : Nat) (f : Isl → Isl) (s : State) : (onIsl ch f s).check = s.check := rfl
@[simp] theorem onIsl_sb (ch : Nat) (f : Isl → Isl) (s : State) : (onIsl ch f s).sb = s.sb := rfl
@[simp] theorem onIsl_lanes (ch : Nat) (f : Isl → Isl) (s : State) : (onIsl ch f s).lanes = s.lanes := rfl
@[simp] theorem onIsl_jx (ch : Nat) (f : Isl → Isl) (s : State) : (onIsl ch f s).jx = s.jx := rfl
@[simp] theorem onIsl_cons (ch : Nat) (f : Isl → Isl) (s : State) : (onIsl ch f s).cons = s.cons := rfl
@[simp] theorem onIsl_host (ch : Nat) (f : Isl → Isl) (s : State) : (onIsl ch f s).host = s.host := rfl
@[simp] theorem onIsl_log (ch : Nat) (f : Isl → Isl) (s : State) : (onIsl ch f s).log = s.log := rfl
@[simp] theorem onIsl_disp (ch : Nat) (f : Isl → Isl) (s : State) : (onIsl ch f s).disp = s.disp := rfl
@[simp] theorem onIsl_pow (ch : Nat) (f : Isl → Isl) (s : State) : (onIsl ch f s).pow = s.pow := rfl
@[simp] theorem onIsl_pending (ch : Nat) (f : Isl → Isl) (s : State) : (onIsl ch f s).pending = s.pending := rfl

/-! ### onSession -/

@[simp] theorem onSession_mono (k : Nat) (f : Session → Session) (s : State) : (onSession k f s).mono = s.mono := rfl
@[simp] theorem onSession_free (k : Nat) (f : Session → Session) (s : State) : (onSession k f s).free = s.free := rfl
@[simp] theorem onSession_image (k : Nat) (f : Session → Session) (s : State) : (onSession k f s).image = s.image := rfl
@[simp] theorem onSession_mram (k : Nat) (f : Session → Session) (s : State) : (onSession k f s).mram = s.mram := rfl
@[simp] theorem onSession_time (k : Nat) (f : Session → Session) (s : State) : (onSession k f s).time = s.time := rfl
@[simp] theorem onSession_tt (k : Nat) (f : Session → Session) (s : State) : (onSession k f s).tt = s.tt := rfl
@[simp] theorem onSession_inp (k : Nat) (f : Session → Session) (s : State) : (onSession k f s).inp = s.inp := rfl
@[simp] theorem onSession_gnss (k : Nat) (f : Session → Session) (s : State) : (onSession k f s).gnss = s.gnss := rfl
@[simp] theorem onSession_ref (k : Nat) (f : Session → Session) (s : State) : (onSession k f s).ref = s.ref := rfl
@[simp] theorem onSession_fus (k : Nat) (f : Session → Session) (s : State) : (onSession k f s).fus = s.fus := rfl
@[simp] theorem onSession_obs (k : Nat) (f : Session → Session) (s : State) : (onSession k f s).obs = s.obs := rfl
@[simp] theorem onSession_set (k : Nat) (f : Session → Session) (s : State) : (onSession k f s).set = s.set := rfl
@[simp] theorem onSession_ctl (k : Nat) (f : Session → Session) (s : State) : (onSession k f s).ctl = s.ctl := rfl
@[simp] theorem onSession_servoUndo (k : Nat) (f : Session → Session) (s : State) : (onSession k f s).servoUndo = s.servoUndo := rfl
@[simp] theorem onSession_alloc (k : Nat) (f : Session → Session) (s : State) : (onSession k f s).alloc = s.alloc := rfl
@[simp] theorem onSession_isl (k : Nat) (f : Session → Session) (s : State) : (onSession k f s).isl = s.isl := rfl
@[simp] theorem onSession_check (k : Nat) (f : Session → Session) (s : State) : (onSession k f s).check = s.check := rfl
@[simp] theorem onSession_sb (k : Nat) (f : Session → Session) (s : State) : (onSession k f s).sb = s.sb := rfl
@[simp] theorem onSession_lanes (k : Nat) (f : Session → Session) (s : State) : (onSession k f s).lanes = s.lanes := rfl
@[simp] theorem onSession_jx (k : Nat) (f : Session → Session) (s : State) : (onSession k f s).jx = s.jx := rfl
@[simp] theorem onSession_cons (k : Nat) (f : Session → Session) (s : State) : (onSession k f s).cons = s.cons := rfl
@[simp] theorem onSession_host (k : Nat) (f : Session → Session) (s : State) : (onSession k f s).host = { s.host with sessions := s.host.sessions.modify k (Option.map f) } := rfl
@[simp] theorem onSession_log (k : Nat) (f : Session → Session) (s : State) : (onSession k f s).log = s.log := rfl
@[simp] theorem onSession_disp (k : Nat) (f : Session → Session) (s : State) : (onSession k f s).disp = s.disp := rfl
@[simp] theorem onSession_pow (k : Nat) (f : Session → Session) (s : State) : (onSession k f s).pow = s.pow := rfl
@[simp] theorem onSession_pending (k : Nat) (f : Session → Session) (s : State) : (onSession k f s).pending = s.pending := rfl

/-! ### onSlot -/

@[simp] theorem onSlot_mono (k tag : Nat) (f : Slot → Slot) (s : State) : (onSlot k tag f s).mono = s.mono := rfl
@[simp] theorem onSlot_free (k tag : Nat) (f : Slot → Slot) (s : State) : (onSlot k tag f s).free = s.free := rfl
@[simp] theorem onSlot_image (k tag : Nat) (f : Slot → Slot) (s : State) : (onSlot k tag f s).image = s.image := rfl
@[simp] theorem onSlot_mram (k tag : Nat) (f : Slot → Slot) (s : State) : (onSlot k tag f s).mram = s.mram := rfl
@[simp] theorem onSlot_time (k tag : Nat) (f : Slot → Slot) (s : State) : (onSlot k tag f s).time = s.time := rfl
@[simp] theorem onSlot_tt (k tag : Nat) (f : Slot → Slot) (s : State) : (onSlot k tag f s).tt = s.tt := rfl
@[simp] theorem onSlot_inp (k tag : Nat) (f : Slot → Slot) (s : State) : (onSlot k tag f s).inp = s.inp := rfl
@[simp] theorem onSlot_gnss (k tag : Nat) (f : Slot → Slot) (s : State) : (onSlot k tag f s).gnss = s.gnss := rfl
@[simp] theorem onSlot_ref (k tag : Nat) (f : Slot → Slot) (s : State) : (onSlot k tag f s).ref = s.ref := rfl
@[simp] theorem onSlot_fus (k tag : Nat) (f : Slot → Slot) (s : State) : (onSlot k tag f s).fus = s.fus := rfl
@[simp] theorem onSlot_obs (k tag : Nat) (f : Slot → Slot) (s : State) : (onSlot k tag f s).obs = s.obs := rfl
@[simp] theorem onSlot_set (k tag : Nat) (f : Slot → Slot) (s : State) : (onSlot k tag f s).set = s.set := rfl
@[simp] theorem onSlot_ctl (k tag : Nat) (f : Slot → Slot) (s : State) : (onSlot k tag f s).ctl = s.ctl := rfl
@[simp] theorem onSlot_servoUndo (k tag : Nat) (f : Slot → Slot) (s : State) : (onSlot k tag f s).servoUndo = s.servoUndo := rfl
@[simp] theorem onSlot_alloc (k tag : Nat) (f : Slot → Slot) (s : State) : (onSlot k tag f s).alloc = s.alloc := rfl
@[simp] theorem onSlot_isl (k tag : Nat) (f : Slot → Slot) (s : State) : (onSlot k tag f s).isl = s.isl := rfl
@[simp] theorem onSlot_check (k tag : Nat) (f : Slot → Slot) (s : State) : (onSlot k tag f s).check = s.check := rfl
@[simp] theorem onSlot_sb (k tag : Nat) (f : Slot → Slot) (s : State) : (onSlot k tag f s).sb = s.sb := rfl
@[simp] theorem onSlot_lanes (k tag : Nat) (f : Slot → Slot) (s : State) : (onSlot k tag f s).lanes = s.lanes := rfl
@[simp] theorem onSlot_jx (k tag : Nat) (f : Slot → Slot) (s : State) : (onSlot k tag f s).jx = s.jx := rfl
@[simp] theorem onSlot_cons (k tag : Nat) (f : Slot → Slot) (s : State) : (onSlot k tag f s).cons = s.cons := rfl
@[simp] theorem onSlot_log (k tag : Nat) (f : Slot → Slot) (s : State) : (onSlot k tag f s).log = s.log := rfl
@[simp] theorem onSlot_disp (k tag : Nat) (f : Slot → Slot) (s : State) : (onSlot k tag f s).disp = s.disp := rfl
@[simp] theorem onSlot_pow (k tag : Nat) (f : Slot → Slot) (s : State) : (onSlot k tag f s).pow = s.pow := rfl
@[simp] theorem onSlot_pending (k tag : Nat) (f : Slot → Slot) (s : State) : (onSlot k tag f s).pending = s.pending := rfl

/-! ### onQueue -/

@[simp] theorem onQueue_mono (q : Nat) (f : QueueSt → QueueSt) (s : State) : (onQueue q f s).mono = s.mono := rfl
@[simp] theorem onQueue_free (q : Nat) (f : QueueSt → QueueSt) (s : State) : (onQueue q f s).free = s.free := rfl
@[simp] theorem onQueue_image (q : Nat) (f : QueueSt → QueueSt) (s : State) : (onQueue q f s).image = s.image := rfl
@[simp] theorem onQueue_mram (q : Nat) (f : QueueSt → QueueSt) (s : State) : (onQueue q f s).mram = s.mram := rfl
@[simp] theorem onQueue_time (q : Nat) (f : QueueSt → QueueSt) (s : State) : (onQueue q f s).time = s.time := rfl
@[simp] theorem onQueue_tt (q : Nat) (f : QueueSt → QueueSt) (s : State) : (onQueue q f s).tt = s.tt := rfl
@[simp] theorem onQueue_inp (q : Nat) (f : QueueSt → QueueSt) (s : State) : (onQueue q f s).inp = s.inp := rfl
@[simp] theorem onQueue_gnss (q : Nat) (f : QueueSt → QueueSt) (s : State) : (onQueue q f s).gnss = s.gnss := rfl
@[simp] theorem onQueue_ref (q : Nat) (f : QueueSt → QueueSt) (s : State) : (onQueue q f s).ref = s.ref := rfl
@[simp] theorem onQueue_fus (q : Nat) (f : QueueSt → QueueSt) (s : State) : (onQueue q f s).fus = s.fus := rfl
@[simp] theorem onQueue_obs (q : Nat) (f : QueueSt → QueueSt) (s : State) : (onQueue q f s).obs = s.obs := rfl
@[simp] theorem onQueue_set (q : Nat) (f : QueueSt → QueueSt) (s : State) : (onQueue q f s).set = s.set := rfl
@[simp] theorem onQueue_ctl (q : Nat) (f : QueueSt → QueueSt) (s : State) : (onQueue q f s).ctl = s.ctl := rfl
@[simp] theorem onQueue_servoUndo (q : Nat) (f : QueueSt → QueueSt) (s : State) : (onQueue q f s).servoUndo = s.servoUndo := rfl
@[simp] theorem onQueue_alloc (q : Nat) (f : QueueSt → QueueSt) (s : State) : (onQueue q f s).alloc = s.alloc := rfl
@[simp] theorem onQueue_isl (q : Nat) (f : QueueSt → QueueSt) (s : State) : (onQueue q f s).isl = s.isl := rfl
@[simp] theorem onQueue_check (q : Nat) (f : QueueSt → QueueSt) (s : State) : (onQueue q f s).check = s.check := rfl
@[simp] theorem onQueue_sb (q : Nat) (f : QueueSt → QueueSt) (s : State) : (onQueue q f s).sb = s.sb := rfl
@[simp] theorem onQueue_lanes (q : Nat) (f : QueueSt → QueueSt) (s : State) : (onQueue q f s).lanes = s.lanes := rfl
@[simp] theorem onQueue_jx (q : Nat) (f : QueueSt → QueueSt) (s : State) : (onQueue q f s).jx = s.jx := rfl
@[simp] theorem onQueue_cons (q : Nat) (f : QueueSt → QueueSt) (s : State) : (onQueue q f s).cons = s.cons := rfl
@[simp] theorem onQueue_host (q : Nat) (f : QueueSt → QueueSt) (s : State) : (onQueue q f s).host = { s.host with queues := s.host.queues.modify q f } := rfl
@[simp] theorem onQueue_log (q : Nat) (f : QueueSt → QueueSt) (s : State) : (onQueue q f s).log = s.log := rfl
@[simp] theorem onQueue_disp (q : Nat) (f : QueueSt → QueueSt) (s : State) : (onQueue q f s).disp = s.disp := rfl
@[simp] theorem onQueue_pow (q : Nat) (f : QueueSt → QueueSt) (s : State) : (onQueue q f s).pow = s.pow := rfl
@[simp] theorem onQueue_pending (q : Nat) (f : QueueSt → QueueSt) (s : State) : (onQueue q f s).pending = s.pending := rfl

/-! ### onImgSlot -/

@[simp] theorem onImgSlot_mono (k : Nat) (f : ImgSlot → ImgSlot) (s : State) : (onImgSlot k f s).mono = s.mono := rfl
@[simp] theorem onImgSlot_free (k : Nat) (f : ImgSlot → ImgSlot) (s : State) : (onImgSlot k f s).free = s.free := rfl
@[simp] theorem onImgSlot_image (k : Nat) (f : ImgSlot → ImgSlot) (s : State) : (onImgSlot k f s).image = s.image := rfl
@[simp] theorem onImgSlot_mram (k : Nat) (f : ImgSlot → ImgSlot) (s : State) : (onImgSlot k f s).mram = s.mram := rfl
@[simp] theorem onImgSlot_time (k : Nat) (f : ImgSlot → ImgSlot) (s : State) : (onImgSlot k f s).time = s.time := rfl
@[simp] theorem onImgSlot_tt (k : Nat) (f : ImgSlot → ImgSlot) (s : State) : (onImgSlot k f s).tt = s.tt := rfl
@[simp] theorem onImgSlot_inp (k : Nat) (f : ImgSlot → ImgSlot) (s : State) : (onImgSlot k f s).inp = s.inp := rfl
@[simp] theorem onImgSlot_gnss (k : Nat) (f : ImgSlot → ImgSlot) (s : State) : (onImgSlot k f s).gnss = s.gnss := rfl
@[simp] theorem onImgSlot_ref (k : Nat) (f : ImgSlot → ImgSlot) (s : State) : (onImgSlot k f s).ref = s.ref := rfl
@[simp] theorem onImgSlot_fus (k : Nat) (f : ImgSlot → ImgSlot) (s : State) : (onImgSlot k f s).fus = s.fus := rfl
@[simp] theorem onImgSlot_obs (k : Nat) (f : ImgSlot → ImgSlot) (s : State) : (onImgSlot k f s).obs = s.obs := rfl
@[simp] theorem onImgSlot_set (k : Nat) (f : ImgSlot → ImgSlot) (s : State) : (onImgSlot k f s).set = s.set := rfl
@[simp] theorem onImgSlot_ctl (k : Nat) (f : ImgSlot → ImgSlot) (s : State) : (onImgSlot k f s).ctl = s.ctl := rfl
@[simp] theorem onImgSlot_servoUndo (k : Nat) (f : ImgSlot → ImgSlot) (s : State) : (onImgSlot k f s).servoUndo = s.servoUndo := rfl
@[simp] theorem onImgSlot_alloc (k : Nat) (f : ImgSlot → ImgSlot) (s : State) : (onImgSlot k f s).alloc = s.alloc := rfl
@[simp] theorem onImgSlot_isl (k : Nat) (f : ImgSlot → ImgSlot) (s : State) : (onImgSlot k f s).isl = s.isl := rfl
@[simp] theorem onImgSlot_check (k : Nat) (f : ImgSlot → ImgSlot) (s : State) : (onImgSlot k f s).check = s.check := rfl
@[simp] theorem onImgSlot_sb (k : Nat) (f : ImgSlot → ImgSlot) (s : State) : (onImgSlot k f s).sb = s.sb := rfl
@[simp] theorem onImgSlot_lanes (k : Nat) (f : ImgSlot → ImgSlot) (s : State) : (onImgSlot k f s).lanes = s.lanes := rfl
@[simp] theorem onImgSlot_jx (k : Nat) (f : ImgSlot → ImgSlot) (s : State) : (onImgSlot k f s).jx = s.jx := rfl
@[simp] theorem onImgSlot_cons (k : Nat) (f : ImgSlot → ImgSlot) (s : State) : (onImgSlot k f s).cons = s.cons := rfl
@[simp] theorem onImgSlot_host (k : Nat) (f : ImgSlot → ImgSlot) (s : State) : (onImgSlot k f s).host = { s.host with slots := s.host.slots.modify k f } := rfl
@[simp] theorem onImgSlot_log (k : Nat) (f : ImgSlot → ImgSlot) (s : State) : (onImgSlot k f s).log = s.log := rfl
@[simp] theorem onImgSlot_disp (k : Nat) (f : ImgSlot → ImgSlot) (s : State) : (onImgSlot k f s).disp = s.disp := rfl
@[simp] theorem onImgSlot_pow (k : Nat) (f : ImgSlot → ImgSlot) (s : State) : (onImgSlot k f s).pow = s.pow := rfl
@[simp] theorem onImgSlot_pending (k : Nat) (f : ImgSlot → ImgSlot) (s : State) : (onImgSlot k f s).pending = s.pending := rfl

/-! ### onRegion -/

@[simp] theorem onRegion_mono (r : Nat) (f : Region → Region) (s : State) : (onRegion r f s).mono = s.mono := rfl
@[simp] theorem onRegion_free (r : Nat) (f : Region → Region) (s : State) : (onRegion r f s).free = s.free := rfl
@[simp] theorem onRegion_image (r : Nat) (f : Region → Region) (s : State) : (onRegion r f s).image = s.image := rfl
@[simp] theorem onRegion_mram (r : Nat) (f : Region → Region) (s : State) : (onRegion r f s).mram = s.mram := rfl
@[simp] theorem onRegion_time (r : Nat) (f : Region → Region) (s : State) : (onRegion r f s).time = s.time := rfl
@[simp] theorem onRegion_tt (r : Nat) (f : Region → Region) (s : State) : (onRegion r f s).tt = s.tt := rfl
@[simp] theorem onRegion_inp (r : Nat) (f : Region → Region) (s : State) : (onRegion r f s).inp = s.inp := rfl
@[simp] theorem onRegion_gnss (r : Nat) (f : Region → Region) (s : State) : (onRegion r f s).gnss = s.gnss := rfl
@[simp] theorem onRegion_ref (r : Nat) (f : Region → Region) (s : State) : (onRegion r f s).ref = s.ref := rfl
@[simp] theorem onRegion_fus (r : Nat) (f : Region → Region) (s : State) : (onRegion r f s).fus = s.fus := rfl
@[simp] theorem onRegion_obs (r : Nat) (f : Region → Region) (s : State) : (onRegion r f s).obs = s.obs := rfl
@[simp] theorem onRegion_set (r : Nat) (f : Region → Region) (s : State) : (onRegion r f s).set = s.set := rfl
@[simp] theorem onRegion_ctl (r : Nat) (f : Region → Region) (s : State) : (onRegion r f s).ctl = s.ctl := rfl
@[simp] theorem onRegion_servoUndo (r : Nat) (f : Region → Region) (s : State) : (onRegion r f s).servoUndo = s.servoUndo := rfl
@[simp] theorem onRegion_alloc (r : Nat) (f : Region → Region) (s : State) : (onRegion r f s).alloc = s.alloc := rfl
@[simp] theorem onRegion_isl (r : Nat) (f : Region → Region) (s : State) : (onRegion r f s).isl = s.isl := rfl
@[simp] theorem onRegion_check (r : Nat) (f : Region → Region) (s : State) : (onRegion r f s).check = s.check := rfl
@[simp] theorem onRegion_sb (r : Nat) (f : Region → Region) (s : State) : (onRegion r f s).sb = s.sb := rfl
@[simp] theorem onRegion_lanes (r : Nat) (f : Region → Region) (s : State) : (onRegion r f s).lanes = s.lanes := rfl
@[simp] theorem onRegion_jx (r : Nat) (f : Region → Region) (s : State) : (onRegion r f s).jx = s.jx := rfl
@[simp] theorem onRegion_cons (r : Nat) (f : Region → Region) (s : State) : (onRegion r f s).cons = s.cons := rfl
@[simp] theorem onRegion_host (r : Nat) (f : Region → Region) (s : State) : (onRegion r f s).host = s.host := rfl
@[simp] theorem onRegion_log (r : Nat) (f : Region → Region) (s : State) : (onRegion r f s).log = s.log := rfl
@[simp] theorem onRegion_disp (r : Nat) (f : Region → Region) (s : State) : (onRegion r f s).disp = { s.disp with regions := s.disp.regions.modify r f } := rfl
@[simp] theorem onRegion_pow (r : Nat) (f : Region → Region) (s : State) : (onRegion r f s).pow = s.pow := rfl
@[simp] theorem onRegion_pending (r : Nat) (f : Region → Region) (s : State) : (onRegion r f s).pending = s.pending := rfl

/-! ### onPeer -/

@[simp] theorem onPeer_mono (k : Nat) (f : Peer → Peer) (s : State) : (onPeer k f s).mono = s.mono := by unfold onPeer; split <;> rfl
@[simp] theorem onPeer_free (k : Nat) (f : Peer → Peer) (s : State) : (onPeer k f s).free = s.free := by unfold onPeer; split <;> rfl
@[simp] theorem onPeer_image (k : Nat) (f : Peer → Peer) (s : State) : (onPeer k f s).image = s.image := by unfold onPeer; split <;> rfl
@[simp] theorem onPeer_mram (k : Nat) (f : Peer → Peer) (s : State) : (onPeer k f s).mram = s.mram := by unfold onPeer; split <;> rfl
@[simp] theorem onPeer_time (k : Nat) (f : Peer → Peer) (s : State) : (onPeer k f s).time = s.time := by unfold onPeer; split <;> rfl
@[simp] theorem onPeer_tt (k : Nat) (f : Peer → Peer) (s : State) : (onPeer k f s).tt = s.tt := by unfold onPeer; split <;> rfl
@[simp] theorem onPeer_inp (k : Nat) (f : Peer → Peer) (s : State) : (onPeer k f s).inp = s.inp := by unfold onPeer; split <;> rfl
@[simp] theorem onPeer_gnss (k : Nat) (f : Peer → Peer) (s : State) : (onPeer k f s).gnss = s.gnss := by unfold onPeer; split <;> rfl
@[simp] theorem onPeer_ref (k : Nat) (f : Peer → Peer) (s : State) : (onPeer k f s).ref = s.ref := by unfold onPeer; split <;> rfl
@[simp] theorem onPeer_fus (k : Nat) (f : Peer → Peer) (s : State) : (onPeer k f s).fus = s.fus := by unfold onPeer; split <;> rfl
@[simp] theorem onPeer_obs (k : Nat) (f : Peer → Peer) (s : State) : (onPeer k f s).obs = s.obs := by unfold onPeer; split <;> rfl
@[simp] theorem onPeer_set (k : Nat) (f : Peer → Peer) (s : State) : (onPeer k f s).set = s.set := by unfold onPeer; split <;> rfl
@[simp] theorem onPeer_ctl (k : Nat) (f : Peer → Peer) (s : State) : (onPeer k f s).ctl = s.ctl := by unfold onPeer; split <;> rfl
@[simp] theorem onPeer_servoUndo (k : Nat) (f : Peer → Peer) (s : State) : (onPeer k f s).servoUndo = s.servoUndo := by unfold onPeer; split <;> rfl
@[simp] theorem onPeer_alloc (k : Nat) (f : Peer → Peer) (s : State) : (onPeer k f s).alloc = s.alloc := by unfold onPeer; split <;> rfl
@[simp] theorem onPeer_isl (k : Nat) (f : Peer → Peer) (s : State) : (onPeer k f s).isl = s.isl := by unfold onPeer; split <;> rfl
@[simp] theorem onPeer_check (k : Nat) (f : Peer → Peer) (s : State) : (onPeer k f s).check = s.check := by unfold onPeer; split <;> rfl
@[simp] theorem onPeer_sb (k : Nat) (f : Peer → Peer) (s : State) : (onPeer k f s).sb = s.sb := by unfold onPeer; split <;> rfl
@[simp] theorem onPeer_lanes (k : Nat) (f : Peer → Peer) (s : State) : (onPeer k f s).lanes = s.lanes := by unfold onPeer; split <;> rfl
@[simp] theorem onPeer_jx (k : Nat) (f : Peer → Peer) (s : State) : (onPeer k f s).jx = s.jx := by unfold onPeer; split <;> rfl
@[simp] theorem onPeer_host (k : Nat) (f : Peer → Peer) (s : State) : (onPeer k f s).host = s.host := by unfold onPeer; split <;> rfl
@[simp] theorem onPeer_log (k : Nat) (f : Peer → Peer) (s : State) : (onPeer k f s).log = s.log := by unfold onPeer; split <;> rfl
@[simp] theorem onPeer_disp (k : Nat) (f : Peer → Peer) (s : State) : (onPeer k f s).disp = s.disp := by unfold onPeer; split <;> rfl
@[simp] theorem onPeer_pow (k : Nat) (f : Peer → Peer) (s : State) : (onPeer k f s).pow = s.pow := by unfold onPeer; split <;> rfl
@[simp] theorem onPeer_pending (k : Nat) (f : Peer → Peer) (s : State) : (onPeer k f s).pending = s.pending := by unfold onPeer; split <;> rfl

/-! ### onUnit -/

@[simp] theorem onUnit_mono (sensor : Bool) (i : Nat) (f : RefUnit → RefUnit) (s : State) : (onUnit sensor i f s).mono = s.mono := by cases sensor <;> rfl
@[simp] theorem onUnit_free (sensor : Bool) (i : Nat) (f : RefUnit → RefUnit) (s : State) : (onUnit sensor i f s).free = s.free := by cases sensor <;> rfl
@[simp] theorem onUnit_image (sensor : Bool) (i : Nat) (f : RefUnit → RefUnit) (s : State) : (onUnit sensor i f s).image = s.image := by cases sensor <;> rfl
@[simp] theorem onUnit_mram (sensor : Bool) (i : Nat) (f : RefUnit → RefUnit) (s : State) : (onUnit sensor i f s).mram = s.mram := by cases sensor <;> rfl
@[simp] theorem onUnit_time (sensor : Bool) (i : Nat) (f : RefUnit → RefUnit) (s : State) : (onUnit sensor i f s).time = s.time := by cases sensor <;> rfl
@[simp] theorem onUnit_tt (sensor : Bool) (i : Nat) (f : RefUnit → RefUnit) (s : State) : (onUnit sensor i f s).tt = s.tt := by cases sensor <;> rfl
@[simp] theorem onUnit_inp (sensor : Bool) (i : Nat) (f : RefUnit → RefUnit) (s : State) : (onUnit sensor i f s).inp = s.inp := by cases sensor <;> rfl
@[simp] theorem onUnit_gnss (sensor : Bool) (i : Nat) (f : RefUnit → RefUnit) (s : State) : (onUnit sensor i f s).gnss = s.gnss := by cases sensor <;> rfl
@[simp] theorem onUnit_fus (sensor : Bool) (i : Nat) (f : RefUnit → RefUnit) (s : State) : (onUnit sensor i f s).fus = s.fus := by cases sensor <;> rfl
@[simp] theorem onUnit_obs (sensor : Bool) (i : Nat) (f : RefUnit → RefUnit) (s : State) : (onUnit sensor i f s).obs = s.obs := by cases sensor <;> rfl
@[simp] theorem onUnit_set (sensor : Bool) (i : Nat) (f : RefUnit → RefUnit) (s : State) : (onUnit sensor i f s).set = s.set := by cases sensor <;> rfl
@[simp] theorem onUnit_ctl (sensor : Bool) (i : Nat) (f : RefUnit → RefUnit) (s : State) : (onUnit sensor i f s).ctl = s.ctl := by cases sensor <;> rfl
@[simp] theorem onUnit_servoUndo (sensor : Bool) (i : Nat) (f : RefUnit → RefUnit) (s : State) : (onUnit sensor i f s).servoUndo = s.servoUndo := by cases sensor <;> rfl
@[simp] theorem onUnit_alloc (sensor : Bool) (i : Nat) (f : RefUnit → RefUnit) (s : State) : (onUnit sensor i f s).alloc = s.alloc := by cases sensor <;> rfl
@[simp] theorem onUnit_isl (sensor : Bool) (i : Nat) (f : RefUnit → RefUnit) (s : State) : (onUnit sensor i f s).isl = s.isl := by cases sensor <;> rfl
@[simp] theorem onUnit_check (sensor : Bool) (i : Nat) (f : RefUnit → RefUnit) (s : State) : (onUnit sensor i f s).check = s.check := by cases sensor <;> rfl
@[simp] theorem onUnit_sb (sensor : Bool) (i : Nat) (f : RefUnit → RefUnit) (s : State) : (onUnit sensor i f s).sb = s.sb := by cases sensor <;> rfl
@[simp] theorem onUnit_lanes (sensor : Bool) (i : Nat) (f : RefUnit → RefUnit) (s : State) : (onUnit sensor i f s).lanes = s.lanes := by cases sensor <;> rfl
@[simp] theorem onUnit_jx (sensor : Bool) (i : Nat) (f : RefUnit → RefUnit) (s : State) : (onUnit sensor i f s).jx = s.jx := by cases sensor <;> rfl
@[simp] theorem onUnit_cons (sensor : Bool) (i : Nat) (f : RefUnit → RefUnit) (s : State) : (onUnit sensor i f s).cons = s.cons := by cases sensor <;> rfl
@[simp] theorem onUnit_host (sensor : Bool) (i : Nat) (f : RefUnit → RefUnit) (s : State) : (onUnit sensor i f s).host = s.host := by cases sensor <;> rfl
@[simp] theorem onUnit_log (sensor : Bool) (i : Nat) (f : RefUnit → RefUnit) (s : State) : (onUnit sensor i f s).log = s.log := by cases sensor <;> rfl
@[simp] theorem onUnit_disp (sensor : Bool) (i : Nat) (f : RefUnit → RefUnit) (s : State) : (onUnit sensor i f s).disp = s.disp := by cases sensor <;> rfl
@[simp] theorem onUnit_pow (sensor : Bool) (i : Nat) (f : RefUnit → RefUnit) (s : State) : (onUnit sensor i f s).pow = s.pow := by cases sensor <;> rfl
@[simp] theorem onUnit_pending (sensor : Bool) (i : Nat) (f : RefUnit → RefUnit) (s : State) : (onUnit sensor i f s).pending = s.pending := by cases sensor <;> rfl

/-! ### onVoting -/

@[simp] theorem onVoting_mono (id : Nat) (f : Voting → Voting) (s : State) : (onVoting id f s).mono = s.mono := rfl
@[simp] theorem onVoting_free (id : Nat) (f : Voting → Voting) (s : State) : (onVoting id f s).free = s.free := rfl
@[simp] theorem onVoting_image (id : Nat) (f : Voting → Voting) (s : State) : (onVoting id f s).image = s.image := rfl
@[simp] theorem onVoting_mram (id : Nat) (f : Voting → Voting) (s : State) : (onVoting id f s).mram = s.mram := rfl
@[simp] theorem onVoting_time (id : Nat) (f : Voting → Voting) (s : State) : (onVoting id f s).time = s.time := rfl
@[simp] theorem onVoting_tt (id : Nat) (f : Voting → Voting) (s : State) : (onVoting id f s).tt = s.tt := rfl
@[simp] theorem onVoting_inp (id : Nat) (f : Voting → Voting) (s : State) : (onVoting id f s).inp = s.inp := rfl
@[simp] theorem onVoting_gnss (id : Nat) (f : Voting → Voting) (s : State) : (onVoting id f s).gnss = s.gnss := rfl
@[simp] theorem onVoting_ref (id : Nat) (f : Voting → Voting) (s : State) : (onVoting id f s).ref = s.ref := rfl
@[simp] theorem onVoting_fus (id : Nat) (f : Voting → Voting) (s : State) : (onVoting id f s).fus = s.fus := rfl
@[simp] theorem onVoting_obs (id : Nat) (f : Voting → Voting) (s : State) : (onVoting id f s).obs = s.obs := rfl
@[simp] theorem onVoting_set (id : Nat) (f : Voting → Voting) (s : State) : (onVoting id f s).set = s.set := rfl
@[simp] theorem onVoting_ctl (id : Nat) (f : Voting → Voting) (s : State) : (onVoting id f s).ctl = s.ctl := rfl
@[simp] theorem onVoting_servoUndo (id : Nat) (f : Voting → Voting) (s : State) : (onVoting id f s).servoUndo = s.servoUndo := rfl
@[simp] theorem onVoting_alloc (id : Nat) (f : Voting → Voting) (s : State) : (onVoting id f s).alloc = s.alloc := rfl
@[simp] theorem onVoting_isl (id : Nat) (f : Voting → Voting) (s : State) : (onVoting id f s).isl = s.isl := rfl
@[simp] theorem onVoting_check (id : Nat) (f : Voting → Voting) (s : State) : (onVoting id f s).check = s.check := rfl
@[simp] theorem onVoting_sb (id : Nat) (f : Voting → Voting) (s : State) : (onVoting id f s).sb = s.sb := rfl
@[simp] theorem onVoting_lanes (id : Nat) (f : Voting → Voting) (s : State) : (onVoting id f s).lanes = s.lanes := rfl
@[simp] theorem onVoting_jx (id : Nat) (f : Voting → Voting) (s : State) : (onVoting id f s).jx = s.jx := rfl
@[simp] theorem onVoting_cons (id : Nat) (f : Voting → Voting) (s : State) : (onVoting id f s).cons = s.cons := rfl
@[simp] theorem onVoting_log (id : Nat) (f : Voting → Voting) (s : State) : (onVoting id f s).log = s.log := rfl
@[simp] theorem onVoting_disp (id : Nat) (f : Voting → Voting) (s : State) : (onVoting id f s).disp = s.disp := rfl
@[simp] theorem onVoting_pow (id : Nat) (f : Voting → Voting) (s : State) : (onVoting id f s).pow = s.pow := rfl
@[simp] theorem onVoting_pending (id : Nat) (f : Voting → Voting) (s : State) : (onVoting id f s).pending = s.pending := rfl

/-! ### onLink -/

@[simp] theorem onLink_mono (east : Bool) (f : LinkSt → LinkSt) (s : State) : (onLink east f s).mono = s.mono := rfl
@[simp] theorem onLink_free (east : Bool) (f : LinkSt → LinkSt) (s : State) : (onLink east f s).free = s.free := rfl
@[simp] theorem onLink_image (east : Bool) (f : LinkSt → LinkSt) (s : State) : (onLink east f s).image = s.image := rfl
@[simp] theorem onLink_mram (east : Bool) (f : LinkSt → LinkSt) (s : State) : (onLink east f s).mram = s.mram := rfl
@[simp] theorem onLink_time (east : Bool) (f : LinkSt → LinkSt) (s : State) : (onLink east f s).time = s.time := rfl
@[simp] theorem onLink_tt (east : Bool) (f : LinkSt → LinkSt) (s : State) : (onLink east f s).tt = s.tt := rfl
@[simp] theorem onLink_inp (east : Bool) (f : LinkSt → LinkSt) (s : State) : (onLink east f s).inp = s.inp := rfl
@[simp] theorem onLink_gnss (east : Bool) (f : LinkSt → LinkSt) (s : State) : (onLink east f s).gnss = s.gnss := rfl
@[simp] theorem onLink_ref (east : Bool) (f : LinkSt → LinkSt) (s : State) : (onLink east f s).ref = s.ref := rfl
@[simp] theorem onLink_fus (east : Bool) (f : LinkSt → LinkSt) (s : State) : (onLink east f s).fus = s.fus := rfl
@[simp] theorem onLink_obs (east : Bool) (f : LinkSt → LinkSt) (s : State) : (onLink east f s).obs = s.obs := rfl
@[simp] theorem onLink_set (east : Bool) (f : LinkSt → LinkSt) (s : State) : (onLink east f s).set = s.set := rfl
@[simp] theorem onLink_ctl (east : Bool) (f : LinkSt → LinkSt) (s : State) : (onLink east f s).ctl = s.ctl := rfl
@[simp] theorem onLink_servoUndo (east : Bool) (f : LinkSt → LinkSt) (s : State) : (onLink east f s).servoUndo = s.servoUndo := rfl
@[simp] theorem onLink_alloc (east : Bool) (f : LinkSt → LinkSt) (s : State) : (onLink east f s).alloc = s.alloc := rfl
@[simp] theorem onLink_isl (east : Bool) (f : LinkSt → LinkSt) (s : State) : (onLink east f s).isl = s.isl := rfl
@[simp] theorem onLink_check (east : Bool) (f : LinkSt → LinkSt) (s : State) : (onLink east f s).check = s.check := rfl
@[simp] theorem onLink_sb (east : Bool) (f : LinkSt → LinkSt) (s : State) : (onLink east f s).sb = s.sb := rfl
@[simp] theorem onLink_lanes (east : Bool) (f : LinkSt → LinkSt) (s : State) : (onLink east f s).lanes = s.lanes := rfl
@[simp] theorem onLink_jx (east : Bool) (f : LinkSt → LinkSt) (s : State) : (onLink east f s).jx = s.jx := rfl
@[simp] theorem onLink_cons (east : Bool) (f : LinkSt → LinkSt) (s : State) : (onLink east f s).cons = { s.cons with links := s.cons.links.modify (linkNum east) f } := rfl
@[simp] theorem onLink_host (east : Bool) (f : LinkSt → LinkSt) (s : State) : (onLink east f s).host = s.host := rfl
@[simp] theorem onLink_log (east : Bool) (f : LinkSt → LinkSt) (s : State) : (onLink east f s).log = s.log := rfl
@[simp] theorem onLink_disp (east : Bool) (f : LinkSt → LinkSt) (s : State) : (onLink east f s).disp = s.disp := rfl
@[simp] theorem onLink_pow (east : Bool) (f : LinkSt → LinkSt) (s : State) : (onLink east f s).pow = s.pow := rfl
@[simp] theorem onLink_pending (east : Bool) (f : LinkSt → LinkSt) (s : State) : (onLink east f s).pending = s.pending := rfl

/-! ### setBlock -/

@[simp] theorem setBlock_mono (b : BlockFault) (s : State) : (setBlock b s).mono = s.mono := rfl
@[simp] theorem setBlock_free (b : BlockFault) (s : State) : (setBlock b s).free = s.free := rfl
@[simp] theorem setBlock_image (b : BlockFault) (s : State) : (setBlock b s).image = s.image := rfl
@[simp] theorem setBlock_mram (b : BlockFault) (s : State) : (setBlock b s).mram = s.mram := rfl
@[simp] theorem setBlock_time (b : BlockFault) (s : State) : (setBlock b s).time = s.time := rfl
@[simp] theorem setBlock_tt (b : BlockFault) (s : State) : (setBlock b s).tt = s.tt := rfl
@[simp] theorem setBlock_inp (b : BlockFault) (s : State) : (setBlock b s).inp = s.inp := rfl
@[simp] theorem setBlock_gnss (b : BlockFault) (s : State) : (setBlock b s).gnss = s.gnss := rfl
@[simp] theorem setBlock_ref (b : BlockFault) (s : State) : (setBlock b s).ref = s.ref := rfl
@[simp] theorem setBlock_fus (b : BlockFault) (s : State) : (setBlock b s).fus = s.fus := rfl
@[simp] theorem setBlock_obs (b : BlockFault) (s : State) : (setBlock b s).obs = s.obs := rfl
@[simp] theorem setBlock_set (b : BlockFault) (s : State) : (setBlock b s).set = s.set := rfl
@[simp] theorem setBlock_ctl (b : BlockFault) (s : State) : (setBlock b s).ctl = s.ctl := rfl
@[simp] theorem setBlock_servoUndo (b : BlockFault) (s : State) : (setBlock b s).servoUndo = s.servoUndo := rfl
@[simp] theorem setBlock_alloc (b : BlockFault) (s : State) : (setBlock b s).alloc = s.alloc := rfl
@[simp] theorem setBlock_isl (b : BlockFault) (s : State) : (setBlock b s).isl = s.isl := rfl
@[simp] theorem setBlock_check (b : BlockFault) (s : State) : (setBlock b s).check = s.check := rfl
@[simp] theorem setBlock_sb (b : BlockFault) (s : State) : (setBlock b s).sb = s.sb := rfl
@[simp] theorem setBlock_lanes (b : BlockFault) (s : State) : (setBlock b s).lanes = s.lanes := rfl
@[simp] theorem setBlock_cons (b : BlockFault) (s : State) : (setBlock b s).cons = s.cons := rfl
@[simp] theorem setBlock_host (b : BlockFault) (s : State) : (setBlock b s).host = s.host := rfl
@[simp] theorem setBlock_log (b : BlockFault) (s : State) : (setBlock b s).log = s.log := rfl
@[simp] theorem setBlock_disp (b : BlockFault) (s : State) : (setBlock b s).disp = s.disp := rfl
@[simp] theorem setBlock_pow (b : BlockFault) (s : State) : (setBlock b s).pow = s.pow := rfl
@[simp] theorem setBlock_pending (b : BlockFault) (s : State) : (setBlock b s).pending = s.pending := rfl

/-! ### setSupply -/

@[simp] theorem setSupply_mono (i : SupplyIn) (x : Supply) (s : State) : (setSupply i x s).mono = s.mono := by cases i <;> rfl
@[simp] theorem setSupply_free (i : SupplyIn) (x : Supply) (s : State) : (setSupply i x s).free = s.free := by cases i <;> rfl
@[simp] theorem setSupply_image (i : SupplyIn) (x : Supply) (s : State) : (setSupply i x s).image = s.image := by cases i <;> rfl
@[simp] theorem setSupply_mram (i : SupplyIn) (x : Supply) (s : State) : (setSupply i x s).mram = s.mram := by cases i <;> rfl
@[simp] theorem setSupply_time (i : SupplyIn) (x : Supply) (s : State) : (setSupply i x s).time = s.time := by cases i <;> rfl
@[simp] theorem setSupply_tt (i : SupplyIn) (x : Supply) (s : State) : (setSupply i x s).tt = s.tt := by cases i <;> rfl
@[simp] theorem setSupply_inp (i : SupplyIn) (x : Supply) (s : State) : (setSupply i x s).inp = s.inp := by cases i <;> rfl
@[simp] theorem setSupply_gnss (i : SupplyIn) (x : Supply) (s : State) : (setSupply i x s).gnss = s.gnss := by cases i <;> rfl
@[simp] theorem setSupply_ref (i : SupplyIn) (x : Supply) (s : State) : (setSupply i x s).ref = s.ref := by cases i <;> rfl
@[simp] theorem setSupply_fus (i : SupplyIn) (x : Supply) (s : State) : (setSupply i x s).fus = s.fus := by cases i <;> rfl
@[simp] theorem setSupply_obs (i : SupplyIn) (x : Supply) (s : State) : (setSupply i x s).obs = s.obs := by cases i <;> rfl
@[simp] theorem setSupply_set (i : SupplyIn) (x : Supply) (s : State) : (setSupply i x s).set = s.set := by cases i <;> rfl
@[simp] theorem setSupply_ctl (i : SupplyIn) (x : Supply) (s : State) : (setSupply i x s).ctl = s.ctl := by cases i <;> rfl
@[simp] theorem setSupply_servoUndo (i : SupplyIn) (x : Supply) (s : State) : (setSupply i x s).servoUndo = s.servoUndo := by cases i <;> rfl
@[simp] theorem setSupply_alloc (i : SupplyIn) (x : Supply) (s : State) : (setSupply i x s).alloc = s.alloc := by cases i <;> rfl
@[simp] theorem setSupply_isl (i : SupplyIn) (x : Supply) (s : State) : (setSupply i x s).isl = s.isl := by cases i <;> rfl
@[simp] theorem setSupply_check (i : SupplyIn) (x : Supply) (s : State) : (setSupply i x s).check = s.check := by cases i <;> rfl
@[simp] theorem setSupply_sb (i : SupplyIn) (x : Supply) (s : State) : (setSupply i x s).sb = s.sb := by cases i <;> rfl
@[simp] theorem setSupply_lanes (i : SupplyIn) (x : Supply) (s : State) : (setSupply i x s).lanes = s.lanes := by cases i <;> rfl
@[simp] theorem setSupply_jx (i : SupplyIn) (x : Supply) (s : State) : (setSupply i x s).jx = s.jx := by cases i <;> rfl
@[simp] theorem setSupply_cons (i : SupplyIn) (x : Supply) (s : State) : (setSupply i x s).cons = s.cons := by cases i <;> rfl
@[simp] theorem setSupply_host (i : SupplyIn) (x : Supply) (s : State) : (setSupply i x s).host = s.host := by cases i <;> rfl
@[simp] theorem setSupply_log (i : SupplyIn) (x : Supply) (s : State) : (setSupply i x s).log = s.log := by cases i <;> rfl
@[simp] theorem setSupply_disp (i : SupplyIn) (x : Supply) (s : State) : (setSupply i x s).disp = s.disp := by cases i <;> rfl
@[simp] theorem setSupply_pending (i : SupplyIn) (x : Supply) (s : State) : (setSupply i x s).pending = s.pending := by cases i <;> rfl

/-! ### Reading back -/

@[simp] theorem get_set_same {α : Type} (x : Lane3 α) (l : Lane) (v : α) : (x.set l v).get l = v := by cases l <;> rfl

theorem get_set_other {α : Type} (x : Lane3 α) (l k : Lane) (v : α) (h : k ≠ l) : (x.set l v).get k = x.get k := by
  cases l <;> cases k <;> first | rfl | exact absurd rfl h

@[simp] theorem laneOf_setLane_same (s : State) (l : Lane) (v : LaneSt) : laneOf (setLane s l v) l = v := by cases l <;> rfl

theorem laneOf_setLane_other (s : State) (l k : Lane) (v : LaneSt) (h : k ≠ l) : laneOf (setLane s l v) k = laneOf s k :=
  get_set_other s.lanes l k v h

theorem chanOf_onIsl_same (ch : Nat) (f : Isl → Isl) (s : State) (h : ch < s.isl.length) :
    chanOf (onIsl ch f s) ch = f (chanOf s ch) := by
  simp [chanOf, onIsl, List.getD_eq_getElem?_getD, h]

theorem chanOf_onIsl_other (ch k : Nat) (f : Isl → Isl) (s : State) (h : k ≠ ch) : chanOf (onIsl ch f s) k = chanOf s k := by
  have e : ch ≠ k := fun x => h x.symm
  simp [chanOf, onIsl, List.getD_eq_getElem?_getD, e]

end Sys2Proof.Machine
end

