-- ==== Sys2Proof/Tests/Slice0.lean ====
section
/-! SUPPORT. The tests of the model: worked examples of the manual, an ill-formed command for each check, and for every
statement's clause a state and operands that meet its hypotheses together. -/

namespace Sys2Proof.Tests

open Sys2Proof.Machine Sys2Proof.Claims

set_option Elab.async false
set_option maxRecDepth 20000
set_option linter.unreachableTactic false
set_option linter.unusedTactic false
set_option linter.unusedVariables false
set_option linter.unnecessarySeqFocus false

/-! ### The states of the tests -/

def laneUp : LaneSt := { state := .inService, powered := true }

/-- A module in Active, Lead, three lanes in service, a valid module time, its signal box waiting for a reset. -/
def up : State :=
  { mono := 1000000
    pow := { state := .active, railsOk := true }
    lanes := ⟨laneUp, laneUp, laneUp⟩
    time := { running := true, state := 2, sec := 1000 }
    host := { imgActive := some 0 }
    cons := { role := .lead, addr := 1, lead := 1 }
    sb := { powered := true, state := .resetWait } }

/-- The same with one island as given, at channel 0. -/
def ch0 (i : Isl) : State := { up with isl := i :: List.replicate 127 {} }

/-- The same with every PTP port as given. -/
def ptpUp (p : PtpPortSt) : State := { up with time.ptp := List.replicate 12 p, time.ptpClock := { clockType := 1 } }

/-- The same with all that a reset needs, and the end of a reset pulse of the given width. -/
def sbReady (width : Nat) : State :=
  { up with
    sb := { powered := true, state := .resetWait, esd := { a := true, b := true }, en := { a := true, b := true },
            proofDone := true, limitsOk := true, present := ⟨true, true, true⟩, pulseEnd := some width } }

/-- The state that an outcome goes on to. -/
def nextOf (o : Host.Outcome State Fault Refusal) (s : State) : State :=
  match o with
  | .next t => t
  | _ => s

/-- The digits 1 to 9 in ASCII. -/
def bytes9 : List Byte := [49, 50, 51, 52, 53, 54, 55, 56, 57]

/-! ### Packets -/

/-- A session in slot 0, of level MAINTAIN. -/
def sess : Session := { value := 7, authority := 2, slots := [{ tag := 3, done := true }] }

/-- The state with that session open. -/
def withSession (s : State) : State := { s with host.sessions := some sess :: List.replicate 7 none }

/-- The state that the checks of a command's own fields meet, for the first packet of that session. -/
def atFields (p : Packet) (s : State) : State :=
  let s := withSession s
  let v := onSession 0 (fun y => { y with seq := p.sequence, lastAt := s.mono, src := p.src }) s
  if slotless p.opcode then v
  else match takeSlot { sess with seq := p.sequence, lastAt := s.mono, src := p.src }
      { tag := p.tag, opcode := p.opcode, noReply := noReply p, queue := p.queue, sequence := p.sequence } with
    | some y => onSession 0 (fun _ => y) v
    | none => v

/-- A command packet of that session. -/
def pkt (op : Nat) (payload : List Byte) : Packet := { opcode := op, session := 7, sequence := 1, payload }

theorem pkt_taken (spec : OpSpec) (op : Nat) (pl : List Byte) (s : State) (h1 : junctionUp (withSession s) = true)
    (h2 : max (spec.auth (pkt op pl)) (spec.authNow (atFields (pkt op pl) s) (pkt op pl)) ≤ 2)
    (h3 : roleOk spec (atFields (pkt op pl) s) (pkt op pl) = true) (h4 : spec.len (atFields (pkt op pl) s) (pkt op pl) = true)
    (h5 : servedNow (atFields (pkt op pl) s) (pkt op pl) = true) :
    Taken spec (pkt op pl) (withSession s) 0 sess (atFields (pkt op pl) s) where
  up := h1
  inSession := by show (7 : Nat) ≠ 0; decide
  session := by simp [sessionOf, withSession, pkt, sess]; rfl
  newer := by show (0 : Nat) < 1; decide
  state := by
    refine ⟨_, rfl, ?_⟩
    unfold atFields
    by_cases h : slotless (pkt op pl).opcode = true
    · exact .inl ⟨h, by simp only [h, if_true]⟩
    · refine .inr ⟨by simpa using h, ?_⟩
      simp only [h]
      exact ⟨_, rfl, rfl⟩
  queue := by show (0 : Nat) < 32; decide
  flags := by show (0 : Nat) < 4; decide
  source := fun _ _ _ h => by cases h
  authority := h2
  role := h3
  length := h4
  served := h5

/-- The hypotheses of `Answers`, met together. -/
def Reached (op : Nat) (spec : OpSpec) (ok : Nat → Packet → State → Prop) (done : Nat → Packet → State → Done) : Prop :=
  ∃ (p : Packet) (s : State) (k : Nat) (x : Session) (u : State), p.opcode = op ∧ Taken spec p s k x u ∧ ok k p u ∧
    24 + (done k p u).result.length ≤ x.maxPacket ∧ (done k p u).result.length ≤ 4076

theorem reached {op : Nat} {spec : OpSpec} {ok : Nat → Packet → State → Prop} {done : Nat → Packet → State → Done}
    (pl : List Byte) (s : State) (h1 : junctionUp (withSession s) = true)
    (h2 : max (spec.auth (pkt op pl)) (spec.authNow (atFields (pkt op pl) s) (pkt op pl)) ≤ 2)
    (h3 : roleOk spec (atFields (pkt op pl) s) (pkt op pl) = true) (h4 : spec.len (atFields (pkt op pl) s) (pkt op pl) = true)
    (h5 : servedNow (atFields (pkt op pl) s) (pkt op pl) = true) (h6 : ok 0 (pkt op pl) (atFields (pkt op pl) s))
    (h7 : (done 0 (pkt op pl) (atFields (pkt op pl) s)).result.length ≤ 4076) : Reached op spec ok done :=
  ⟨pkt op pl, withSession s, 0, sess, atFields (pkt op pl) s, rfl, pkt_taken spec op pl s h1 h2 h3 h4 h5, h6,
    by show 24 + _ ≤ 4100; omega, h7⟩

theorem test_systemCommandsAnswer_3 : ∃ (p : Packet) (s : State) (j : Nat) (x : Session) (v : State), junctionUp s = true ∧
    p.opcode = 0x0103 ∧ p.session = 0 ∧ p.queue < 32 ∧ p.flags < 4 ∧ (∀ q i n, p.src = .pcie q i n → q = p.queue) ∧
    p.payload.length = 40 ∧ fieldByte p.payload 0 ≤ 2 ∧ fieldByte p.payload 1 ≤ 4 ∧ fieldNat p.payload 2 2 = 0 ∧
    fieldNat p.payload 4 2 = 0 ∧ levelGranted s p = true ∧ sameOpen s (fieldNat p.payload 8 8) p.src = none ∧
    freeSession s = some j ∧ x = newSession s j p ∧ v = { s with
      host.sessions := s.host.sessions.set j (some x)
      host.nonces := s.host.nonces.filter (fun n => decide (s.mono < n.2 + 60000)) } ∧ (openResult v j x).length ≤ 4076 :=
  ⟨{ opcode := 0x0103, payload := zeros 40 }, up, 0, _, _, by decide, rfl, rfl, by decide, by decide,
    (fun _ _ _ h => by cases h), by decide, by decide, by decide, by decide, by decide, by decide +kernel, by decide +kernel,
    by decide +kernel, rfl, rfl, by decide +kernel⟩

/-! ### Worked examples of the manual

Each expected value stands in the chapter named. -/

/-- Chapter 07, R201: half a least significant bit rounds to even. -/
theorem test_wb_half : wb 0x4000 0 = 0 ∧ wb 0xC000 0 = 2 ∧ wb (-0x4000) 0 = 0 := by decide +kernel

/-- Chapter 07, R201: 0.75 × 0.75 + 0.75 × 0.75 saturates on its write-back. -/
theorem test_wb_saturates : wb (accAdd (24576 * 24576) (24576 * 24576)) 0 = 32767 := by decide +kernel

/-- Chapter 03, Table 3-5: 15 ns before the loss, 237 ns after 600 s, 1 µs passed after 1,264 s and not after 1,263 s. -/
theorem test_holdover : let s := fun t : Nat => { up with mono := 1000 * t, time.e0 := 15, time.lostAt := some 0 }
    roundEven (holdEst (s 600)) = 237 ∧ roundEven (holdEst (s 1264)) = 1001 ∧ roundEven (holdEst (s 3000)) = 5568 ∧
      holdEst (s 1263) < 1000 := by decide +kernel

/-- Chapter 12, Table 12-19: the session value of address 1, slot 2, frame 0x0004_1A00. -/
theorem test_session_value : sessionValue { up with tt.frame := 0x00041A00 } 2 = 0x12041A00 ∧ sessionSlot 0x12041A00 = 2 := by decide

/-- Chapter 12, Table 12-19: a result read again answers REPEAT with read count 2. -/
theorem test_result_read_again :
    let d := getResultSpec.run 0 (pkt 0x0105 [0x21, 0, 0, 0])
      { up with host.sessions := [some { slots := [{ tag := 0x21, opcode := 0x0404, status := 1, reads := 1, done := true }] }] }
    d.status = 3 ∧ d.reads = 2 := by decide

/-- Chapter 13, R404 and the example: sequence 651,937 after REC_FIRST 640,000 lies in slot 11,937 at 0x000B_A840. -/
theorem test_recorder_slot : slotAddr (651937 - 640000) = 0x000BA840 := by decide

/-- Chapter 13, Table 13-5: the window words of the hold record. -/
theorem test_recorder_window :
    let b := recBytes 651937 { source := 2, code := 1, lanes := 7, quality := 3, opSec := 41223907, cycles := 212, data := [2, 1] }
    leNat (b.take 4) = 0x0009F2A1 ∧ leNat ((b.drop 4).take 4) = 0x027506E3 ∧ leNat ((b.drop 8).take 4) = 0xD4 ∧
      leNat ((b.drop 24).take 4) = 0x00010203 ∧ leNat ((b.drop 28).take 4) = 0x00010207 ∧ leNat ((b.drop 32).take 4) = 0 := by
  decide

/-- Chapter 02, Table 2-6: association held in all lanes; the frame goes on with the next activity. -/
theorem test_association_held :
    (nextOf (exec (.heldAtSignal 2 ⟨true, true, true⟩) { up with tt.nextAct := 2 }) up).tt.nextAct = 3 := by decide +kernel

/-- Chapter 09, R280: the alarm levels 43,000 and 7,200. -/
theorem test_alarm_level :
    (alarmCause up { state := .regulate, cfg := { alarmHigh := true } }).driven = 43000 ∧
      (alarmCause up { state := .regulate }).driven = 7200 := by decide

/-- Chapter 00, R463: a difference of 180° either way is +180°. -/
theorem test_wrap180 : wrap180 540 = 180 ∧ wrap180 (-180) = 180 ∧ wrap180 181 = -179 := by decide +kernel

/-- Chapter 01, R19: tick 9 is followed by tick 0 of the next frame. -/
theorem test_frame_wraps : (advance { up with tt.tick := 9, tt.frame := 7 }).tt.tick = 0 ∧
    (advance { up with tt.tick := 9, tt.frame := 7 }).tt.frame = 8 := by decide +kernel

/-- Chapter 10, R317: a pulse of 2,000 ms starts RUN, one of 2,001 ms does not. -/
theorem test_reset_pulse :
    (nextOf (exec .resetPulse (sbReady 2000)) up).sb.state = .run ∧
      (nextOf (exec .resetPulse (sbReady 2001)) up).sb.state = .resetWait := by decide +kernel

/-- Chapter 12, R363 and Table 12-2: a datagram from a source outside the list is counted and not answered. -/
theorem test_unlisted_source :
    (nextOf (exec (.commandDatagram 3 (.udp 9 1 47810 false {}))
      { up with image.cmd.ports := List.replicate 12 { service := true, ranges := [(1, 8)] } }) up).host.unlisted = 1 := by
  decide +kernel

/-- The published check values of the CRCs that the manual names, over the digits 1 to 9 (chapter 12 CRC-32C, chapter 11
CRC-64, chapter 04 CRC-24Q). -/
theorem test_crc_check_values :
    crc32c (bytes9) = 0xE3069283 ∧ crc64 bytes9 = 0x995DC9BBDF1939FA ∧ crc24q bytes9 = 0xCDE703 := by decide +kernel

/-- No word of the opcode table spells a command: the table gives no bits. -/
theorem test_no_words (n w : Nat) : decodeTableWord n w = none := rfl

/-- BAR0 is 64 KiB (chapter 12, R380). -/
theorem test_beyond_bar0 : exec (.registerWrite 65536 1) up = .fault (.outsideBar0 65536) := rfl

/-- An empty queue idles (assumption 8). -/
theorem test_idle : step up = .next up := rfl

/-- Of a REF_DISABLE and a REF_ENABLE of one reference in one host service the last applies (R61); alone, a REF_ENABLE of an
enabled reference is OK (R64). -/
theorem test_last_of_two_applies :
    let s : State := { up with image.ref.refs := List.replicate 16 (some {}), ref.refs := List.replicate 16 { enabled := true } }
    let d := (refSetSpec false).run 0 { payload := [0, 3, 0, 0] } s
    let e := (refSetSpec true).run 0 { payload := [0, 3, 0, 0] } d.state
    d.status = 1 ∧ e.status = 1 ∧ effectOrder e.state.host.deferred = [.refSet false 3 true] ∧
      ((refSetSpec true).run 0 { payload := [0, 3, 0, 0] } s).status = 0 := by decide +kernel
/-! ### Ill-formed commands, one for each check -/

theorem test_illFormed_1 : ([.recordArrival { link := 193 },
    .recordArrival { stampNs := 5, doneNs := 4 },
    .recordArrival { data := .rtcm (List.replicate 1030 0) },
    .fastPacketTimeout (64) 1 1,
    .sensorDeviating .heading (25),
    .sensorReadmit .heading (25),
    .refNoData true 24,
    .refNoData false 16,
    .probationEnd (16),
    .periodLost (3),
    .transitEntry (32) 1,
    .transitEntry 1 (4),
    .heldAtSignal (13) ⟨true, true, true⟩,
    .outcomeTimeout (13) .a,
    .persistentHold (9),
    .sourceQualified (4) 1,
    .sourceLost (4),
    .ppsOutPulse (2),
    .ppsInEdge (1000000000),
    .ptpMessage (12) {},
    .ptpAnnounceTimeout (12),
    .txStampQueued (12) {},
    .snapLatch (2 ^ 32),
    .timeGet { opcode := 0x0100 }] : List Instr).all (fun c => !c.wf) = true := by decide

theorem test_illFormed_2 : ([.timeSource { opcode := 0x0100 },
    .ptpConfig { opcode := 0x0100 },
    .txStampRead { opcode := 0x0100 },
    .ppsConfig { opcode := 0x0100 },
    .channelStateChange (160) .timeout,
    .rtcmFrame (List.replicate 1030 0),
    .antennaFaultDetect (2) {},
    .antennaRetry (2) true,
    .gnssStatus { opcode := 0x0100 },
    .gnssRaw { opcode := 0x0100 },
    .gnssCorrections { opcode := 0x0100 },
    .gnssMode { opcode := 0x0100 },
    .integrityReport { opcode := 0x0100 },
    .refEnable { opcode := 0x0100 },
    .refDisable { opcode := 0x0100 },
    .refStatus { opcode := 0x0100 },
    .leverArmGet { opcode := 0x0100 },
    .leverArmFreeze { opcode := 0x0100 },
    .trackTableRead { opcode := 0x0100 },
    .fusionStatus { opcode := 0x0100 },
    .gridSnapshot { opcode := 0x0100 },
    .conflictResolve { opcode := 0x0100 },
    .setpointSet { opcode := 0x0100 },
    .loopBankWrite { opcode := 0x0100 }] : List Instr).all (fun c => !c.wf) = true := by decide

theorem test_illFormed_3 : ([.loopBankSwap { opcode := 0x0100 },
    .injectStart { opcode := 0x0100 },
    .captureRead { opcode := 0x0100 },
    .repetitiveCtrl { opcode := 0x0100 },
    .allocStatus { opcode := 0x0100 },
    .thrusterEnable { opcode := 0x0100 },
    .thrusterDisable { opcode := 0x0100 },
    .allocMode { opcode := 0x0100 },
    .attachBodySet { opcode := 0x0100 },
    .applyMarker [128] [],
    .applyMarker [] [128],
    .upstreamSlot [128],
    .linkFault (128),
    .splitAlarm (128),
    .islandSample (128) {},
    .complianceSet (128),
    .complianceClear (128),
    .readbackFault (128),
    .alarmEntry (128),
    .alarmUndeliverable (128),
    .assistedPowerFail (128),
    .linkSlotLossHold (128),
    .holdTimeout (128),
    .energyLow (128)] : List Instr).all (fun c => !c.wf) = true := by decide

theorem test_illFormed_4 : ([.captureTimeout (128),
    .seriesLimitedExpiry (128),
    .decimationOutput (128) 1,
    .overloadSet (128),
    .overloadClear (128),
    .noPulse (128),
    .hartFrameReceived (128) {},
    .hartTransactionEnd (128) {},
    .multidropPoll (128) none,
    .missingRetry (128) 1 none,
    .missingRetry 1 (64) none,
    .configPendingApply (128),
    .chanConfig { opcode := 0x0100 },
    .chanStatus { opcode := 0x0100 },
    .chanRead { opcode := 0x0100 },
    .hartTransact { opcode := 0x0100 },
    .chanCharacteristic { opcode := 0x0100 },
    .filterConfig { opcode := 0x0100 },
    .complianceCheck { opcode := 0x0100 },
    .safetyStatus { opcode := 0x0100 },
    .safetyLimitsGet { opcode := 0x0100 },
    .proofStatus { opcode := 0x0100 },
    .junctionPairDifference 0 1,
    .junctionPairDifference (13 + 1) 1] : List Instr).all (fun c => !c.wf) = true := by decide

theorem test_illFormed_5 : ([.junctionBlockRecovered 0 1,
    .junctionBlockRecovered (13 + 1) 1,
    .ringMessage true { msg := { src := 5 } },
    .ringMessage true { msg := { dst := 5 } },
    .ringMessage true { msg := { cls := 5 } },
    .ringMessage true { msg := { seq := 4294967296 } },
    .ringMessage true { msg := { hops := 256 } },
    .ringMessage true { msg := { payloadLen := 8193 } },
    .heartbeatWord true (4) 1,
    .heartbeatWord true 1 (2 ^ 16),
    .leadLost 0,
    .leadLost (4 + 1),
    .carrierFault (4) 1,
    .carrierFault 1 0,
    .carrierFault 1 (4 + 1),
    .consistStatus { opcode := 0x0100 },
    .rollCall { opcode := 0x0100 },
    .transferLead { opcode := 0x0100 },
    .laneStatus { opcode := 0x0100 },
    .laneReintegrate { opcode := 0x0100 },
    .commandDatagram (12) (.arp 0),
    .relayRecordExpiry (64),
    .sessionTimeout (8),
    .completionReply (8) 1] : List Instr).all (fun c => !c.wf) = true := by decide

theorem test_illFormed_6 : ([.completionReply 1 (2 ^ 16),
    .queueDoorbell (32) 1 {},
    .queueDoorbell 1 (256) {},
    .queueEnable (32) 1,
    .queueEnable 1 (2 ^ 32),
    .completionHeadWrite (32) 1,
    .completionHeadWrite 1 (2 ^ 32),
    .vecPendClear true (2 ^ 32),
    .vecTest (2 ^ 32),
    .registerWrite (65536) 1,
    .registerWrite 1 (2 ^ 32),
    .registerWrite 2 0,
    .ping { opcode := 0x0100 },
    .getIdentity { opcode := 0x0100 },
    .openSession { opcode := 0x0100 },
    .closeSession { opcode := 0x0100 },
    .getResult { opcode := 0x0100 },
    .ackResult { opcode := 0x0100 },
    .getState { opcode := 0x0100 },
    .setMode { opcode := 0x0100 },
    .imageBegin { opcode := 0x0100 },
    .imageChunk { opcode := 0x0100 } true,
    .imageCommit { opcode := 0x0100 },
    .imageInfo { opcode := 0x0100 }] : List Instr).all (fun c => !c.wf) = true := by decide

theorem test_illFormed_7 : ([.timetableStatus { opcode := 0x0100 },
    .timetableCounters { opcode := 0x0100 },
    .recReadBlock { opcode := 0x0100 },
    .recInfo { opcode := 0x0100 },
    .recClear { opcode := 0x0100 },
    .recMark { opcode := 0x0100 },
    .displayFrameStart (65536),
    .regionDead (16),
    .regionHoldEnd (16),
    .dispRegionWrite { opcode := 0x0100 },
    .dispStatus { opcode := 0x0100 },
    .dispConfig { opcode := 0x0100 },
    .supplyChange .pwrA .valid (65536),
    .vbakTest (65536),
    .powerStatus { opcode := 0x0100 },
    .powerMode { opcode := 0x0100 },
    .islandThermalLimit (128),
    .sentenceOverlength (64),
    .ptpMessageTransmit (12) .sync,
    .ping { opcode := 0x0101, tag := 65536 },
    .ping { opcode := 0x0101, queue := 256 },
    .ping { opcode := 0x0101, flags := 256 },
    .ping { opcode := 0x0101, length := 65536 },
    .ping { opcode := 0x0101, session := 4294967296 }] : List Instr).all (fun c => !c.wf) = true := by decide

theorem test_illFormed_8 : ([.ping { opcode := 0x0101, sequence := 4294967296 },
    .ping { opcode := 0x0101, payload := List.replicate 4081 0 },
    .ping { opcode := 65536 }] : List Instr).all (fun c => !c.wf) = true := by decide

theorem test_wellFormed : ([.ping { opcode := 0x0101, payload := List.replicate 4080 0 }, .splitAlarm 127, .registerWrite 65532 0,
    .recordArrival { link := 192 }, .ringMessage true { msg := { dst := 255 } }] : List Instr).all Instr.wf = true := by decide

/-! ### The hypotheses of the statements, met together -/

/-- A transfer of the shortest image, complete and ready to commit into slot 1. -/
def committing : State :=
  { up with
    mram := [(50331648, 0x45), (50331649, 0x5A), (50331650, 0x56), (50331651, 0x49), (50331652, 1), (50331655, 2),
             (50331657, 0x10), (50331760, 0xE8), (50331761, 3)]
    host.transfer := some { slot := 1, length := 4096, next := 4096, digest := List.replicate 32 0 }
    host.commit := some ({}, 0) }

/-- A boundary or ordinary clock of type `t`, with one other master on port 0 of the priority given, another clock. -/
def oneMaster (t priority : Nat) : State :=
  { up with
    time.ptpClock := { clockType := t }
    time.ptp := [{
      cfg := { enable := true }
      foreign := [{ gm := { priority1 := priority, identity := Config.baseMac + 1 }, last := 999900, ok := true }] }] }

/-- The master of that state as its port's best. -/
def itsData (priority : Nat) : PtpData :=
  { gm := { priority1 := priority, identity := Config.baseMac + 1 }, receiver := Config.baseMac, receiverPort := 1 }

theorem oneMaster_port (t p : Nat) : portBest (oneMaster t p) 0 = some (itsData p) := by
  have h : 1000000 < 999900 + announceTimeoutMs { enable := true } := by decide +kernel
  show (List.filter (fun f : ForeignMaster => f.ok && decide (1000000 < f.last + announceTimeoutMs { enable := true }) &&
    decide (f.gm.steps < 255)) [_]).foldl _ none = _
  rw [List.filter_cons_of_pos (by simp [h])]
  rfl

theorem oneMaster_clock (p : Nat) : clockBest (oneMaster 1 p) = some (itsData p) := by
  have e (k : Nat) (h : 0 < k) : ptpOn (oneMaster 1 p) k = false := by
    cases k with
    | zero => cases h
    | succ k => rfl
  have e0 : ptpOn (oneMaster 1 p) 0 = true := rfl
  simp [clockBest, List.range, List.range.loop, e, e0, oneMaster_port]

theorem oneMaster_compare (t p : Nat) :
    comparePtp (ownData (oneMaster t p)) (itsData p) = 2 * firstDecides (lowerBetter 128 p ::
      (List.drop 1 [0, lowerBetter (clockClass (oneMaster t p)) 248, lowerBetter (ownGm (oneMaster t p)).accuracy 254,
        lowerBetter (ownGm (oneMaster t p)).variance 65535, lowerBetter 128 128, lowerBetter Config.baseMac (Config.baseMac + 1)])) := by
  unfold comparePtp
  rw [if_neg (by show Config.baseMac ≠ Config.baseMac + 1; omega)]
  rfl

theorem oneMaster_first : comparePtp (ownData (oneMaster 1 1)) (itsData 1) ≤ 0 := by
  rw [oneMaster_compare]; simp [firstDecides, lowerBetter]

theorem oneMaster_last : 0 < comparePtp (ownData (oneMaster 1 255)) (itsData 255)  := by
  rw [oneMaster_compare]; simp [firstDecides, lowerBetter]

/-- Five satellites that a hot fix keeps, and a module of the role given with a snapshot waiting for it. -/
def hotFive : HotfixIn := { sats := List.replicate 5 { cn0L1 := 32, cn0L5 := 32, obs := { elevation := 90 } } }
def hotState (r : Role) : State :=
  { up with
    cons.role := r
    gnss.hotfix := some 0, gnss.navEph := [(0, 0, 999000)], gnss.snaps := [{ quality := 3 }] }

theorem rangeTest_first (hg : ∀ k b rs c, (Config.gnssSolve k b rs c).test ≤ 1) (s : State) (a sol : Nat) (off : Qty × Qty)
    (pool : List SatObs) : (rangeTest s a sol off pool).1 = 0 := by
  have h : (trial s a sol off pool []).sol.test ≤ 1 := hg _ _ _ _
  simp [rangeTest, h]

theorem hotSolve_five (r : Role) (x : SnapShot) (hg : ∀ k b rs c, (Config.gnssSolve k b rs c).test ≤ 1) :
    ∃ y, hotSolve hotFive x (hotState r) = some y := by
  have h : ((hotFive.sats.filter (hotKept (hotState r))).map (·.obs)).length = 5 := by cases r <;> decide +kernel
  simp [hotSolve, h, rangeTest_first hg]

theorem test_stepTakesTheFront_1 : ∃ (c : Instr) (rest : List Instr) (s : State),
    (s.pending = c :: rest) := by
  refine ⟨.ping {}, [], { State.reset with pending := [.ping {}] }, ?_⟩ <;>
    first | decide +kernel | rfl | exact (fun _ h => nomatch h)

theorem test_stepTakesTheFront_2 : ∃ (s : State),
    (s.pending = []) := by
  refine ⟨State.reset, ?_⟩ <;> first | decide +kernel | rfl | exact (fun _ h => nomatch h)

theorem test_queueDrainsInOrder_1 : ∃ (k : Nat) (s : State) (t : State),
    (Sys2Proof.core.run k s = .next t) := by
  refine ⟨1, { State.reset with pending := [.ping {}] }, State.reset, ?_⟩ <;>
    first | decide +kernel | rfl | exact (fun _ h => nomatch h)

theorem test_commandFrames_1 : ∃ (c : Instr) (s : State) (t : State),
    (exec c s = .next t) := by
  refine ⟨.ping {}, State.reset, State.reset, ?_⟩ <;> first | decide +kernel | rfl | exact (fun _ h => nomatch h)

theorem test_mramStaysCanonical_1 : ∃ (s : State) (t : State),
    (memWf s.mram = true) ∧
    (step s = .next t) := by
  refine ⟨{ State.reset with pending := [.ping {}] }, State.reset, ?_, ?_⟩ <;>
    first | decide +kernel | rfl | exact (fun _ h => nomatch h)

theorem test_onlyWritesBeyondBar0Stop_1 : ∃ (offset : Nat),
    (65536 ≤ offset) := by
  refine ⟨65536, ?_⟩ <;> first | decide +kernel | rfl | exact (fun _ h => nomatch h)

theorem test_onlyWritesBeyondBar0Stop_2 : ∃ (c : Instr),
    ((∀ offset value, c = .registerWrite offset value → offset < 65536)) := by
  refine ⟨.registerWrite 65535 0, ?_⟩ <;> exact fun _ _ h => by injection h; omega

theorem test_memoryReadsWhatWasWritten_1 : ∃ (m : List Host.Cell) (a : Nat) (b : _),
    (memWf m = true) ∧
    (b ≠ a) := by
  refine ⟨[(3, 1)], 5, 7, ?_, ?_⟩ <;> first | decide +kernel | rfl | exact (fun _ h => nomatch h)

theorem test_strobesMoveTime_1 : ∃ (s : State),
    (s.time.running = true) ∧
    (s.time.ns < 1000000000) := by
  refine ⟨up, ?_, ?_⟩ <;> first | decide +kernel | rfl | exact (fun _ h => nomatch h)

theorem test_strobesRun_1 : ∃ (s : State),
    (clockRuns s = true) ∧
    (s.tt.strobeDue = false) ∧
    ((advance s).tt.tick ≠ 0) := by
  refine ⟨up, ?_, ?_, ?_⟩ <;> first | decide +kernel | rfl | exact (fun _ h => nomatch h)

theorem test_strobesRun_2 : ∃ (s : State),
    (clockRuns s = true) ∧
    (s.tt.strobeDue = false) ∧
    ((advance s).tt.tick = 0) := by
  refine ⟨{ up with tt.tick := 9 }, ?_, ?_, ?_⟩ <;> first | decide +kernel | rfl | exact (fun _ h => nomatch h)

theorem test_strobesRun_3 : ∃ (s : State),
    (clockRuns s = true) ∧
    (s.tt.strobeDue = true) := by
  refine ⟨{ up with tt.strobeDue := true }, ?_, ?_⟩ <;> first | decide +kernel | rfl | exact (fun _ h => nomatch h)

theorem test_strobesRun_4 : ∃ (s : State),
    (clockRuns s = true) ∧
    (s.tt.boundaryDue = false) ∧
    (s.tt.tick = 9) := by
  refine ⟨{ up with tt.tick := 9 }, ?_, ?_, ?_⟩ <;> first | decide +kernel | rfl | exact (fun _ h => nomatch h)

theorem test_strobesRun_5 : ∃ (s : State),
    (clockRuns s = true) ∧
    (s.tt.boundaryDue = true) := by
  refine ⟨{ up with tt.boundaryDue := true }, ?_, ?_⟩ <;> first | decide +kernel | rfl | exact (fun _ h => nomatch h)

theorem test_activitiesDoTheirWork_1 : ∃ (s : State),
    (mayRun 2 s = true) ∧
    (works s = true) := by
  refine ⟨{ up with tt.nextAct := 2 }, ?_, ?_⟩ <;> first | decide +kernel | rfl | exact (fun _ h => nomatch h)

theorem test_activitiesDoTheirWork_2 : ∃ (s : State),
    (mayRun 2 s = true) ∧
    (works s = false) := by
  refine ⟨{ up with tt.nextAct := 2, host.imgActive := none }, ?_, ?_⟩ <;>
    first | decide +kernel | rfl | exact (fun _ h => nomatch h)

theorem test_activitiesDoTheirWork_3 : ∃ (s : State),
    (mayRun 3 s = true) ∧
    (works s = true) := by
  refine ⟨{ up with tt.nextAct := 3 }, ?_, ?_⟩ <;> first | decide +kernel | rfl | exact (fun _ h => nomatch h)

theorem test_activitiesDoTheirWork_4 : ∃ (s : State),
    (mayRun 3 s = true) ∧
    (works s = false) := by
  refine ⟨{ up with tt.nextAct := 3, host.imgActive := none }, ?_, ?_⟩ <;>
    first | decide +kernel | rfl | exact (fun _ h => nomatch h)

theorem test_activitiesDoTheirWork_5 : ∃ (s : State),
    (mayRun 4 s = true) ∧
    (works s = true) := by
  refine ⟨{ up with tt.nextAct := 4 }, ?_, ?_⟩ <;> first | decide +kernel | rfl | exact (fun _ h => nomatch h)

theorem test_activitiesDoTheirWork_6 : ∃ (s : State),
    (mayRun 4 s = true) ∧
    (works s = false) := by
  refine ⟨{ up with tt.nextAct := 4, host.imgActive := none }, ?_, ?_⟩ <;>
    first | decide +kernel | rfl | exact (fun _ h => nomatch h)

theorem test_activitiesDoTheirWork_7 : ∃ (s : State),
    (mayRun 5 s = true) ∧
    (works s = true) := by
  refine ⟨{ up with tt.nextAct := 5 }, ?_, ?_⟩ <;> first | decide +kernel | rfl | exact (fun _ h => nomatch h)

theorem test_activitiesDoTheirWork_8 : ∃ (s : State),
    (mayRun 5 s = true) ∧
    (works s = false) := by
  refine ⟨{ up with tt.nextAct := 5, host.imgActive := none }, ?_, ?_⟩ <;>
    first | decide +kernel | rfl | exact (fun _ h => nomatch h)

theorem test_activitiesDoTheirWork_9 : ∃ (s : State),
    (mayRun 6 s = true) ∧
    (works s = true) := by
  refine ⟨{ up with tt.nextAct := 6 }, ?_, ?_⟩ <;> first | decide +kernel | rfl | exact (fun _ h => nomatch h)

theorem test_activitiesDoTheirWork_10 : ∃ (s : State),
    (mayRun 6 s = true) ∧
    (works s = false) := by
  refine ⟨{ up with tt.nextAct := 6, host.imgActive := none }, ?_, ?_⟩ <;>
    first | decide +kernel | rfl | exact (fun _ h => nomatch h)

theorem test_activitiesDoTheirWork_11 : ∃ (s : State),
    (mayRun 7 s = true) ∧
    (works s = true) := by
  refine ⟨{ up with tt.nextAct := 7 }, ?_, ?_⟩ <;> first | decide +kernel | rfl | exact (fun _ h => nomatch h)

theorem test_activitiesDoTheirWork_12 : ∃ (s : State),
    (mayRun 7 s = true) ∧
    (works s = false) := by
  refine ⟨{ up with tt.nextAct := 7, host.imgActive := none }, ?_, ?_⟩ <;>
    first | decide +kernel | rfl | exact (fun _ h => nomatch h)

theorem test_activitiesRunInOrder_1 : ∃ (s : State),
    (mayRun 0 s = true) := by
  refine ⟨{ up with tt.nextAct := 0 }, ?_⟩ <;> first | decide +kernel | rfl | exact (fun _ h => nomatch h)

theorem test_activitiesRunInOrder_2 : ∃ (s : State),
    (mayRun 1 s = true) := by
  refine ⟨{ up with tt.nextAct := 1 }, ?_⟩ <;> first | decide +kernel | rfl | exact (fun _ h => nomatch h)

theorem test_activitiesRunInOrder_3 : ∃ (s : State),
    (mayRun 2 s = true) := by
  refine ⟨{ up with tt.nextAct := 2 }, ?_⟩ <;> first | decide +kernel | rfl | exact (fun _ h => nomatch h)

theorem test_activitiesRunInOrder_4 : ∃ (s : State),
    (mayRun 3 s = true) := by
  refine ⟨{ up with tt.nextAct := 3 }, ?_⟩ <;> first | decide +kernel | rfl | exact (fun _ h => nomatch h)

theorem test_activitiesRunInOrder_5 : ∃ (s : State),
    (mayRun 4 s = true) := by
  refine ⟨{ up with tt.nextAct := 4 }, ?_⟩ <;> first | decide +kernel | rfl | exact (fun _ h => nomatch h)

theorem test_activitiesRunInOrder_6 : ∃ (s : State),
    (mayRun 5 s = true) := by
  refine ⟨{ up with tt.nextAct := 5 }, ?_⟩ <;> first | decide +kernel | rfl | exact (fun _ h => nomatch h)

theorem test_activitiesRunInOrder_7 : ∃ (s : State),
    (mayRun 6 s = true) := by
  refine ⟨{ up with tt.nextAct := 6 }, ?_⟩ <;> first | decide +kernel | rfl | exact (fun _ h => nomatch h)

theorem test_activitiesRunInOrder_8 : ∃ (s : State),
    (mayRun 7 s = true) := by
  refine ⟨{ up with tt.nextAct := 7 }, ?_⟩ <;> first | decide +kernel | rfl | exact (fun _ h => nomatch h)

theorem test_inputsAreGathered_1 : ∃ (err : Lane3 Nat) (s : State),
    (mayRun 0 s = true) ∧
    ((agreeOn .frame s.inp.fdig err s).1 = true) := by
  refine ⟨⟨0, 0, 0⟩, { up with tt.nextAct := 0 }, ?_, ?_⟩ <;> first | decide +kernel | rfl | exact (fun _ h => nomatch h)

theorem test_inputsAreGathered_2 : ∃ (err : Lane3 Nat) (s : State),
    (mayRun 0 s = true) ∧
    ((agreeOn .frame s.inp.fdig err s).1 = false) := by
  refine ⟨⟨1, 2, 3⟩, { up with tt.nextAct := 0 }, ?_, ?_⟩ <;> first | decide +kernel | rfl | exact (fun _ h => nomatch h)

theorem test_inputsAreGathered_3 : ∃ (s : State),
    (mayRun 1 s = true) ∧
    (works s = true) := by
  refine ⟨{ up with tt.nextAct := 1, inp.noSet := true }, ?_, ?_⟩ <;>
    first | decide +kernel | rfl | exact (fun _ h => nomatch h)

theorem test_inputsAreGathered_4 : ∃ (s : State),
    (mayRun 1 s = true) ∧
    (works s = false) := by
  refine ⟨{ up with tt.nextAct := 1, host.imgActive := none }, ?_, ?_⟩ <;>
    first | decide +kernel | rfl | exact (fun _ h => nomatch h)

theorem test_itemActivitiesRun_1 : ∃ (s : State),
    (mayRun 9 s = true) := by
  refine ⟨{ up with tt.nextAct := 9, tt.tick := 4 }, ?_⟩ <;> first | decide +kernel | rfl | exact (fun _ h => nomatch h)

theorem test_itemActivitiesRun_2 : ∃ (rep : Lane3 ItemReport) (n : Nat) (s : State),
    (mayRun 10 s = true) ∧
    (n = (if producerWaits s then 0 else agreedItems rep s)) := by
  refine ⟨⟨{ items := 1 }, { items := 1 }, { items := 1 }⟩, _, { up with tt.nextAct := 10, tt.tick := 4 }, ?_, rfl⟩ <;>
    first | decide +kernel | rfl | exact (fun _ h => nomatch h)

theorem test_itemActivitiesRun_3 : ∃ (s : State),
    (mayRun 11 s = true) := by
  refine ⟨{ up with tt.nextAct := 11, tt.tick := 4 }, ?_⟩ <;> first | decide +kernel | rfl | exact (fun _ h => nomatch h)

theorem test_itemActivitiesRun_4 : ∃ (s : State),
    (mayRun 12 s = true) := by
  refine ⟨{ up with tt.nextAct := 12, tt.tick := 4 }, ?_⟩ <;> first | decide +kernel | rfl | exact (fun _ h => nomatch h)

theorem test_itemActivitiesRun_5 : ∃ (s : State),
    (mayRun 12 s = true) := by
  refine ⟨{ up with tt.nextAct := 12, tt.tick := 4 }, ?_⟩ <;> first | decide +kernel | rfl | exact (fun _ h => nomatch h)

theorem test_holdsAreAgreed_1 : ∃ (act : Nat) (held : Lane3 Bool) (s : State),
    (outcomeOpen act s = true) ∧
    ((serving s).filter held.get ≠ []) := by
  refine ⟨2, ⟨true, false, false⟩, { up with tt.nextAct := 2 }, ?_, ?_⟩ <;>
    first | decide +kernel | rfl | exact (fun _ h => nomatch h)

theorem test_holdsAreAgreed_2 : ∃ (act : Nat) (s : State),
    (outcomeOpen act s = false) := by
  refine ⟨2, { up with tt.nextAct := 3, tt.heldNow := List.replicate 13 true, tt.heldBy := ⟨true, false, false⟩ }, ?_⟩ <;>
    first | decide +kernel | rfl | exact (fun _ h => nomatch h)

theorem test_holdsAreAgreed_3 : ∃ (act : Nat) (lane : Lane) (s : State),
    (outcomeOpen act s = true) ∧
    (inService s lane = true) ∧
    (1 < nServing s) := by
  refine ⟨2, .a, { up with tt.nextAct := 2 }, ?_, ?_, ?_⟩ <;> first | decide +kernel | rfl | exact (fun _ h => nomatch h)

theorem test_holdsAreAgreed_4 : ∃ (act : Nat) (lane : Lane) (s : State),
    (outcomeOpen act s = false) ∧
    (alsoHeld act lane s = true) ∧
    (1 < nServing s) := by
  refine ⟨2, .b, { up with
      tt.nextAct := 3, tt.heldNow := List.replicate 13 true, tt.heldBy := ⟨true, false, false⟩ }, ?_, ?_, ?_⟩ <;>
    first | decide +kernel | rfl | exact (fun _ h => nomatch h)

theorem test_holdsAreAgreed_5 : ∃ (running : Lane3 Bool) (s : State),
    (s.tt.nextAct ≤ 7) ∧
    (s.tt.tick = 3) ∧
    (outcomeOpen s.tt.nextAct s = true) ∧
    ((serving s).filter running.get ≠ []) := by
  refine ⟨⟨true, false, false⟩, { up with tt.nextAct := 7, tt.tick := 3 }, ?_, ?_, ?_, ?_⟩ <;>
    first | decide +kernel | rfl | exact (fun _ h => nomatch h)

theorem test_holdsAreAgreed_6 : ∃ (act : Nat) (s : State),
    (lanesRun s = true) ∧
    (act ≤ 8) ∧
    (10 ≤ s.tt.run.getD act 0) := by
  refine ⟨8, { up with tt.run := List.replicate 13 10 }, ?_, ?_, ?_⟩ <;>
    first | decide +kernel | rfl | exact (fun _ h => nomatch h)

theorem test_waitingWorkIsReleased_1 : ∃ (s : State) (r : List Waiting × List Waiting × List Nat),
    (junctionUp s = true) ∧
    (ringUp s = true) ∧
    (r = releaseClasses (fun _ => true) id 5 s.tt.ringWait s.tt.ringLeft) := by
  refine ⟨{ up with tt.ringWait := [{ cls := 0, bytes := 5, cargo := .factory none }] }, _, ?_, ?_, rfl⟩ <;>
    first | decide +kernel | rfl | exact (fun _ h => nomatch h)

theorem test_waitingWorkIsReleased_2 : ∃ (s : State),
    (ringUp s = false) := by
  refine ⟨{ up with jx.blocks := [{ block := 5, unit := 0, out := true }, { block := 5, unit := 1, out := true }] }, ?_⟩ <;>
    first | decide +kernel | rfl | exact (fun _ h => nomatch h)

theorem test_waitingWorkIsReleased_3 : ∃ (s : State) (r : List Waiting × List Waiting × List Nat),
    (junctionUp s = true) ∧
    (r = releaseClasses (fun _ => true) id 4 s.tt.mramWait s.tt.mramLeft) := by
  refine ⟨{ up with tt.mramWait := [{ cls := 0, bytes := 5, cargo := .factory none }] }, _, ?_, rfl⟩ <;>
    first | decide +kernel | rfl | exact (fun _ h => nomatch h)

theorem test_waitingWorkIsReleased_4 : ∃ (port : Nat) (s : State) (r : List Waiting × List Waiting × List Nat),
    (junctionUp s = true) ∧
    (r = releaseClasses (fun w => w.port == port) (fun c => 6 * port + c) 6 s.tt.egressWait s.tt.egressLeft) := by
  refine ⟨11, { up with tt.egressWait := [{ cls := 0, bytes := 5, cargo := .factory none }] }, _, ?_, rfl⟩ <;>
    first | decide +kernel | rfl | exact (fun _ h => nomatch h)

theorem test_waitingWorkIsReleased_5 : ∃ (s : State),
    (junctionUp s = true) ∧
    (atBoundary s = true) ∧
    (0 < s.host.due) := by
  refine ⟨{ up with host.due := 1, host.deferred := [.counters] }, ?_, ?_, ?_⟩ <;>
    first | decide +kernel | rfl | exact (fun _ h => nomatch h)

theorem test_timeSourcesQualify_1 : ∃ (id : Nat) (s : State),
    (sourceDue s id = true) := by
  refine ⟨2, { up with time.ppsRun := 10, time.order := [2] }, ?_⟩ <;>
    first | decide +kernel | rfl | exact (fun _ h => nomatch h)

theorem test_timeSourcesQualify_2 : ∃ (id : Nat) (s : State),
    (lossDue s id = true) := by
  refine ⟨0, { up with time.srcs := [{ qualified := true, lastGood := some 998000 }, {}, {}, {}] }, ?_⟩ <;>
    first | decide +kernel | rfl | exact (fun _ h => nomatch h)

theorem test_timeSourcesQualify_3 : ∃ (s : State) (due : Nat) (amt : Int),
    (s.time.step = some (due, amt)) ∧
    (due ≤ s.time.sec) := by
  refine ⟨{ up with time.step := some (1000, 1000000) }, 1000, 1000000, ?_, ?_⟩ <;>
    first | decide +kernel | rfl | exact (fun _ h => nomatch h)

theorem test_timeSourcesQualify_4 : ∃ (s : State),
    (s.time.slewing = true) ∧
    (curErr s = 0) := by
  refine ⟨{ up with time.slewing := true }, ?_, ?_⟩ <;> first | decide +kernel | rfl | exact (fun _ h => nomatch h)

theorem test_timeSourcesQualify_5 : ∃ (s : State),
    (s.time.state = 2) ∧
    (s.time.selected = none) ∧
    (1000 ≤ holdEst s) := by
  refine ⟨{ up with time.e0 := 1000, time.lostAt := some 1000000 }, ?_, ?_, ?_⟩ <;>
    first | decide +kernel | rfl | exact (fun _ h => nomatch h)

theorem test_errorsSlewOrStep_1 : ∃ (id : Nat) (s : State) (off : _),
    (s.time.state ≠ 0) ∧
    (s.time.step = none) ∧
    (off = (s.time.srcs.getD id {}).offset) ∧
    (off.natAbs < 1000000) := by
  refine ⟨3, { up with time.srcs := [{}, {}, {}, { offset := -999999 }] }, _, ?_, ?_, rfl, ?_⟩ <;>
    first | decide +kernel | rfl | exact (fun _ h => nomatch h)

theorem test_errorsSlewOrStep_2 : ∃ (id : Nat) (s : State) (off : _),
    (s.time.state ≠ 0) ∧
    (s.time.step = none) ∧
    (off = (s.time.srcs.getD id {}).offset) ∧
    (1000000 ≤ off.natAbs) := by
  refine ⟨3, { up with time.srcs := [{}, {}, {}, { offset := -1000000 }] }, _, ?_, ?_, rfl, ?_⟩ <;>
    first | decide +kernel | rfl | exact (fun _ h => nomatch h)

theorem test_timeEdgesAreTaken_1 : ∃ (s : State),
    (s.time.running = true) := by
  refine ⟨up, ?_⟩ <;> first | decide +kernel | rfl | exact (fun _ h => nomatch h)

theorem test_timeEdgesAreTaken_2 : ∃ (out : Nat) (b : Nat) (s : State),
    (ppsDue s (s.time.ppsOut.getD out {}) = some b) := by
  refine ⟨0, 1000, { up with time.ppsOut := [{ cfg := { enable := true } }, {}] }, ?_⟩ <;>
    first | decide +kernel | rfl | exact (fun _ h => nomatch h)

theorem test_timeEdgesAreTaken_3 : ∃ (ns : Nat) (t : Nat) (good : Bool) (s : State) (u : State) (v : _),
    (s.time.running = true) ∧
    (s.time.ppsInCfg.enable = true) ∧
    (t = (((s.time.sec * 1000000000 + ns : Nat) : Int) - s.time.ppsInCfg.offset).toNat) ∧
    (good = (match s.time.ppsLast with | none => false | some l => decide (l + 999999000 ≤ t ∧ t ≤ l + 1000001000))) ∧
    (u = hearSource 2 { s with
        time.ppsSec := t / 1000000000 % 2 ^ 32, time.ppsNs := t % 1000000000, time.ppsQual := qualityByte s, time.ppsLast :=
        some t }) ∧
    (v = (if !good && !s.time.ppsLast.isNone then loseSource 2 u else u)) ∧
    (s.time.ppsInCfg.labelPort = 255) := by
  refine ⟨500, _, _, { up with
      time.ppsInCfg := { enable := true, labelPort := 255 } }, _, _, ?_, ?_, rfl, rfl, rfl, rfl, ?_⟩ <;>
    first | decide +kernel | rfl | exact (fun _ h => nomatch h)

theorem test_timeEdgesAreTaken_4 : ∃ (ns : Nat) (t : Nat) (good : Bool) (s : State) (u : State) (v : _),
    (s.time.running = true) ∧
    (s.time.ppsInCfg.enable = true) ∧
    (t = (((s.time.sec * 1000000000 + ns : Nat) : Int) - s.time.ppsInCfg.offset).toNat) ∧
    (good = (match s.time.ppsLast with | none => false | some l => decide (l + 999999000 ≤ t ∧ t ≤ l + 1000001000))) ∧
    (u = hearSource 2 { s with
        time.ppsSec := t / 1000000000 % 2 ^ 32, time.ppsNs := t % 1000000000, time.ppsQual := qualityByte s, time.ppsLast :=
        some t }) ∧
    (v = (if !good && !s.time.ppsLast.isNone then loseSource 2 u else u)) ∧
    (s.time.ppsInCfg.labelPort ≠ 255) := by
  refine ⟨500, _, _, { up with time.ppsInCfg := { enable := true, labelPort := 14 } }, _, _, ?_, ?_, rfl, rfl, rfl, rfl, ?_⟩ <;>
    first | decide +kernel | rfl | exact (fun _ h => nomatch h)

theorem test_timeEdgesAreTaken_5 : ∃ (value : Nat),
    (value.testBit 0 = true) := by
  refine ⟨1, ?_⟩ <;> first | decide +kernel | rfl | exact (fun _ h => nomatch h)

theorem test_ptpPortsFollowTheirRoles_1 : ∃ (port : Nat) (m : PtpMsg) (s : State),
    (s.time.running = true) ∧
    (ptpOn s port = true) ∧
    (m.supported = false ∨ ptpKnown m.messageType = false) := by
  refine ⟨11, { supported := false }, ptpUp { cfg := { enable := true } }, ?_, ?_, ?_⟩ <;>
    first | decide +kernel | rfl | exact (fun _ h => nomatch h)

theorem test_ptpPortsFollowTheirRoles_2 : ∃ (port : Nat) (m : PtpMsg) (s : State),
    (s.time.running = true) ∧
    (ptpOn s port = true) ∧
    (m.supported = true) ∧
    (ptpKnown m.messageType = true) ∧
    (m.domain ≠ s.time.ptpClock.domain ∨ m.transport ≠ (s.time.ptp.getD port {}).cfg.transport) := by
  refine ⟨11, { domain := 5 }, ptpUp { cfg := { enable := true } }, ?_, ?_, ?_, ?_, ?_⟩ <;>
    first | decide +kernel | rfl | exact (fun _ h => nomatch h)

theorem test_ptpPortsFollowTheirRoles_3 : ∃ (port : Nat) (m : PtpMsg) (s : State) (u : State),
    (s.time.running = true) ∧
    (ptpOn s port = true) ∧
    (m.supported = true) ∧
    (ptpKnown m.messageType = true) ∧
    (m.domain = s.time.ptpClock.domain) ∧
    (m.transport = (s.time.ptp.getD port {}).cfg.transport) ∧
    (u = ptpRequest port m (if m.messageType = 11 then ptpAnnounce port m s else s)) ∧
    (m.offset = none) := by
  refine ⟨11, { messageType := 11 }, ptpUp { cfg := { enable := true } }, _, ?_, ?_, ?_, ?_, ?_, ?_, rfl, ?_⟩ <;>
    first | decide +kernel | rfl | exact (fun _ h => nomatch h)

theorem test_ptpPortsFollowTheirRoles_4 : ∃ (port : Nat) (m : PtpMsg) (s : State) (u : State) (o : Int),
    (s.time.running = true) ∧
    (ptpOn s port = true) ∧
    (m.supported = true) ∧
    (ptpKnown m.messageType = true) ∧
    (m.domain = s.time.ptpClock.domain) ∧
    (m.transport = (s.time.ptp.getD port {}).cfg.transport) ∧
    (u = ptpRequest port m (if m.messageType = 11 then ptpAnnounce port m s else s)) ∧
    (m.offset = some o) := by
  refine ⟨11, { messageType := 8, offset := some 5 }, ptpUp { cfg := { enable := true } }, _, 5, ?_, ?_, ?_, ?_, ?_, ?_, rfl, ?_⟩ <;>
    first | decide +kernel | rfl | exact (fun _ h => nomatch h)

theorem test_ptpPortsFollowTheirRoles_5 : ∃ (s : State) (u : State),
    (u = { s with
        time.ptp := s.time.ptp.mapIdx (fun k p => { p with role := if ptpOn s k = true then portRole s k else p.role }) }) :=
        by
  exact ⟨up, _, rfl⟩

theorem test_ptpPortsFollowTheirRoles_6 : ∃ (port : Nat) (s : State) (e : PtpData) (b : PtpData),
    (portBest s port = some e) ∧
    (clockBest s = some b) ∧
    (s.time.ptpClock.clockType ≠ 3) ∧
    (comparePtp (ownData s) b ≤ 0) ∧
    (b.receiverPort = port + 1) := by
  refine ⟨0, oneMaster 1 1, itsData 1, itsData 1, ?_, ?_, ?_, ?_, ?_⟩ <;>
    first | exact oneMaster_port _ _ | exact oneMaster_clock _ | exact oneMaster_first | decide

theorem test_ptpPortsFollowTheirRoles_7 : ∃ (port : Nat) (s : State) (e : PtpData) (b : PtpData),
    (portBest s port = some e) ∧
    (clockBest s = some b) ∧
    (s.time.ptpClock.clockType ≠ 3) ∧
    (0 < comparePtp (ownData s) b) := by
  refine ⟨0, oneMaster 1 255, itsData 255, itsData 255, ?_, ?_, ?_, ?_⟩ <;>
    first | exact oneMaster_port _ _ | exact oneMaster_clock _ | exact oneMaster_last | decide

theorem test_ptpPortsFollowTheirRoles_8 : ∃ (port : Nat) (s : State) (e : PtpData),
    (portBest s port = some e) ∧
    (s.time.ptpClock.clockType = 3) := by
  refine ⟨0, oneMaster 3 1, itsData 1, ?_, ?_⟩ <;> first | exact oneMaster_port _ _ | decide

theorem test_ptpPortsFollowTheirRoles_9 : ∃ (port : Nat) (s : State),
    ((s.time.ptp.getD port {}).role = .slave) ∧
    (heldFor s (s.time.ptp.getD port {}).lastAnnounce (announceTimeoutMs (s.time.ptp.getD port {}).cfg) = true) := by
  refine ⟨11, ptpUp { cfg := { enable := true }, role := .slave, lastAnnounce := some 0 }, ?_, ?_⟩ <;>
    first | decide +kernel | rfl | exact (fun _ h => nomatch h)

theorem test_ptpPortsFollowTheirRoles_10 : ∃ (port : Nat) (s : State),
    ((s.time.ptp.getD port {}).role = .listening ∨ (s.time.ptp.getD port {}).role = .passive) ∧
    (heldFor s (s.time.ptp.getD port {}).lastAnnounce (announceTimeoutMs (s.time.ptp.getD port {}).cfg) = true) := by
  refine ⟨11, ptpUp { cfg := { enable := true }, role := .listening, lastAnnounce := some 0 }, ?_, ?_⟩ <;>
    first | decide +kernel | rfl | exact (fun _ h => nomatch h)

theorem test_ptpPortsFollowTheirRoles_11 : ∃ (port : Nat) (kind : PtpTx) (s : State) (r : Bool × State),
    (ptpMay s port kind = true) ∧
    (r = chargeEgress { cls := 0, bytes := ptpBytes (s.time.ptp.getD port {}).cfg.transport kind, port := port, cargo := .ptp kind } s) := by
  refine ⟨11, .sync, ptpUp { cfg := { enable := true }, role := .master }, _, ?_, rfl⟩ <;>
    first | decide +kernel | rfl | exact (fun _ h => nomatch h)

theorem test_ptpPortsFollowTheirRoles_12 : ∃ (port : Nat) (e : StampReq) (s : State),
    (e.kind = 0 ∨ (s.time.ptp.getD port {}).cfg.copy = true) := by
  refine ⟨11, { kind := 0 }, up, ?_⟩ <;> first | decide +kernel | rfl | exact (fun _ h => nomatch h)

theorem test_recordsJoinTheirSet_1 : ∃ (r : InRecord) (s : State),
    (junctionUp s = true) ∧
    (s.time.running = true) ∧
    (arrivesWhole r.data = true) ∧
    (linkWorks s r.link = true) := by
  refine ⟨{ link := 38, data := .can 127250 1 0 0 [] }, up, ?_, ?_, ?_, ?_⟩ <;>
    first | decide +kernel | rfl | exact (fun _ h => nomatch h)

theorem test_recordsJoinTheirSet_2 : ∃ (r : InRecord) (q : InRecord) (s : State) (last : Nat),
    (junctionUp s = true) ∧
    (s.time.running = true) ∧
    (arrivesWhole r.data = true) ∧
    (linkWorks s r.link = true) ∧
    ((∀ bs, r.data ≠ .sentence bs)) ∧
    (q = { r with stampNs := r.stampNs + ingress s r.link, quality := qualityByte s }) ∧
    (last = max (r.stampNs + ingress s r.link) r.doneNs) ∧
    (isTickData r.data = false) ∧
    (last < windowEnd false s) ∧
    (s.inp.fFull = false) ∧
    (setSize s.inp.fset + r.length + 20 ≤ setCap false) := by
  refine ⟨{ link := 38, data := .can 127250 1 0 0 [], length := 131052, doneNs := 1000009999999 }, _, up, _, ?_, ?_, ?_, ?_, ?_, rfl, rfl, ?_, ?_, ?_, ?_⟩ <;>
    first | decide +kernel | rfl | exact (fun _ h => nomatch h)

theorem test_recordsJoinTheirSet_3 : ∃ (r : InRecord) (q : InRecord) (s : State) (last : Nat),
    (junctionUp s = true) ∧
    (s.time.running = true) ∧
    (arrivesWhole r.data = true) ∧
    (linkWorks s r.link = true) ∧
    ((∀ bs, r.data ≠ .sentence bs)) ∧
    (q = { r with stampNs := r.stampNs + ingress s r.link, quality := qualityByte s }) ∧
    (last = max (r.stampNs + ingress s r.link) r.doneNs) ∧
    (isTickData r.data = true) ∧
    (last < windowEnd true s) ∧
    (s.inp.tFull = false) ∧
    (setSize s.inp.tset + r.length + 20 ≤ setCap true) := by
  refine ⟨{ link := 45, data := .servoCan 0 0, length := 12268, doneNs := 1000000999999 }, _, up, _, ?_, ?_, ?_, ?_, ?_, rfl, rfl, ?_, ?_, ?_, ?_⟩ <;>
    first | decide +kernel | rfl | exact (fun _ h => nomatch h)

theorem test_recordsJoinTheirSet_4 : ∃ (r : InRecord) (q : InRecord) (s : State) (last : Nat),
    (junctionUp s = true) ∧
    (s.time.running = true) ∧
    (arrivesWhole r.data = true) ∧
    (linkWorks s r.link = true) ∧
    ((∀ bs, r.data ≠ .sentence bs)) ∧
    (q = { r with stampNs := r.stampNs + ingress s r.link, quality := qualityByte s }) ∧
    (last = max (r.stampNs + ingress s r.link) r.doneNs) ∧
    (last < windowEnd (isTickData r.data) s) ∧
    ((if isTickData r.data then s.inp.tFull = true ∨ setCap true < setSize s.inp.tset + r.length + 20 else s.inp.fFull = true
      ∨ setCap false < setSize s.inp.fset + r.length + 20)) := by
  refine ⟨{ link := 38, data := .can 127250 1 0 0 [], length := 131053, doneNs := 1000009999999 }, _, up, _, ?_, ?_, ?_, ?_, ?_, rfl, rfl, ?_, ?_⟩ <;>
    first | decide +kernel | rfl | exact (fun _ h => nomatch h)

theorem test_recordsJoinTheirSet_5 : ∃ (r : InRecord) (q : InRecord) (s : State) (last : Nat),
    (junctionUp s = true) ∧
    (s.time.running = true) ∧
    (arrivesWhole r.data = true) ∧
    (linkWorks s r.link = true) ∧
    ((∀ bs, r.data ≠ .sentence bs)) ∧
    (q = { r with stampNs := r.stampNs + ingress s r.link, quality := qualityByte s }) ∧
    (last = max (r.stampNs + ingress s r.link) r.doneNs) ∧
    (isTickData r.data = false) ∧
    (windowEnd false s ≤ last) := by
  refine ⟨{ link := 38, data := .can 127250 1 0 0 [], doneNs := 1000010000000 }, _, up, _, ?_, ?_, ?_, ?_, ?_, rfl, rfl, ?_, ?_⟩ <;>
    first | decide +kernel | rfl | exact (fun _ h => nomatch h)

theorem test_recordsJoinTheirSet_6 : ∃ (r : InRecord) (q : InRecord) (s : State) (last : Nat),
    (junctionUp s = true) ∧
    (s.time.running = true) ∧
    (arrivesWhole r.data = true) ∧
    (linkWorks s r.link = true) ∧
    ((∀ bs, r.data ≠ .sentence bs)) ∧
    (q = { r with stampNs := r.stampNs + ingress s r.link, quality := qualityByte s }) ∧
    (last = max (r.stampNs + ingress s r.link) r.doneNs) ∧
    (isTickData r.data = true) ∧
    (windowEnd true s ≤ last) := by
  refine ⟨{ link := 45, data := .servoCan 0 0, doneNs := 1000001000000 }, _, up, _, ?_, ?_, ?_, ?_, ?_, rfl, rfl, ?_, ?_⟩ <;>
    first | decide +kernel | rfl | exact (fun _ h => nomatch h)

theorem test_recordsJoinTheirSet_7 : ∃ (r : InRecord) (q : InRecord) (bs : List Byte) (s : State) (u : State) (last : Nat)
  (utc : _),
    (junctionUp s = true) ∧
    (s.time.running = true) ∧
    (linkWorks s r.link = true) ∧
    (r.data = .sentence bs) ∧
    (s.inp.portSkip.contains r.link = false) ∧
    (q = { r with stampNs := r.stampNs + ingress s r.link, quality := qualityByte s }) ∧
    (last = max (r.stampNs + ingress s r.link) r.doneNs) ∧
    (u = { s with inp.portSkip := s.inp.portSkip.filter (fun l => l != r.link) }) ∧
    (zdaUtc (portOf u r.link) bs = some utc) := by
  refine ⟨{ link := 14, data := .sentence (ascii "$GPZDA,000000,01,01,1970,00,00*47") }, _, ascii "$GPZDA,000000,01,01,1970,00,00*47", up, _, _, 0, ?_, ?_, ?_, ?_, ?_, rfl, rfl, rfl, ?_⟩ <;>
    first | decide +kernel | rfl | exact (fun _ h => nomatch h)

theorem test_recordsJoinTheirSet_8 : ∃ (r : InRecord) (q : InRecord) (bs : List Byte) (s : State) (u : State) (last : Nat),
    (junctionUp s = true) ∧
    (s.time.running = true) ∧
    (linkWorks s r.link = true) ∧
    (r.data = .sentence bs) ∧
    (s.inp.portSkip.contains r.link = false) ∧
    (q = { r with stampNs := r.stampNs + ingress s r.link, quality := qualityByte s }) ∧
    (last = max (r.stampNs + ingress s r.link) r.doneNs) ∧
    (u = { s with inp.portSkip := s.inp.portSkip.filter (fun l => l != r.link) }) ∧
    (zdaUtc (portOf u r.link) bs = none) ∧
    (last < windowEnd false s) ∧
    (s.inp.fFull = false) ∧
    (setSize s.inp.fset + r.length + 20 ≤ setCap false) := by
  refine ⟨{ link := 14, data := .sentence [], doneNs := 1000009999999, length := 131052 }, _, [], up, _, _, ?_, ?_, ?_, ?_, ?_, rfl, rfl, rfl, ?_, ?_, ?_, ?_⟩ <;>
    first | decide +kernel | rfl | exact (fun _ h => nomatch h)

theorem test_recordsJoinTheirSet_9 : ∃ (r : InRecord) (q : InRecord) (bs : List Byte) (s : State) (u : State) (last : Nat),
    (junctionUp s = true) ∧
    (s.time.running = true) ∧
    (linkWorks s r.link = true) ∧
    (r.data = .sentence bs) ∧
    (s.inp.portSkip.contains r.link = false) ∧
    (q = { r with stampNs := r.stampNs + ingress s r.link, quality := qualityByte s }) ∧
    (last = max (r.stampNs + ingress s r.link) r.doneNs) ∧
    (u = { s with inp.portSkip := s.inp.portSkip.filter (fun l => l != r.link) }) ∧
    (zdaUtc (portOf u r.link) bs = none) ∧
    (last < windowEnd false s) ∧
    (s.inp.fFull = true ∨ setCap false < setSize s.inp.fset + r.length + 20) := by
  refine ⟨{ link := 14, data := .sentence [], doneNs := 1000009999999, length := 131053 }, _, [], up, _, _, ?_, ?_, ?_, ?_, ?_, rfl, rfl, rfl, ?_, ?_, ?_⟩ <;>
    first | decide +kernel | rfl | exact (fun _ h => nomatch h)

theorem test_recordsJoinTheirSet_10 : ∃ (r : InRecord) (q : InRecord) (bs : List Byte) (s : State) (u : State) (last : Nat),
    (junctionUp s = true) ∧
    (s.time.running = true) ∧
    (linkWorks s r.link = true) ∧
    (r.data = .sentence bs) ∧
    (s.inp.portSkip.contains r.link = false) ∧
    (q = { r with stampNs := r.stampNs + ingress s r.link, quality := qualityByte s }) ∧
    (last = max (r.stampNs + ingress s r.link) r.doneNs) ∧
    (u = { s with inp.portSkip := s.inp.portSkip.filter (fun l => l != r.link) }) ∧
    (zdaUtc (portOf u r.link) bs = none) ∧
    (windowEnd false s ≤ last) := by
  refine ⟨{ link := 14, data := .sentence [], doneNs := 1000010000000 }, _, [], up, _, _, ?_, ?_, ?_, ?_, ?_, rfl, rfl, rfl, ?_, ?_⟩ <;>
    first | decide +kernel | rfl | exact (fun _ h => nomatch h)

theorem test_recordsJoinTheirSet_11 : ∃ (r : InRecord) (bs : List Byte) (s : State),
    (r.data = .sentence bs) ∧
    (s.inp.portSkip.contains r.link = true) ∧
    (bs.all (fun b => !isStart b) = true) := by
  refine ⟨{ link := 14, data := .sentence [] }, [], { up with inp.portSkip := [14] }, ?_, ?_, ?_⟩ <;>
    first | decide +kernel | rfl | exact (fun _ h => nomatch h)

theorem test_badInputIsDiscarded_1 : ∃ (kind : SetKind) (lane : Lane) (err : Nat) (copy : Nat) (r : Redeliv) (s : State) (u :
  _),
    (s.inp.redeliv.find? (fun x => x.lane == lane && x.kind == kind) = some r) ∧
    (copy = (match kind with | .frame => s.inp.fdig | .tick => s.inp.tdig) ^^^ err) ∧
    (u = { s with inp.redeliv := s.inp.redeliv.filter (fun x => !(x.lane == lane && x.kind == kind)) }) ∧
    (copy = r.accept) := by
  refine ⟨.frame, .a, 0, _, {}, { up with inp.redeliv := [{}] }, _, ?_, rfl, rfl, rfl⟩ <;>
    first | decide +kernel | rfl | exact (fun _ h => nomatch h)

theorem test_badInputIsDiscarded_2 : ∃ (kind : SetKind) (lane : Lane) (err : Nat) (copy : Nat) (r : Redeliv) (s : State) (u :
  _),
    (s.inp.redeliv.find? (fun x => x.lane == lane && x.kind == kind) = some r) ∧
    (copy = (match kind with | .frame => s.inp.fdig | .tick => s.inp.tdig) ^^^ err) ∧
    (u = { s with inp.redeliv := s.inp.redeliv.filter (fun x => !(x.lane == lane && x.kind == kind)) }) ∧
    (copy ≠ r.accept) := by
  refine ⟨.tick, .a, 1, _, { kind := .tick }, { up with inp.redeliv := [{ kind := .tick }] }, _, ?_, rfl, rfl, ?_⟩ <;>
    first | decide +kernel | rfl | exact (fun _ h => nomatch h)

theorem test_badInputIsDiscarded_3 : ∃ (s : State),
    (3 ≤ s.inp.fNoMaj) := by
  refine ⟨{ up with inp.fNoMaj := 3 }, ?_⟩ <;> first | decide +kernel | rfl | exact (fun _ h => nomatch h)

theorem test_badInputIsDiscarded_4 : ∃ (s : State),
    (3 ≤ s.inp.tNoMaj) := by
  refine ⟨{ up with inp.tNoMaj := 3 }, ?_⟩ <;> first | decide +kernel | rfl | exact (fun _ h => nomatch h)

theorem test_badInputIsDiscarded_5 : ∃ (link : Nat) (src : Nat) (pgn : Nat) (s : State) (t : _),
    (s.inp.fast.any (fun x => x.link == link && x.src == src && x.pgn == pgn && decide (x.since + 750 ≤ s.mono)) = true) ∧
    (t = discardBound link 3 (fun b => b.canSources.contains src) { s with
        inp.fast := s.inp.fast.filter (fun x => !(x.link == link && x.src == src && x.pgn == pgn)) }) ∧
    (s.inp.discards.any (fun d => d.1 == link && d.2.1 == 3) = false) := by
  refine ⟨38, 1, 127250, { up with inp.fast := [{ link := 38, src := 1, pgn := 127250, since := 999250 }] }, _, ?_, rfl, ?_⟩ <;>
    first | decide +kernel | rfl | exact (fun _ h => nomatch h)

theorem test_badInputIsDiscarded_6 : ∃ (s : State),
    (junctionUp s = true) := by
  refine ⟨up, ?_⟩ <;> first | decide +kernel | rfl | exact (fun _ h => nomatch h)

theorem test_sensorsAndReferencesAreJudged_1 : ∃ (q : VoteQ) (cand : Nat) (s : State) (c : Cand),
    (c = (s.ref.votes.getD q.num {}).cands.getD cand {}) ∧
    (c.deviating = false) ∧
    (heldFor s c.outSince 5000 = true) := by
  refine ⟨.windDir, 0, { up with ref.votes := List.replicate 6 { cands := [{ outSince := some 995000 }] } }, _, rfl, ?_, ?_⟩ <;>
    first | decide +kernel | rfl | exact (fun _ h => nomatch h)

theorem test_sensorsAndReferencesAreJudged_2 : ∃ (q : VoteQ) (cand : Nat) (s : State) (c : Cand),
    (c = (s.ref.votes.getD q.num {}).cands.getD cand {}) ∧
    (c.deviating = true) ∧
    (heldFor s c.inSince 30000 = true) := by
  refine ⟨.heading, 0, { up with
      ref.votes := List.replicate 6 { cands := [{ deviating := true, inSince := some 970000 }] } }, _, rfl, ?_, ?_⟩ <;>
    first | decide +kernel | rfl | exact (fun _ h => nomatch h)

theorem test_sensorsAndReferencesAreJudged_3 : ∃ (sensor : Bool) (i : Nat) (s : State),
    ((unitOf s sensor i).state = .active) ∧
    ((unitOf s sensor i).lastRx = none) := by
  refine ⟨false, 15, { up with ref.refs := List.replicate 16 { state := .active } }, ?_, ?_⟩ <;>
    first | decide +kernel | rfl | exact (fun _ h => nomatch h)

theorem test_sensorsAndReferencesAreJudged_4 : ∃ (sensor : Bool) (i : Nat) (at_ : Nat) (s : State),
    ((unitOf s sensor i).state = .active) ∧
    ((unitOf s sensor i).lastRx = some at_) ∧
    (3 * periodNs s sensor i ≤ (((s.mono - at_) * 1000000 : Nat) : Int)) := by
  refine ⟨true, 23, 997000, { up with
      ref.sens := List.replicate 24 { state := .active, lastRx := some 997000 } }, ?_, ?_, ?_⟩ <;>
    first | decide +kernel | rfl | exact (fun _ h => nomatch h)

theorem test_sensorsAndReferencesAreJudged_5 : ∃ (r : Nat) (s : State),
    (lanesRun s = true) ∧
    ((s.ref.refs.getD r {}).fusion = 1) ∧
    ((s.ref.refs.getD r {}).proven = false) ∧
    ((s.ref.refs.getD r {}).probation = 3) := by
  refine ⟨15, { up with ref.refs := List.replicate 16 { fusion := 1, probation := 3 } }, ?_, ?_, ?_, ?_⟩ <;>
    first | decide +kernel | rfl | exact (fun _ h => nomatch h)

theorem test_conflictsAreRaisedAndCleared_1 : ∃ (s : State),
    (lanesRun s = true) ∧
    (s.fus.conflict = false) ∧
    (3 ≤ s.fus.condRun) := by
  refine ⟨{ up with fus.condRun := 3 }, ?_, ?_, ?_⟩ <;> first | decide +kernel | rfl | exact (fun _ h => nomatch h)

theorem test_conflictsAreRaisedAndCleared_2 : ∃ (s : State),
    (lanesRun s = true) ∧
    (s.fus.conflict = true) ∧
    (heldFor s s.fus.agreeSince 5000 = true) := by
  refine ⟨{ up with fus.conflict := true, fus.agreeSince := some 995000 }, ?_, ?_, ?_⟩ <;>
    first | decide +kernel | rfl | exact (fun _ h => nomatch h)

theorem test_conflictsAreRaisedAndCleared_3 : ∃ (s : State),
    (lanesRun s = true) ∧
    (s.fus.conflict = true) ∧
    (s.fus.conflictDegraded = false) ∧
    (s.fus.conflictAt + s.image.fusion.conflictMs ≤ s.mono) := by
  refine ⟨{ up with fus.conflict := true, fus.conflictAt := 940000 }, ?_, ?_, ?_, ?_⟩ <;>
    first | decide +kernel | rfl | exact (fun _ h => nomatch h)

theorem test_conflictsAreRaisedAndCleared_4 : ∃ (s : State) (n : Qty) (e : Qty) (a : Qty) (b : Qty) (c : Qty),
    (lanesRun s = true) ∧
    (3 ≤ s.fus.noPeakRun) ∧
    (gaussMeanOf ((s.fus.gaussMean.filter (fun g => s.fus.admitted.contains g.1 && g.2.1 == s.fus.tf)).map (·.2.2)) = some
      (.gauss n e a b c)) := by
  refine ⟨{ up with
      fus.noPeakRun := 3, fus.gaussMean := [(4, 0, .gauss 1 2 1 0 1)], fus.admitted := [4] }, 1, 2, 1, 0, 1, ?_, ?_, ?_⟩ <;>
    first | decide +kernel | rfl | exact (fun _ h => nomatch h)

theorem test_conflictsAreRaisedAndCleared_5 : ∃ (s : State),
    (s.fus.heldBuf.isSome = true) ∧
    (s.fus.heldAt + 10000 ≤ s.mono) := by
  refine ⟨{ up with fus.heldBuf := some 0, fus.heldAt := 990000 }, ?_, ?_⟩ <;>
    first | decide +kernel | rfl | exact (fun _ h => nomatch h)

/-- The start of the observer on a numeric peak, where binary32 keeps the sums exactly (the rounding is a free value). -/
theorem test_observerStartsFromThePeak (hf : ∀ x : Qty, Config.f32 x = x) :
    ∃ (s : State) (sup : List Nat) (p : Nat × Nat × Nat) (m : Qty × Qty × Qty × Qty × Qty), lanesRun s = true ∧
      s.obs.init = true ∧ initPeak s = some (sup, p) ∧ peakFit (s.fus.grids.getD s.fus.cur {}) sup p = some m := by
  refine ⟨{ up with
    fus.best := some (256, 256, 0), fus.supBest := [0, 1],
    fus.grids := [{ kernels := [{ ref := 0, terms := [.gauss 0 0 1 0 1] }] }, {}] }, [0, 1], (256, 256, 0), ?_⟩
  simp only [peakFit, hf]
  rw [if_neg (by decide +kernel)]
  exact ⟨_, by decide, rfl, rfl, rfl⟩

theorem test_controlTimersAct_1 : ∃ (s : State),
    (lanesRun s = true) ∧
    (s.ctl.termsOff = true) ∧
    (s.obs.level < 3) ∧
    (heldFor s s.ctl.returnAt 10000 = true) := by
  refine ⟨{ up with ctl.termsOff := true, ctl.returnAt := some 990000, obs.level := 2 }, ?_, ?_, ?_, ?_⟩ <;>
    first | decide +kernel | rfl | exact (fun _ h => nomatch h)

theorem test_controlTimersAct_2 : ∃ (axis : Nat) (s : State),
    (lanesRun s = true) ∧
    (axis ≤ 2) ∧
    ((s.ctl.axes.getD axis {}).pulse = true) ∧
    ((s.ctl.axes.getD axis {}).compState ≠ 0) ∧
    ((s.ctl.axes.getD axis {}).periodLost = false) ∧
    (3 ≤ (s.ctl.axes.getD axis {}).ignoredRun ∨ (s.ctl.axes.getD axis {}).period * 1500 ≤ ((s.mono - (s.ctl.axes.getD axis {}).pulseSeen : Nat) : Qty)) := by
  refine ⟨2, { up with
      ctl.axes := List.replicate 3 { pulse := true, compState := 1, ignoredRun := 3 } }, ?_, ?_, ?_, ?_, ?_, ?_⟩ <;>
    first | decide +kernel | rfl | exact (fun _ h => nomatch h)

theorem test_controlTimersAct_3 : ∃ (s : State),
    (lanesRun s = true) ∧
    (100 ≤ s.alloc.notSolved) ∧
    (s.alloc.failing = false) := by
  refine ⟨{ up with alloc.notSolved := 100 }, ?_, ?_, ?_⟩ <;> first | decide +kernel | rfl | exact (fun _ h => nomatch h)

theorem test_controlTimersAct_4 : ∃ (s : State),
    (lanesRun s = true) ∧
    (s.alloc.unmet = false) ∧
    ((s.alloc.slackOver.any (fun t => heldFor s t 5000)) = true) := by
  refine ⟨{ up with alloc.slackOver := [some 995000, none, none] }, ?_, ?_, ?_⟩ <;>
    first | decide +kernel | rfl | exact (fun _ h => nomatch h)

theorem test_controlTimersAct_5 : ∃ (s : State),
    (lanesRun s = true) ∧
    (s.alloc.unmet = true) ∧
    (heldFor s s.alloc.slackUnder 5000 = true) := by
  refine ⟨{ up with alloc.unmet := true, alloc.slackUnder := some 995000 }, ?_, ?_, ?_⟩ <;>
    first | decide +kernel | rfl | exact (fun _ h => nomatch h)

theorem test_controlTimersAct_6 : ∃ (k : Nat) (sector : Nat) (s : State),
    (lanesRun s = true) ∧
    (sector < 4) ∧
    (s.pow.state = .active) ∧
    (takesPart (s.alloc.thr.getD k {}).state = true) ∧
    (s.image.alloc.escapeMs ≠ 0) ∧
    (heldFor s ((s.alloc.thr.getD k {}).edgeSince.getD sector none) s.image.alloc.escapeMs = true) ∧
    (s.alloc.thr.any (fun y => y.inTransit.isSome) = false) := by
  refine ⟨31, 3, { up with
      alloc.thr := List.replicate 32 { state := .available, edgeSince := List.replicate 4 (some 990000) } }, ?_, ?_, ?_, ?_,
      ?_, ?_, ?_⟩ <;>
    first | decide +kernel | rfl | exact (fun _ h => nomatch h)

theorem test_loopsSwapAndInject_1 : ∃ (s : State) (w : Swap),
    (s.ctl.swap = some w) ∧
    (lanesRun s = true) ∧
    (w.axesDone = true) ∧
    (s.tt.tick = w.tick) ∧
    (s.servoUndo = none) := by
  refine ⟨{ up with
      ctl.swap := some { axesDone := true, tick := 9 }, tt.tick := 9 }, { axesDone := true, tick := 9 }, ?_, ?_, ?_, ?_, ?_⟩
      <;>
    first | decide +kernel | rfl | exact (fun _ h => nomatch h)

theorem test_loopsSwapAndInject_2 : ∃ (s : State) (w : Swap) (c : CtlSt),
    (s.ctl.swap = some w) ∧
    (lanesRun s = true) ∧
    (w.axesDone = true) ∧
    (s.tt.tick = w.tick) ∧
    (s.servoUndo = some c) := by
  refine ⟨{ up with
      ctl.swap := some { axesDone := true, tick := 9 }, tt.tick := 9, servoUndo := some {} }, { axesDone := true, tick := 9 },
      {}, ?_, ?_, ?_, ?_, ?_⟩ <;>
    first | decide +kernel | rfl | exact (fun _ h => nomatch h)

theorem test_loopsSwapAndInject_3 : ∃ (s : State) (j : Inject) (b : Int) (u : _),
    (s.ctl.inj.job = some j) ∧
    (lanesRun s = true) ∧
    (s.ctl.inj.live = true) ∧
    (s.ctl.inj.running = false) ∧
    (s.tt.tick = j.startTick) ∧
    (s.ctl.inj.notBefore ≤ s.tt.ticks - s.tt.tick) ∧
    (b = (match s.servoUndo with
        | some c => ((c.loops.getD j.index []).getD j.slot {}).u | none => ((s.ctl.loops.getD j.index []).getD j.slot {}).u))
        ∧
    (u = { s with
        ctl.inj.running := true, ctl.inj.startedAt := s.tt.ticks, ctl.inj.lfsr := 2 ^ j.order - 1, ctl.inj.base := b,
        ctl.inj.reason := 0 }) ∧
    (j.capture = false ∨ s.ctl.inj.capState ≠ 1) := by
  refine ⟨{ up with ctl.inj.job := some {}, ctl.inj.live := true }, {}, _, _, ?_, ?_, ?_, ?_, ?_, ?_, rfl, rfl, ?_⟩ <;>
    first | decide +kernel | rfl | exact (fun _ h => nomatch h)

theorem test_loopsSwapAndInject_4 : ∃ (s : State) (j : Inject) (b : Int) (u : _),
    (s.ctl.inj.job = some j) ∧
    (lanesRun s = true) ∧
    (s.ctl.inj.live = true) ∧
    (s.ctl.inj.running = false) ∧
    (s.tt.tick = j.startTick) ∧
    (s.ctl.inj.notBefore ≤ s.tt.ticks - s.tt.tick) ∧
    (b = (match s.servoUndo with
        | some c => ((c.loops.getD j.index []).getD j.slot {}).u | none => ((s.ctl.loops.getD j.index []).getD j.slot {}).u))
        ∧
    (u = { s with
        ctl.inj.running := true, ctl.inj.startedAt := s.tt.ticks, ctl.inj.lfsr := 2 ^ j.order - 1, ctl.inj.base := b,
        ctl.inj.reason := 0 }) ∧
    (j.capture = true) ∧
    (s.ctl.inj.capState = 1) := by
  refine ⟨{ up with
      ctl.inj.job := some { capture := true }, ctl.inj.live := true, ctl.inj.capState := 1 }, { capture := true }, _, _, ?_,
      ?_, ?_, ?_, ?_, ?_, rfl, rfl, ?_, ?_⟩ <;>
    first | decide +kernel | rfl | exact (fun _ h => nomatch h)

theorem test_loopsSwapAndInject_5 : ∃ (s : State) (j : Inject) (c : Nat),
    (s.ctl.inj.job = some j) ∧
    (s.ctl.inj.live = true) ∧
    (lanesRun s = true) ∧
    (injEnds s j ≠ 0) ∧
    (c = (if injEnds s j ≠ 1 && j.capture && (s.ctl.inj.capState = 1 || (s.ctl.inj.running && s.ctl.inj.capState = 2)) then 4
      else s.ctl.inj.capState)) := by
  refine ⟨{ up with
      ctl.inj.job := some { target := 2 }, ctl.inj.live := true, obs.level := 2 }, { target := 2 }, _, ?_, ?_, ?_, ?_, rfl⟩
      <;>
    first | decide +kernel | rfl | exact (fun _ h => nomatch h)

theorem test_loopsSwapAndInject_6 : ∃ s : State, s.ctl.inj.capState = 2 ∧ 16384 ≤ s.ctl.inj.samples.length := by
  refine ⟨{ up with ctl.inj.capState := 2, ctl.inj.samples := List.replicate 16384 [] }, rfl, ?_⟩
  show 16384 ≤ (List.replicate 16384 ([] : List Int)).length
  rw [List.length_replicate]

theorem test_islandsFailSafe_1 : ∃ (ch : Nat) (s : State),
    (lanesRun s = true) ∧
    (3 ≤ (chanOf s ch).upMiss) ∧
    ((chanOf s ch).linkFault = false) := by
  refine ⟨0, ch0 { upMiss := 3 }, ?_, ?_, ?_⟩ <;> first | decide +kernel | rfl | exact (fun _ h => nomatch h)

theorem test_islandsFailSafe_2 : ∃ (ch : Nat) (s : State),
    (islandsUp s = true) ∧
    ((chanOf s ch).split = true) ∧
    (10 ≤ (chanOf s ch).splitRun) ∧
    ((chanOf s ch).state = .regulate) := by
  refine ⟨0, ch0 { split := true, splitRun := 10, state := .regulate }, ?_, ?_, ?_, ?_⟩ <;>
    first | decide +kernel | rfl | exact (fun _ h => nomatch h)

theorem test_islandsFailSafe_3 : ∃ (ch : Nat) (s : State),
    (20 ≤ (chanOf s ch).rbRun) ∧
    ((chanOf s ch).rbFault = false) := by
  refine ⟨0, ch0 { rbRun := 20 }, ?_, ?_⟩ <;> first | decide +kernel | rfl | exact (fun _ h => nomatch h)

theorem test_islandsFailSafe_4 : ∃ (ch : Nat) (s : State),
    ((chanOf s ch).compliance = true) ∧
    ((chanOf s ch).compAt + 200 ≤ s.mono) ∧
    ((chanOf s ch).alarm = false) ∧
    ((chanOf s ch).state = .regulate ∨ (chanOf s ch).state = .capture) := by
  refine ⟨0, ch0 { compliance := true, compAt := 999800, state := .capture }, ?_, ?_, ?_, ?_⟩ <;>
    first | decide +kernel | rfl | exact (fun _ h => nomatch h)

theorem test_islandsFailSafe_5 : ∃ (ch : Nat) (s : State),
    ((chanOf s ch).state = .alarm) ∧
    (20 ≤ (chanOf s ch).undelRun) ∧
    ((chanOf s ch).undeliverable = false) := by
  refine ⟨0, ch0 { state := .alarm, undelRun := 20 }, ?_, ?_, ?_⟩ <;>
    first | decide +kernel | rfl | exact (fun _ h => nomatch h)

theorem test_islandsFailSafe_6 : ∃ (ch : Nat) (s : State),
    ((chanOf s ch).powered = true) := by
  refine ⟨0, ch0 { powered := true }, ?_⟩ <;> first | decide +kernel | rfl | exact (fun _ h => nomatch h)

theorem test_islandsFailSafe_7 : ∃ (ch : Nat) (s : State),
    (3 ≤ (chanOf s ch).slotLoss ∨ 3 ≤ (chanOf s ch).noneRun) ∧
    ((chanOf s ch).state = .regulate ∨ (chanOf s ch).state = .capture ∨ (chanOf s ch).state = .alarm) := by
  refine ⟨0, ch0 { slotLoss := 3, state := .alarm }, ?_, ?_⟩ <;> first | decide +kernel | rfl | exact (fun _ h => nomatch h)

theorem test_islandsFailSafe_8 : ∃ (ch : Nat) (s : State),
    ((chanOf s ch).state = .hold) ∧
    (heldFor s (chanOf s ch).holdAt (chanOf s ch).cfg.holdMs = true ∨ s.time.running = false) ∧
    ((chanOf s ch).resetDue = false) := by
  refine ⟨0, ch0 { state := .hold, holdAt := some 998000 }, ?_, ?_, ?_⟩ <;>
    first | decide +kernel | rfl | exact (fun _ h => nomatch h)

theorem test_islandsFailSafe_9 : ∃ (ch : Nat) (s : State),
    ((chanOf s ch).state = .hold) ∧
    (heldFor s (chanOf s ch).holdAt (chanOf s ch).cfg.holdMs = true ∨ s.time.running = false) ∧
    ((chanOf s ch).resetDue = true) := by
  refine ⟨0, ch0 { state := .hold, holdAt := some 998000, resetDue := true }, ?_, ?_, ?_⟩ <;>
    first | decide +kernel | rfl | exact (fun _ h => nomatch h)

theorem test_islandsFailSafe_10 : ∃ (ch : Nat) (s : State),
    (islAlive s (chanOf s ch) = true) := by
  refine ⟨0, ch0 { powered := true }, ?_⟩ <;> first | decide +kernel | rfl | exact (fun _ h => nomatch h)

theorem test_alarmAndPowerFailOfAnIsland_1 : ∃ (i : Isl),
    (i.state = .regulate ∨ i.state = .capture ∨ i.state = .alarm) := by
  refine ⟨{ state := .regulate }, ?_⟩ <;> first | decide +kernel | rfl | exact (fun _ h => nomatch h)

theorem test_alarmAndPowerFailOfAnIsland_2 : ∃ (i : Isl),
    (i.state = .hold ∨ i.state = .safe) := by
  refine ⟨{ state := .hold }, ?_⟩ <;> first | decide +kernel | rfl | exact (fun _ h => nomatch h)

theorem test_alarmAndPowerFailOfAnIsland_3 : ∃ (s : State) (i : Isl),
    (i.state = .regulate ∨ i.state = .capture ∨ i.state = .alarm ∨ (i.state = .safe ∧ springAsserted s = false)) := by
  refine ⟨{ up with sb.springA := false, sb.springB := false }, { state := .safe }, ?_⟩ <;>
    first | decide +kernel | rfl | exact (fun _ h => nomatch h)

theorem test_alarmAndPowerFailOfAnIsland_4 : ∃ (i : Isl),
    (i.state = .hold) := by
  refine ⟨{ state := .hold }, ?_⟩ <;> first | decide +kernel | rfl | exact (fun _ h => nomatch h)

theorem test_alarmAndPowerFailOfAnIsland_5 : ∃ (s : State) (i : Isl),
    (i.state = .safe) ∧
    (springAsserted s = true) := by
  refine ⟨{ up with sb.springA := true }, { state := .safe }, ?_, ?_⟩ <;>
    first | decide +kernel | rfl | exact (fun _ h => nomatch h)

theorem test_alarmAndPowerFailOfAnIsland_6 : ∃ (i : Isl),
    (i.state = .through ∨ i.state = .fault) := by
  refine ⟨{ state := .through }, ?_⟩ <;> first | decide +kernel | rfl | exact (fun _ h => nomatch h)

theorem test_islandSamplesAreJudged_1 : ∃ (ch : Nat) (s : State),
    ((chanOf s ch).state ≠ .off) ∧
    (islAlive s (chanOf s ch) = true) := by
  refine ⟨0, ch0 { state := .regulate, powered := true }, ?_, ?_⟩ <;>
    first | decide +kernel | rfl | exact (fun _ h => nomatch h)

theorem test_islandSamplesAreJudged_2 : ∃ (ch : Nat) (s : State),
    (regulating (chanOf s ch) = true) ∧
    (3 ≤ (chanOf s ch).compLow) ∧
    ((chanOf s ch).compliance = false) := by
  refine ⟨0, ch0 { state := .regulate, compLow := 3 }, ?_, ?_, ?_⟩ <;>
    first | decide +kernel | rfl | exact (fun _ h => nomatch h)

theorem test_islandSamplesAreJudged_3 : ∃ (ch : Nat) (s : State),
    (10 ≤ (chanOf s ch).compHigh) ∧
    ((chanOf s ch).compliance = true) := by
  refine ⟨0, ch0 { compHigh := 10, compliance := true }, ?_, ?_⟩ <;> first | decide +kernel | rfl | exact (fun _ h => nomatch h)

theorem test_islandSamplesAreJudged_4 : ∃ (ch : Nat) (s : State),
    ((chanOf s ch).state = .capture) ∧
    ((chanOf s ch).capMoving = none) ∧
    (heldFor s (chanOf s ch).capAt (chanOf s ch).cfg.captureMs = true) := by
  refine ⟨0, ch0 { state := .capture, capAt := some 999000 }, ?_, ?_, ?_⟩ <;>
    first | decide +kernel | rfl | exact (fun _ h => nomatch h)

theorem test_islandSamplesAreJudged_5 : ∃ (ch : Nat) (s : State),
    ((chanOf s ch).series = true) ∧
    (seriesWindow s (chanOf s ch) = false) := by
  refine ⟨0, ch0 { series := true, capAt := some 997800 }, ?_, ?_⟩ <;>
    first | decide +kernel | rfl | exact (fun _ h => nomatch h)

theorem test_islandSamplesAreJudged_6 : ∃ (ch : Nat) (raw : Int) (s : State) (m : Qty) (o : Int) (k : _),
    (1 ≤ (chanOf s ch).cfg.mode) ∧
    ((chanOf s ch).cfg.mode ≤ 5) ∧
    (islAlive s (chanOf s ch) = true) ∧
    (outputsDone s (chanOf s ch) < outputsDue (chanOf s ch).cfg.depth s.tt.ticks) ∧
    (m = (if (chanOf s ch).cfg.dcOn && !(chanOf s ch).dcFrozen then Config.filterStep (chanOf s ch).dcMean (islandValue ch
      (chanOf s ch).cfg raw) ((outPeriodNs (chanOf s ch).cfg.depth : Qty) / 1000000000) (chanOf s ch).cfg.tauDc else (chanOf s
      ch).dcMean)) ∧
    (o = roundEven (if (chanOf s ch).cfg.dcOn then islandValue ch (chanOf s ch).cfg raw - m else islandValue ch (chanOf s
      ch).cfg raw)) ∧
    (k ≠ ch) := by
  refine ⟨127, 5, { tt.ticks := 4, isl := List.replicate 128 { powered := true, cfg := { mode := 3, depth := 8 } } : State }, _, _, 0, ?_, ?_, ?_, ?_, rfl, rfl, ?_⟩ <;>
    first | decide +kernel | rfl | exact (fun _ h => nomatch h)

theorem test_islandSamplesAreJudged_7 : ∃ (ch : Nat) (q : Nat) (set : List InRecord) (s : State) (u : UpSlot),
    (ch < s.isl.length) ∧
    ((set.filterMap (fun r => match r.data with | .slot k v => some (k, v, r.quality) | _ => none)).find? (fun g => g.1 == ch)
      = some (ch, u, q)) := by
  refine ⟨127, 0, [{ data := .slot 127 {} }], { up with isl := List.replicate 128 {} }, {}, ?_, ?_⟩ <;>
    first | decide +kernel | rfl | exact (fun _ h => nomatch h)

theorem test_islandSamplesAreJudged_8 : ∃ (ch : Nat) (s : State),
    (3 ≤ (chanOf s ch).cfg.mode) ∧
    ((chanOf s ch).cfg.mode ≤ 6) ∧
    ((chanOf s ch).overload = false) ∧
    ((if (chanOf s ch).cfg.mode = 6 then 1 else 3) ≤ (chanOf s ch).ovRun ∨ 3 ≤ (chanOf s ch).supRun) := by
  refine ⟨0, ch0 { cfg := { mode := 5 }, supRun := 3 }, ?_, ?_, ?_, ?_⟩ <;>
    first | decide +kernel | rfl | exact (fun _ h => nomatch h)

theorem test_islandSamplesAreJudged_9 : ∃ (ch : Nat) (s : State),
    ((chanOf s ch).overload = true) ∧
    (10 ≤ (chanOf s ch).ovOkRun) := by
  refine ⟨0, ch0 { overload := true, ovOkRun := 10 }, ?_, ?_⟩ <;> first | decide +kernel | rfl | exact (fun _ h => nomatch h)

theorem test_islandSamplesAreJudged_10 : ∃ (ch : Nat) (s : State),
    ((chanOf s ch).cfg.mode = 6) ∧
    ((chanOf s ch).noPulse = false) ∧
    ((chanOf s ch).lastEdge + (chanOf s ch).cfg.timeout ≤ s.mono) := by
  refine ⟨0, ch0 { cfg := { mode := 6 }, lastEdge := 999000 }, ?_, ?_, ?_⟩ <;>
    first | decide +kernel | rfl | exact (fun _ h => nomatch h)

theorem test_islandLinksAndHart_1 : ∃ (s : State),
    (islandsUp s = true) := by
  refine ⟨up, ?_⟩ <;> first | decide +kernel | rfl | exact (fun _ h => nomatch h)

theorem test_islandLinksAndHart_2 : ∃ (s : State),
    (islandsUp s = true ∨ s.pow.state = .fault) := by
  refine ⟨up, ?_⟩ <;> first | decide +kernel | rfl | exact (fun _ h => nomatch h)

theorem test_islandLinksAndHart_3 : ∃ (ch : Nat) (f : HartFrame) (s : State),
    (drives s = true) ∧
    (hartOk (chanOf s ch).cfg = true) ∧
    (islAlive s (chanOf s ch) = true) ∧
    ((chanOf s ch).cfg.burst = false ∨ f.isBurst = false) := by
  refine ⟨0, { isBurst := true }, ch0 { cfg := { mode := 4, hart := true, multidrop := true }, powered := true }, ?_, ?_, ?_, ?_⟩ <;>
    first | decide +kernel | rfl | exact (fun _ h => nomatch h)

theorem test_islandLinksAndHart_4 : ∃ (ch : Nat) (f : HartFrame) (s : State) (k : _),
    (drives s = true) ∧
    (hartOk (chanOf s ch).cfg = true) ∧
    (islAlive s (chanOf s ch) = true) ∧
    ((chanOf s ch).cfg.burst = true) ∧
    (f.isBurst = true) ∧
    ((chanOf s ch).bursts.findIdx? (fun b => b.1.address == f.address && b.1.command == f.command) = some k) := by
  refine ⟨0, { isBurst := true }, ch0 { cfg := { mode := 4, hart := true, burst := true }, powered := true, bursts := [({ isBurst := true }, 0)] }, 0, ?_, ?_, ?_, ?_, ?_, ?_⟩ <;>
    first | decide +kernel | rfl | exact (fun _ h => nomatch h)

theorem test_islandLinksAndHart_5 : ∃ (ch : Nat) (f : HartFrame) (s : State),
    (drives s = true) ∧
    (hartOk (chanOf s ch).cfg = true) ∧
    (islAlive s (chanOf s ch) = true) ∧
    ((chanOf s ch).cfg.burst = true) ∧
    (f.isBurst = true) ∧
    ((chanOf s ch).bursts.findIdx? (fun b => b.1.address == f.address && b.1.command == f.command) = none) := by
  refine ⟨0, { isBurst := true, command := 3 }, ch0 { cfg := { mode := 4, hart := true, burst := true }, powered := true, bursts := [({ isBurst := true }, 0)] }, ?_, ?_, ?_, ?_, ?_, ?_⟩ <;>
    first | decide +kernel | rfl | exact (fun _ h => nomatch h)

theorem test_islandLinksAndHart_6 : ∃ (ch : Nat) (s : State) (j : HartJob) (rest : List HartJob),
    ((chanOf s ch).hartQ = j :: rest) ∧
    (drives s = true) ∧
    (hartOk (chanOf s ch).cfg = true) ∧
    ((chanOf s ch).hartSent = true) := by
  refine ⟨0, ch0 { cfg := { mode := 4, hart := true, multidrop := true }, hartQ := [{}], hartSent := true }, {}, [], ?_, ?_, ?_, ?_⟩ <;>
    first | decide +kernel | rfl | exact (fun _ h => nomatch h)

theorem test_islandLinksAndHart_7 : ∃ (ch : Nat) (s : State),
    (drives s = true) ∧
    (hartOk (chanOf s ch).cfg = true) ∧
    (mdMode (chanOf s ch).cfg = true) ∧
    ((chanOf s ch).hartQ = []) ∧
    ((chanOf s ch).energyLow = false) ∧
    ((chanOf s ch).md ≠ []) ∧
    (((chanOf s ch).md.getD (nextDev (chanOf s ch).md (chanOf s ch).mdNext) {}).missing = false) := by
  refine ⟨0, ch0 { cfg := { mode := 4, hart := true, multidrop := true }, md := [{}] }, ?_, ?_, ?_, ?_, ?_, ?_, ?_⟩ <;>
    first | decide +kernel | rfl | exact (fun _ h => nomatch h)

theorem test_islandLinksAndHart_8 : ∃ (ch : Nat) (addr : Nat) (s : State),
    (drives s = true) ∧
    (hartOk (chanOf s ch).cfg = true) ∧
    (mdMode (chanOf s ch).cfg = true) ∧
    ((chanOf s ch).hartQ = []) ∧
    ((chanOf s ch).energyLow = false) ∧
    ((chanOf s ch).md.any (fun d => d.addr == addr && d.missing && decide (d.missedAt + 10000 ≤ s.mono)) = true) := by
  refine ⟨0, 0, ch0 { cfg := { mode := 4, hart := true, multidrop := true }, md := [{ missing := true, missedAt := 990000 }] }, ?_, ?_, ?_, ?_, ?_, ?_⟩ <;>
    first | decide +kernel | rfl | exact (fun _ h => nomatch h)

theorem test_islandLinksAndHart_9 : ∃ (ch : Nat) (c : ChanCfg) (s : State),
    ((chanOf s ch).cfgNext = some c) ∧
    ((chanOf s ch).hartDown = none) ∧
    ((chanOf s ch).resetDue = false) ∧
    (s.tt.tick = 0) := by
  refine ⟨0, {}, ch0 { cfgNext := some {} }, ?_, ?_, ?_, ?_⟩ <;> first | decide +kernel | rfl | exact (fun _ h => nomatch h)

theorem test_islandLinksAndHart_10 : ∃ (c : CheckSt) (s : State),
    (s.check = some c) ∧
    (checkAllowed s c.ch = false) := by
  refine ⟨{}, { up with check := some {  }, pow.state := .ready }, ?_, ?_⟩ <;>
    first | decide +kernel | rfl | exact (fun _ h => nomatch h)

theorem test_islandLinksAndHart_11 : ∃ (x : CheckMeas) (c : CheckSt) (s : State),
    (s.check = some c) ∧
    (checkAllowed s c.ch = true) ∧
    (x.limited = true ∨ s.sb.limited.contains c.ch = true) := by
  refine ⟨{}, {}, { up with check := some {  }, pow.state := .commissioning, sb.limited := [0] }, ?_, ?_, ?_⟩ <;>
    first | decide +kernel | rfl | exact (fun _ h => nomatch h)

theorem test_islandLinksAndHart_12 : ∃ (x : CheckMeas) (c : CheckSt) (s : State),
    (s.check = some c) ∧
    (checkAllowed s c.ch = true) ∧
    (x.limited = false) ∧
    (s.sb.limited.contains c.ch = false) ∧
    (c.phase = 0) ∧
    (c.since + 200 ≤ s.mono) := by
  refine ⟨{}, { since := 999800 }, { up with
      check := some { since := 999800 }, pow.state := .commissioning }, ?_, ?_, ?_, ?_, ?_, ?_⟩ <;>
    first | decide +kernel | rfl | exact (fun _ h => nomatch h)

theorem test_islandLinksAndHart_13 : ∃ (x : CheckMeas) (c : CheckSt) (s : State),
    (s.check = some c) ∧
    (checkAllowed s c.ch = true) ∧
    (x.limited = false) ∧
    (s.sb.limited.contains c.ch = false) ∧
    (c.phase = 1) ∧
    (c.since + 200 ≤ s.mono) ∧
    (c.trial = false ∨ x.vMean - ((chanOf s c.ch).cfg.supAllow : Int) < 8500) := by
  refine ⟨{}, { phase := 1, since := 999800 }, { up with
      check := some { phase := 1, since := 999800 }, pow.state := .commissioning }, ?_, ?_, ?_, ?_, ?_, ?_, ?_⟩ <;>
    first | decide +kernel | rfl | exact (fun _ h => nomatch h)

theorem test_islandLinksAndHart_14 : ∃ (x : CheckMeas) (c : CheckSt) (s : State),
    (s.check = some c) ∧
    (checkAllowed s c.ch = true) ∧
    (x.limited = false) ∧
    (s.sb.limited.contains c.ch = false) ∧
    (c.phase = 1) ∧
    (c.since + 200 ≤ s.mono) ∧
    (c.trial = true) ∧
    (8500 ≤ x.vMean - ((chanOf s c.ch).cfg.supAllow : Int)) := by
  refine ⟨{ vMean := 30000 }, { phase := 1, since := 999800, trial := true }, { up with
      check := some { phase := 1, since := 999800, trial := true }, pow.state := .commissioning }, ?_, ?_, ?_, ?_, ?_, ?_, ?_,
      ?_⟩ <;>
    first | decide +kernel | rfl | exact (fun _ h => nomatch h)

theorem test_islandLinksAndHart_15 : ∃ (x : CheckMeas) (c : CheckSt) (s : State),
    (s.check = some c) ∧
    (checkAllowed s c.ch = true) ∧
    (x.limited = false) ∧
    (s.sb.limited.contains c.ch = false) ∧
    (c.phase = 2) ∧
    (x.vMin < 7200) := by
  refine ⟨{ vMin := 7199 }, { phase := 2 }, { up with
      check := some { phase := 2 }, pow.state := .commissioning }, ?_, ?_, ?_, ?_, ?_, ?_⟩ <;>
    first | decide +kernel | rfl | exact (fun _ h => nomatch h)

theorem test_islandLinksAndHart_16 : ∃ (x : CheckMeas) (c : CheckSt) (s : State),
    (s.check = some c) ∧
    (checkAllowed s c.ch = true) ∧
    (x.limited = false) ∧
    (s.sb.limited.contains c.ch = false) ∧
    (c.phase = 2) ∧
    (7200 ≤ x.vMin) ∧
    (c.since + c.trialMs ≤ s.mono) := by
  refine ⟨{ vMin := 7200 }, { phase := 2, trialMs := 1000, since := 999000 }, { up with
      check := some { phase := 2, trialMs := 1000, since := 999000 }, pow.state := .commissioning }, ?_, ?_, ?_, ?_, ?_, ?_,
      ?_⟩ <;>
    first | decide +kernel | rfl | exact (fun _ h => nomatch h)

theorem test_contactsOpenOutsideRun_1 : ∃ (s : State) (t : State),
    (SafeOutsideRun s.sb) ∧
    (step s = .next t) := by
  refine ⟨{ State.reset with pending := [.ping {}] }, State.reset, ?_, ?_⟩ <;> first | rfl | exact fun _ => ⟨rfl, rfl, rfl, rfl⟩

theorem test_runOnlyByReset_1 : ∃ (c : Instr) (s : State) (t : State),
    (exec c s = .next t) ∧
    (t.sb.state = .run) ∧
    (s.sb.state ≠ .run) := by
  refine ⟨.resetPulse, sbReady 100, nextOf (exec .resetPulse (sbReady 100)) up, ?_, ?_, ?_⟩ <;>
    first | decide +kernel | rfl | exact (fun _ h => nomatch h)

theorem test_resetPulsesStartOrAreRefused_1 : ∃ (s : State) (w : Nat) (r : Nat),
    (s.sb.pulseEnd = some w) ∧
    (s.sb.powered = true) ∧
    (r = (if s.sb.rstWhileStuck = true ∨ s.sb.rstStuck = true ∨ 2000 < w then 7 else if w < 100 then 8 else if s.sb.state ≠
      .resetWait then 6 else if ¬(s.sb.esd.a = true ∧ s.sb.esd.b = true ∧ s.sb.en.a = true ∧ s.sb.en.b = true) then 1 else if
      s.sb.esd.discrepancy = true ∨ s.sb.en.discrepancy = true then 2 else if s.sb.proofDone = false then 3 else if
      s.sb.limitsOk = false then 4 else if s.sb.signTick ≠ s.tt.ticks ∨ (s.sb.present.list.filter (· == true)).length < 2 then
      5 else 0)) ∧
    (r ≠ 0) := by
  refine ⟨sbReady 2001, 2001, _, ?_, ?_, rfl, ?_⟩ <;> first | decide +kernel | rfl | exact (fun _ h => nomatch h)

theorem test_resetPulsesStartOrAreRefused_2 : ∃ (s : State) (w : Nat) (r : Nat),
    (s.sb.pulseEnd = some w) ∧
    (s.sb.powered = true) ∧
    (r = (if s.sb.rstWhileStuck = true ∨ s.sb.rstStuck = true ∨ 2000 < w then 7 else if w < 100 then 8 else if s.sb.state ≠
      .resetWait then 6 else if ¬(s.sb.esd.a = true ∧ s.sb.esd.b = true ∧ s.sb.en.a = true ∧ s.sb.en.b = true) then 1 else if
      s.sb.esd.discrepancy = true ∨ s.sb.en.discrepancy = true then 2 else if s.sb.proofDone = false then 3 else if
      s.sb.limitsOk = false then 4 else if s.sb.signTick ≠ s.tt.ticks ∨ (s.sb.present.list.filter (· == true)).length < 2 then
      5 else 0)) ∧
    (r = 0) := by
  refine ⟨sbReady 2000, 2000, _, ?_, ?_, rfl, rfl⟩ <;> first | decide +kernel | rfl | exact (fun _ h => nomatch h)

theorem test_leavingRunOpensTheContacts_1 : ∃ (s : State),
    (s.sb.state = .run) := by
  refine ⟨{ up with sb.state := .run }, ?_⟩ <;> first | decide +kernel | rfl | exact (fun _ h => nomatch h)

theorem test_signalBoxJudgesItsInputs_1 : ∃ (s : State),
    (s.sb.powered = true) := by
  refine ⟨up, ?_⟩ <;> first | decide +kernel | rfl | exact (fun _ h => nomatch h)

theorem test_signalBoxJudgesItsInputs_2 : ∃ (s : State),
    (3 ≤ s.sb.disagreeRun) := by
  refine ⟨{ up with sb.disagreeRun := 3 }, ?_⟩ <;> first | decide +kernel | rfl | exact (fun _ h => nomatch h)

theorem test_signalBoxJudgesItsInputs_3 : ∃ (s : State),
    (s.sb.testFail = true) := by
  refine ⟨{ up with sb.testFail := true }, ?_⟩ <;> first | decide +kernel | rfl | exact (fun _ h => nomatch h)

theorem test_signalBoxJudgesItsInputs_4 : ∃ (s : State),
    (2 ≤ s.sb.missA ∨ 2 ≤ s.sb.missB) := by
  refine ⟨{ up with sb.missB := 2 }, ?_⟩ <;> first | decide +kernel | rfl | exact (fun _ h => nomatch h)

theorem test_signalBoxJudgesItsInputs_5 : ∃ (closed : Bool) (s : State),
    (s.sb.powered = true) ∧
    (s.sb.esd.a ≠ closed) := by
  refine ⟨true, up, ?_, ?_⟩ <;> first | decide +kernel | rfl | exact (fun _ h => nomatch h)

theorem test_signalBoxJudgesItsInputs_6 : ∃ (closed : Bool) (s : State),
    (s.sb.powered = true) ∧
    (s.sb.esd.b ≠ closed) := by
  refine ⟨true, up, ?_, ?_⟩ <;> first | decide +kernel | rfl | exact (fun _ h => nomatch h)

theorem test_signalBoxJudgesItsInputs_7 : ∃ (closed : Bool) (s : State),
    (s.sb.powered = true) ∧
    (s.sb.en.a ≠ closed) := by
  refine ⟨true, up, ?_, ?_⟩ <;> first | decide +kernel | rfl | exact (fun _ h => nomatch h)

theorem test_signalBoxJudgesItsInputs_8 : ∃ (closed : Bool) (s : State),
    (s.sb.powered = true) ∧
    (s.sb.en.b ≠ closed) := by
  refine ⟨true, up, ?_, ?_⟩ <;> first | decide +kernel | rfl | exact (fun _ h => nomatch h)

theorem test_signalBoxJudgesItsInputs_9 : ∃ (s : State),
    (s.sb.powered = true) ∧
    (s.sb.rstHigh = false) := by
  refine ⟨up, ?_, ?_⟩ <;> first | decide +kernel | rfl | exact (fun _ h => nomatch h)

theorem test_signalBoxJudgesItsInputs_10 : ∃ (s : State),
    (s.sb.powered = true) ∧
    (s.sb.rstHigh = true) := by
  refine ⟨{ up with sb.rstHigh := true }, ?_, ?_⟩ <;> first | decide +kernel | rfl | exact (fun _ h => nomatch h)

theorem test_signalBoxJudgesItsInputs_11 : ∃ (s : State),
    (s.sb.powered = true) ∧
    (differsLong s s.sb.esd = true) ∧
    (s.sb.esd.discrepancy = false) := by
  refine ⟨{ up with sb.esd.differSince := some 999899 }, ?_, ?_, ?_⟩ <;>
    first | decide +kernel | rfl | exact (fun _ h => nomatch h)

theorem test_signalBoxJudgesItsInputs_12 : ∃ (s : State),
    (s.sb.powered = true) ∧
    (differsLong s s.sb.en = true) ∧
    (s.sb.en.discrepancy = false) := by
  refine ⟨{ up with sb.en.differSince := some 999899 }, ?_, ?_, ?_⟩ <;>
    first | decide +kernel | rfl | exact (fun _ h => nomatch h)

theorem test_signalBoxJudgesItsInputs_13 : ∃ (s : State),
    (s.sb.powered = true) ∧
    (heldFor s s.sb.openCmdAt 1 = true) := by
  refine ⟨{ up with sb.openCmdAt := some 999999 }, ?_, ?_⟩ <;> first | decide +kernel | rfl | exact (fun _ h => nomatch h)

theorem test_signalBoxJudgesItsInputs_14 : ∃ (s : State) (since : Nat),
    (s.sb.powered = true) ∧
    (s.sb.yawSince = some since) ∧
    (s.sb.yawHeld = false) ∧
    (s.sb.limits.rLim ≠ 0) ∧
    (s.sb.limits.tStop * 1000 ≤ ((s.mono - since : Nat) : Qty)) := by
  refine ⟨{ up with sb.yawSince := some 999000, sb.limits := { rLim := 1 } }, 999000, ?_, ?_, ?_, ?_, ?_⟩ <;>
    first | decide +kernel | rfl | exact (fun _ h => nomatch h)

theorem test_signalBoxJudgesItsInputs_15 : ∃ (s : State),
    (s.sb.powered = true) ∧
    (s.sb.state = .init) ∧
    (s.sb.testFail = false) := by
  refine ⟨{ up with sb.state := .init }, ?_, ?_, ?_⟩ <;> first | decide +kernel | rfl | exact (fun _ h => nomatch h)

theorem test_signalBoxJudgesItsInputs_16 : ∃ (passed : Bool) (openA : Bool) (openB : Bool) (s : State),
    (s.sb.powered = true) ∧
    (s.sb.state = .init) ∧
    (s.sb.testFail = false) ∧
    ((passed && openA && openB) = false) := by
  refine ⟨true, false, true, { up with sb.state := .init }, ?_, ?_, ?_, ?_⟩ <;>
    first | decide +kernel | rfl | exact (fun _ h => nomatch h)

theorem test_signalBoxJudgesItsInputs_17 : ∃ (s : State) (since : Nat),
    (s.sb.powered = true) ∧
    (s.sb.limits.proofH ≠ 0) ∧
    (s.sb.proofDone = true) ∧
    (s.sb.proofDue = false) ∧
    (s.sb.state ≠ .stopped) ∧
    (s.sb.proofAt = some since) ∧
    (since + s.sb.limits.proofH * 3600000 < s.mono) := by
  refine ⟨{ up with
      mono := 4600001, sb.limits := { proofH := 1 }, sb.proofDone := true, sb.proofAt := some 1000000 }, 1000000, ?_, ?_, ?_,
      ?_, ?_, ?_, ?_⟩ <;>
    first | decide +kernel | rfl | exact (fun _ h => nomatch h)

theorem test_signalBoxJudgesItsInputs_18 : ∃ (s : State) (since : Nat),
    (s.sb.powered = true) ∧
    (s.sb.limits.proofH ≠ 0) ∧
    (s.sb.proofDone = true) ∧
    (s.sb.proofDue = false) ∧
    (s.sb.state = .stopped) ∧
    (s.sb.proofAt = some since) ∧
    (since + s.sb.limits.proofH * 3600000 < s.mono) := by
  refine ⟨{ up with
      mono := 4600001, sb.state := .stopped, sb.limits := { proofH := 1 }, sb.proofDone := true, sb.proofAt := some 1000000 },
      1000000, ?_, ?_, ?_, ?_, ?_, ?_, ?_⟩ <;>
    first | decide +kernel | rfl | exact (fun _ h => nomatch h)

theorem test_signalBoxJudgesItsInputs_19 : ∃ (s : State),
    (s.sb.powered = true) ∧
    (s.sb.rstHigh = true) ∧
    (s.sb.rstAt + 2000 < s.mono) := by
  refine ⟨{ up with sb.rstHigh := true, sb.rstAt := 997999 }, ?_, ?_, ?_⟩ <;>
    first | decide +kernel | rfl | exact (fun _ h => nomatch h)

theorem test_signalBoxJudgesItsInputs_20 : ∃ (s : State),
    (s.sb.powered = true) ∧
    (s.sb.rstStuck = true) ∧
    (s.sb.rstHigh = false) ∧
    (s.sb.rstFell + 1000 ≤ s.mono) := by
  refine ⟨{ up with sb.rstStuck := true, sb.rstFell := 999000 }, ?_, ?_, ?_, ?_⟩ <;>
    first | decide +kernel | rfl | exact (fun _ h => nomatch h)

theorem test_signalBoxJudgesItsInputs_21 : ∃ (s : State) (at_ : Nat),
    (s.sb.releaseAt = some at_) ∧
    (s.sb.state = .run) ∧
    (s.tt.ticks ≠ at_) := by
  refine ⟨{ up with sb.releaseAt := some 0, sb.state := .run, tt.ticks := 1 }, 0, ?_, ?_, ?_⟩ <;>
    first | decide +kernel | rfl | exact (fun _ h => nomatch h)

theorem test_signalBoxJudgesItsInputs_22 : ∃ (s : State),
    (s.sb.powered = true) := by
  refine ⟨up, ?_⟩ <;> first | decide +kernel | rfl | exact (fun _ h => nomatch h)

theorem test_receiverFollowsItsRules_1 : ∃ (s : State),
    (junctionUp s = true) ∧
    (s.time.running = true) ∧
    (s.tt.tick = 5) ∧
    (s.tt.frame % epochFrames s.gnss.rate = 0) ∧
    (s.gnss.epochFrame ≠ some s.tt.frame) := by
  refine ⟨{ up with gnss.mode := 1, tt.tick := 5 }, ?_, ?_, ?_, ?_, ?_⟩ <;>
    first | decide +kernel | rfl | exact (fun _ h => nomatch h)

theorem test_receiverFollowsItsRules_2 : ∃ (s : State),
    (s.gnss.blockOpen = true) := by
  refine ⟨{ up with gnss.blockOpen := true }, ?_⟩ <;> first | decide +kernel | rfl | exact (fun _ h => nomatch h)

theorem test_receiverFollowsItsRules_3 : ∃ (channel : Nat) (ev : TrackEvent) (s : State),
    (tracking s = true) ∧
    (channel < 160) ∧
    ((∀ system sv band antenna k, ev ≠ .allocated system sv band antenna k)) := by
  refine ⟨159, .phaseLocked, { up with gnss.mode := 2 }, ?_, ?_, ?_⟩ <;>
    first | decide +kernel | exact (fun _ _ _ _ _ h => nomatch h)

theorem test_receiverFollowsItsRules_4 : ∃ (channel : Nat) (system : Nat) (sv : Nat) (band : Nat) (antenna : Nat) (k : Int) (s
  : State) (chans : List GnssChan),
    (tracking s = true) ∧
    (channel < 160) ∧
    (chans = s.gnss.chans.modify channel (chanEvent s (.allocated system sv band antenna k))) := by
  refine ⟨159, 0, 1, 0, 0, 0, { up with gnss.mode := 2 }, _, ?_, ?_, rfl⟩ <;>
    first | decide +kernel | rfl | exact (fun _ h => nomatch h)

theorem test_receiverFollowsItsRules_5 : ∃ (s : State),
    (s.gnss.sel = 3) ∧
    (s.gnss.mode = 1) ∧
    (heldFor s s.gnss.dualLowSince 10000 = true) := by
  refine ⟨{ up with gnss.mode := 1, gnss.dualLowSince := some 990000 }, ?_, ?_, ?_⟩ <;>
    first | decide +kernel | rfl | exact (fun _ h => nomatch h)

theorem test_receiverFollowsItsRules_6 : ∃ (s : State),
    (s.gnss.sel = 3) ∧
    (s.gnss.mode = 2) ∧
    (heldFor s s.gnss.dualOkSince 60000 = true) := by
  refine ⟨{ up with gnss.mode := 2, gnss.dualOkSince := some 940000 }, ?_, ?_, ?_⟩ <;>
    first | decide +kernel | rfl | exact (fun _ h => nomatch h)

theorem test_receiverFollowsItsRules_7 : ∃ (f : List Byte) (rest : List (List Byte)) (s : State),
    (lanesRun s = true) ∧
    (s.gnss.corrQ = f :: rest) := by
  refine ⟨[], [], { up with gnss.corrQ := [[]] }, ?_, ?_⟩ <;> first | decide +kernel | rfl | exact (fun _ h => nomatch h)

theorem test_receiverFollowsItsRules_8 : ∃ (antenna : Nat) (microamps : Nat) (atLimit : Bool) (s : State) (u : State),
    (junctionUp s = true) ∧
    (antenna < 2) ∧
    (s.image.gnss.antBAbsent = false ∨ antenna ≠ 1) ∧
    (u = noteAntenna antenna microamps atLimit s) ∧
    (heldFor u (u.gnss.antLimit.getD antenna none) 100 = true) := by
  refine ⟨1, 0, true, { up with gnss.antLimit := [none, some 999900], gnss.antLow := [none, none] }, _, ?_, ?_, ?_, rfl, ?_⟩ <;>
    first | decide +kernel | rfl | exact (fun _ h => nomatch h)

theorem test_receiverFollowsItsRules_9 : ∃ (antenna : Nat) (microamps : Nat) (atLimit : Bool) (s : State) (u : State),
    (junctionUp s = true) ∧
    (antenna < 2) ∧
    (s.image.gnss.antBAbsent = false ∨ antenna ≠ 1) ∧
    (u = noteAntenna antenna microamps atLimit s) ∧
    (heldFor u (u.gnss.antLimit.getD antenna none) 100 = false) ∧
    (heldFor u (u.gnss.antLow.getD antenna none) 1000 = true) := by
  refine ⟨1, 0, false, { up with
      gnss.antLimit := [none, none], gnss.antLow := [none, some 999000] }, _, ?_, ?_, ?_, rfl, ?_, ?_⟩ <;>
    first | decide +kernel | rfl | exact (fun _ h => nomatch h)

theorem test_receiverFollowsItsRules_10 : ∃ (antenna : Nat) (microamps : Nat) (atLimit : Bool) (s : State) (u : State),
    (junctionUp s = true) ∧
    (antenna < 2) ∧
    (s.image.gnss.antBAbsent = false ∨ antenna ≠ 1) ∧
    (u = noteAntenna antenna microamps atLimit s) ∧
    (heldFor u (u.gnss.antLimit.getD antenna none) 100 = false) ∧
    (heldFor u (u.gnss.antLow.getD antenna none) 1000 = false) := by
  refine ⟨1, 5000, false, up, _, ?_, ?_, ?_, rfl, ?_, ?_⟩ <;> first | decide +kernel | rfl | exact (fun _ h => nomatch h)

theorem test_receiverFollowsItsRules_11 : ∃ (antenna : Nat) (s : State),
    (antenna < 2) ∧
    (antFault s antenna = true) ∧
    (s.gnss.antOff.getD antenna none = none ∨ heldFor s (s.gnss.antOff.getD antenna none) 10000 = true) := by
  refine ⟨1, { up with gnss.antShort := [false, true], gnss.antOff := [none, some 990000] }, ?_, ?_, ?_⟩ <;>
    first | decide +kernel | rfl | exact (fun _ h => nomatch h)

theorem test_receiverFollowsItsRules_12 : ∃ (s : State),
    (s.gnss.mode = 3) ∧
    (s.pow.state = .layover) ∧
    (s.time.ns < 1000000) ∧
    (s.gnss.snaps.head?.map (·.sec) ≠ some s.time.sec) := by
  refine ⟨{ up with gnss.mode := 3, pow.state := .layover }, ?_, ?_, ?_, ?_⟩ <;>
    first | decide +kernel | rfl | exact (fun _ h => nomatch h)

theorem test_receiverFollowsItsRules_13 : ∃ (h : HotfixIn) (s : State) (t0 : Nat),
    (s.gnss.hotfix = some t0) ∧
    (hotSnap s t0 = none ∨ (∃ x, hotSnap s t0 = some x ∧ hotSolve h x s = none)) := by
  refine ⟨{}, { up with gnss.hotfix := some 5 }, 5, ?_, ?_⟩ <;> first | exact Or.inl rfl | rfl

/-- A snapshot whose position and clock the solver finds, where its range test passes (the solver is a free value). -/
theorem test_receiverFollowsItsRules_14 (hg : ∀ k b rs c, (Config.gnssSolve k b rs c).test ≤ 1) :
    ∃ (h : HotfixIn) (s : State) (t0 : Nat) (x : SnapShot) (r : EpochRes), s.gnss.hotfix = some t0 ∧
      hotSnap s t0 = some x ∧ hotSolve h x s = some r ∧ s.cons.role = .lead := by
  have hot := hotSolve_five .lead { quality := 3 } hg
  refine ⟨hotFive, hotState .lead, 0, { quality := 3 }, hot.choose, rfl, rfl, hot.choose_spec, by decide⟩

/-- A snapshot whose position and clock the solver finds, where its range test passes (the solver is a free value). -/
theorem test_receiverFollowsItsRules_15 (hg : ∀ k b rs c, (Config.gnssSolve k b rs c).test ≤ 1) :
    ∃ (h : HotfixIn) (s : State) (t0 : Nat) (x : SnapShot) (r : EpochRes), s.gnss.hotfix = some t0 ∧
      hotSnap s t0 = some x ∧ hotSolve h x s = some r ∧ s.cons.role ≠ .lead := by
  have hot := hotSolve_five .layover { quality := 3 } hg
  refine ⟨hotFive, hotState .layover, 0, { quality := 3 }, hot.choose, rfl, rfl, hot.choose_spec, by decide⟩

theorem test_outgoingCopiesAreVoted_1 : ∃ (lane : Lane) (id : Nat) (s : State) (v : Voting),
    (s.host.voting.find? (fun v => v.pkt.id == id) = some v) ∧
    (inService s lane = true) ∧
    (v.copies.any (fun c => c.1 == lane) = false) := by
  refine ⟨.a, 0, { up with host.voting := [{}] }, {}, ?_, ?_, ?_⟩ <;>
    first | decide +kernel | rfl | exact (fun _ h => nomatch h)

theorem test_outgoingCopiesAreVoted_2 : ∃ (id : Nat) (s : State) (v : Voting),
    (s.host.voting.find? (fun v => v.pkt.id == id) = some v) ∧
    (v.copies ≠ []) ∧
    (v.sent = false) ∧
    (2 ≤ nServing s) := by
  refine ⟨0, { up with host.voting := [{ copies := [(.a, 0)] }] }, { copies := [(.a, 0)] }, ?_, ?_, ?_, ?_⟩ <;>
    first | decide +kernel | rfl | exact (fun _ h => nomatch h)

theorem test_outgoingCopiesAreVoted_3 : ∃ (id : Nat) (s : State) (v : Voting),
    (s.host.voting.find? (fun v => v.pkt.id == id) = some v) ∧
    (v.copies ≠ []) ∧
    (v.sent = false) ∧
    (nServing s < 2) := by
  refine ⟨0, { up with
      lanes := ⟨laneUp, {}, {}⟩, host.voting := [{ copies := [(.a, 0)] }] }, { copies := [(.a, 0)] }, ?_, ?_, ?_, ?_⟩ <;>
    first | decide +kernel | rfl | exact (fun _ h => nomatch h)

theorem test_outgoingCopiesAreVoted_4 : ∃ (id : Nat) (s : State) (v : Voting),
    (s.host.voting.find? (fun v => v.pkt.id == id) = some v) ∧
    (v.copies ≠ []) ∧
    (v.sent = true) := by
  refine ⟨0, { up with
      host.voting := [{ copies := [(.a, 0)], sent := true }] }, { copies := [(.a, 0)], sent := true }, ?_, ?_, ?_⟩ <;>
    first | decide +kernel | rfl | exact (fun _ h => nomatch h)

theorem test_lanesFailAndReturn_1 : ∃ (lane : Lane) (s : State),
    (s.image.consist.autoReintegrate = true) ∧
    ((laneOf s lane).state = .excluded) ∧
    ((laneOf s lane).noRetry = false) ∧
    (runState s = true) ∧
    (heldFor s (laneOf s lane).exclAt 1000 = true) := by
  refine ⟨.a, { up with lanes := ⟨{ state := .excluded, exclAt := some 999000 }, laneUp, laneUp⟩ }, ?_, ?_, ?_, ?_, ?_⟩ <;>
    first | decide +kernel | rfl | exact (fun _ h => nomatch h)

theorem test_lanesFailAndReturn_2 : ∃ (lane : Lane) (s : State) (l : _),
    ((laneOf s lane).state = .shadow) ∧
    (10 ≤ (laneOf s lane).shadowRun) ∧
    ((laneOf s lane).shadowFull = true) ∧
    (s.tt.nextAct = 0) ∧
    (lanesRun s = true) ∧
    (l ≠ lane) := by
  refine ⟨.a, { up with
      lanes := ⟨{ state := .shadow, shadowRun := 10, shadowFull := true }, laneUp, laneUp⟩ }, .b, ?_, ?_, ?_, ?_, ?_, ?_⟩ <;>
    first | decide +kernel | rfl | exact (fun _ h => nomatch h)

theorem test_lanesFailAndReturn_3 : ∃ (lane : Lane) (s : State),
    (junctionUp s = true) ∧
    ((laneOf s lane).state = .inService) := by
  refine ⟨.a, up, ?_, ?_⟩ <;> first | decide +kernel | rfl | exact (fun _ h => nomatch h)

theorem test_lanesFailAndReturn_4 : ∃ (lane : Lane) (s : State),
    (junctionUp s = true) ∧
    ((laneOf s lane).state = .reintegrating ∨ (laneOf s lane).state = .shadow) := by
  refine ⟨.a, { up with lanes := ⟨{ state := .shadow }, laneUp, laneUp⟩ }, ?_, ?_⟩ <;>
    first | decide +kernel | rfl | exact (fun _ h => nomatch h)

theorem test_lanesFailAndReturn_5 : ∃ (s : State),
    (lanesRun s = true) := by
  refine ⟨up, ?_⟩ <;> first | decide +kernel | rfl | exact (fun _ h => nomatch h)

theorem test_lanesFailAndReturn_6 : ∃ (block : Nat) (u : Nat) (code : Nat) (second : Bool) (s : State),
    (junctionUp s = true) ∧
    (1 ≤ block) ∧
    (block ≤ 13) ∧
    (second = (match blockEntry s block u with | none => false | some b => b.out || decide (s.mono < b.at_ + 10000))) ∧
    (code = (if 8 ≤ block ∨ block = 6 ∧ (second = true ∨ s.cons.role = .lead ∧ layoverReady s = true) then 3 else if second
      then 2 else 1)) := by
  refine ⟨13, 0, _, _, up, ?_, ?_, ?_, rfl, rfl⟩ <;> first | decide +kernel | rfl | exact (fun _ h => nomatch h)

theorem test_lanesFailAndReturn_7 : ∃ (block : Nat) (u : Nat) (s : State) (b : BlockFault),
    (blockEntry s block u = some b) ∧
    (b.resetting = true) ∧
    (block ≠ 5 ∨ junctionUp s = false) := by
  refine ⟨1, 0, { up with jx.blocks := [{ block := 1, resetting := true }] }, { block := 1, resetting := true }, ?_, ?_, ?_⟩ <;>
    first | decide +kernel | rfl | exact (fun _ h => nomatch h)

theorem test_lanesFailAndReturn_8 : ∃ (u : Nat) (s : State) (b : BlockFault),
    (blockEntry s 5 u = some b) ∧
    (b.resetting = true) ∧
    (junctionUp s = true) := by
  refine ⟨0, { up with jx.blocks := [{ block := 5, resetting := true }] }, { block := 5, resetting := true }, ?_, ?_, ?_⟩ <;>
    first | decide +kernel | rfl | exact (fun _ h => nomatch h)

theorem test_lanesFailAndReturn_9 : ∃ (s : State),
    (s.pow.state = .layover) := by
  refine ⟨{ up with pow.state := .layover }, ?_⟩ <;> first | decide +kernel | rfl | exact (fun _ h => nomatch h)

theorem test_lanesFailAndReturn_10 : ∃ (s : State),
    (s.pow.state = .layover) := by
  refine ⟨{ up with pow.state := .layover }, ?_⟩ <;> first | decide +kernel | rfl | exact (fun _ h => nomatch h)

theorem test_lanesFailAndReturn_11 : ∃ (s : State),
    (s.pow.state = .layover) := by
  refine ⟨{ up with pow.state := .layover }, ?_⟩ <;> first | decide +kernel | rfl | exact (fun _ h => nomatch h)

theorem test_ringLinksComeAndGo_1 : ∃ (east : Bool) (s : State) (l : LinkSt),
    (l = s.cons.links.getD (linkNum east) {}) ∧
    (junctionUp s = true) ∧
    (l.up = false) ∧
    (3 ≤ l.good) ∧
    (blockDown s 5 (linkNum east) = false) := by
  refine ⟨true, { up with cons.links := [{ good := 3 }, { good := 3 }] }, _, rfl, ?_, ?_, ?_, ?_⟩ <;>
    first | decide +kernel | rfl | exact (fun _ h => nomatch h)

theorem test_ringLinksComeAndGo_2 : ∃ (east : Bool) (s : State) (l : LinkSt),
    (l = s.cons.links.getD (linkNum east) {}) ∧
    (junctionUp s = true) ∧
    (l.up = true) ∧
    (l.lastAt + 1 ≤ s.mono ∨ 8 ≤ l.crcErr ∨ blockDown s 5 (linkNum east) = true) := by
  refine ⟨true, { up with
      cons.links := [{ up := true, lastAt := 999999 }, { up := true, lastAt := 999999 }] }, _, rfl, ?_, ?_, ?_⟩ <;>
    first | decide +kernel | rfl | exact (fun _ h => nomatch h)

theorem test_ringLinksComeAndGo_3 : ∃ (east : Bool) (s : State),
    (junctionUp s = true) ∧
    ((s.cons.links.getD (linkNum east) {}).up = true) := by
  refine ⟨true, { up with cons.links := [{ up := true }, { up := true }] }, ?_, ?_⟩ <;>
    first | decide +kernel | rfl | exact (fun _ h => nomatch h)

theorem test_ringLinksComeAndGo_4 : ∃ (east : Bool) (s : State),
    (blockDown s 5 (linkNum east) = false) ∧
    (s.pow.state = .fault) := by
  refine ⟨true, { up with pow.state := .fault }, ?_, ?_⟩ <;> first | decide +kernel | rfl | exact (fun _ h => nomatch h)

theorem test_ringLinksComeAndGo_5 : ∃ (east : Bool) (m : RingMsg) (s : State),
    (junctionUp s = true) ∧
    (blockDown s 5 (linkNum east) = false) ∧
    (m.crcOk = true) := by
  refine ⟨true, {}, up, ?_, ?_, ?_⟩ <;> first | decide +kernel | rfl | exact (fun _ h => nomatch h)

theorem test_ringLinksComeAndGo_6 : ∃ (east : Bool) (m : RingMsg) (s : State),
    (junctionUp s = true) ∧
    (blockDown s 5 (linkNum east) = false) ∧
    (m.crcOk = false) := by
  refine ⟨true, { crcOk := false }, up, ?_, ?_, ?_⟩ <;> first | decide +kernel | rfl | exact (fun _ h => nomatch h)

theorem test_rollCallsAndRoles_1 : ∃ (s : State),
    (junctionUp s = true) ∧
    (s.cons.home = true) ∧
    (s.cons.links.any (·.up) = true) ∧
    ((s.cons.rollAt = none ∧ s.cons.rollDone = false) ∨ s.cons.rollReq.isSome = true) := by
  refine ⟨{ up with cons.home := true, cons.links := [{ up := true }, {}] }, ?_, ?_, ?_, ?_⟩ <;>
    first | decide +kernel | rfl | exact (fun _ h => nomatch h)

theorem test_rollCallsAndRoles_2 : ∃ (s : State),
    (junctionUp s = true) ∧
    (s.cons.rollAnswers ≠ []) ∧
    (rollComplete s = true ∨ heldFor s s.cons.rollAt 200 = true) := by
  refine ⟨{ up with cons.rollAnswers := [{}], cons.rollAt := some 0 }, ?_, ?_, ?_⟩ <;>
    first | decide +kernel | rfl | exact (fun _ h => nomatch h)

theorem test_rollCallsAndRoles_3 : ∃ (s : State),
    (junctionUp s = true) ∧
    (s.cons.rollAnswers = []) ∧
    (heldFor s s.cons.rollAt 200 = true) ∧
    (s.cons.rollTask = none) := by
  refine ⟨{ up with cons.rollAt := some 0 }, ?_, ?_, ?_, ?_⟩ <;> first | decide +kernel | rfl | exact (fun _ h => nomatch h)

theorem test_rollCallsAndRoles_4 : ∃ (s : State),
    (junctionUp s = true) ∧
    (runState s = true) ∧
    (s.cons.rollDone = false) ∧
    (s.cons.rollAt = none) ∧
    (s.cons.noHome = false) ∧
    ((s.cons.links.any (fun l => heldFor s l.upAt 5000) = true ∨ (s.cons.links.all (fun l => !l.up) = true ∧ 1 <
      s.image.consist.size ∧ s.cons.bootEnd + 5000 ≤ s.mono))) := by
  refine ⟨{ up with cons.links := [{ upAt := some 995000 }, {}] }, ?_, ?_, ?_, ?_, ?_, ?_⟩ <;>
    first | decide +kernel | rfl | exact (fun _ h => nomatch h)

theorem test_rollCallsAndRoles_5 : ∃ (s : State),
    (junctionUp s = true) ∧
    (imageActive s = true) ∧
    (s.cons.role = .none) ∧
    (s.pow.state = .ready) := by
  refine ⟨{ up with cons.role := .none, pow.state := .ready }, ?_, ?_, ?_, ?_⟩ <;>
    first | decide +kernel | rfl | exact (fun _ h => nomatch h)

theorem test_rollCallsAndRoles_6 : ∃ (s : State),
    (junctionUp s = true) ∧
    (imageActive s = true) ∧
    (s.cons.role = .none) ∧
    (s.pow.state = .layover) ∧
    (s.cons.alarm = false) := by
  refine ⟨{ up with cons.role := .none, pow.state := .layover }, ?_, ?_, ?_, ?_, ?_⟩ <;>
    first | decide +kernel | rfl | exact (fun _ h => nomatch h)

theorem test_rollCallsAndRoles_7 : ∃ (s : State),
    (junctionUp s = true) ∧
    (imageActive s = true) ∧
    (s.cons.role = .witness) ∧
    (layoverSeen s = none) ∧
    (([1, 2, 3, 4].filter (fun k => eligible s k && present s k && (k == s.cons.addr || (peerAt s k).hb.role == 3))).head? =
      some s.cons.addr) := by
  refine ⟨{ up with cons.role := .witness, image.consist.eligible := [1] }, ?_, ?_, ?_, ?_, ?_⟩ <;>
    first | decide +kernel | rfl | exact (fun _ h => nomatch h)

theorem test_lossOfTheLeadIsSeen_1 : ∃ (slot : Nat) (word : Nat) (s : State) (p : Peer) (own : Nat) (est : Nat) (age : Nat),
    (junctionUp s = true) ∧
    (slot < 4) ∧
    (slot + 1 ≠ s.cons.addr) ∧
    (word / 256 % 256 = crc8 (word % 256)) ∧
    (word % 4 = slot) ∧
    (p = peerAt s (slot + 1)) ∧
    ((∃ at_, p.ringAt = some at_ ∧ s.mono ≤ at_ + 1000)) ∧
    (own = s.tt.ticks % 16) ∧
    (est = (own + p.offset.getD 0) % 16) ∧
    (age = (est + 16 - word / 16 % 16) % 16) ∧
    (age ≤ 3) := by
  refine ⟨1, crc8 1 * 256 + 1, { up with
      cons.peers := [{}, { ringAt := some 999000 }, {}, {}] }, _, _, _, _, ?_, ?_, ?_, ?_, ?_, rfl, ?_, rfl, rfl, rfl, ?_⟩ <;>
    first | rfl | decide | decide +kernel | exact ⟨999000, rfl, by decide⟩

theorem test_lossOfTheLeadIsSeen_2 : ∃ (addr : Nat) (at_ : Nat) (kind : Nat) (s : State),
    (newestHeard s addr = some at_) ∧
    (junctionUp s = true) ∧
    (addr ≠ s.cons.addr) ∧
    ((peerAt s addr).lost = false) ∧
    (at_ + 17 < s.mono) ∧
    (kind = (if addr = s.cons.lead then 1 else if addr = s.cons.layover then 2 else 3)) := by
  refine ⟨2, 999982, _, { up with
      cons.peers := [{}, { heard := [none, none, some 999982, none] }, {}, {}] }, ?_, ?_, ?_, ?_, ?_, rfl⟩ <;>
    first | decide +kernel | rfl | exact (fun _ h => nomatch h)

theorem test_lossOfTheLeadIsSeen_3 : ∃ (carrier : Nat) (addr : Nat) (s : State),
    (junctionUp s = true) ∧
    (carrier < 4) ∧
    (addr ≠ s.cons.addr) ∧
    (heardIn s addr carrier 17 = false) ∧
    (heardAny s addr 17 = true) ∧
    (s.cons.carrierFault.getD carrier false = false) := by
  refine ⟨0, 2, { up with
      cons.peers := [{}, { heard := [none, some 1000000, none, none] }, {}, {}] }, ?_, ?_, ?_, ?_, ?_, ?_⟩ <;>
    first | decide +kernel | rfl | exact (fun _ h => nomatch h)

theorem test_lossOfTheLeadIsSeen_4 : ∃ (s : State),
    (awaiting s = true) ∧
    (s.mono ≤ s.cons.arbAt + 1000) ∧
    (s.image.consist.arbitration = 2) ∧
    (s.cons.arbOut = true) := by
  refine ⟨{ up with
      cons.role := .layover, pow.state := .layover, cons.leadLostAt := some 0, cons.lead := 2, cons.arbAt := 999000,
      cons.arbOut := true, image.consist.arbitration := 2 }, ?_, ?_, ?_, ?_⟩ <;>
    first | decide +kernel | rfl | exact (fun _ h => nomatch h)

theorem test_lossOfTheLeadIsSeen_5 : ∃ (s : State),
    (awaiting s = true) ∧
    (s.mono ≤ s.cons.arbAt + 1000) ∧
    (s.image.consist.arbitration = 1) ∧
    ([1, 2, 3, 4].any (fun k => present s k && k != s.cons.addr && k != s.cons.lead && (peerAt s k).bit3) = true) := by
  refine ⟨{ up with
      cons.role := .layover, pow.state := .layover, cons.leadLostAt := some 0, cons.lead := 2, cons.arbAt := 999000,
      image.consist.arbitration := 1, cons.peers := [{}, {}, { heard := [some 1000000, none, none, none], bit3 := true }, {}]
      }, ?_, ?_, ?_, ?_⟩ <;>
    first | decide +kernel | rfl | exact (fun _ h => nomatch h)

theorem test_lossOfTheLeadIsSeen_6 : ∃ (s : State),
    (awaiting s = true) ∧
    (s.image.consist.arbitration ≠ 0) ∧
    (s.cons.arbAt + 1000 ≤ s.mono) := by
  refine ⟨{ up with
      cons.role := .layover, pow.state := .layover, cons.leadLostAt := some 0, cons.lead := 2, cons.arbAt := 999000,
      image.consist.arbitration := 1 }, ?_, ?_, ?_⟩ <;>
    first | decide +kernel | rfl | exact (fun _ h => nomatch h)

theorem test_lossOfTheLeadIsSeen_7 : ∃ (s : State),
    (s.cons.role = .lead) ∧
    (s.image.consist.arbitration = 1) ∧
    ([1, 2, 3, 4].all (fun k => k == s.cons.addr || !(heardAny s k 100)) = true) := by
  refine ⟨{ up with image.consist.arbitration := 1 }, ?_, ?_, ?_⟩ <;>
    first | decide +kernel | rfl | exact (fun _ h => nomatch h)

theorem test_lossOfTheLeadIsSeen_8 : ∃ (s : State),
    (s.cons.role = .lead) ∧
    (s.image.consist.arbitration = 2) ∧
    ([1, 2, 3, 4].all (fun k => k == s.cons.addr || !(heardAny s k 20)) = true) := by
  refine ⟨{ up with image.consist.arbitration := 2 }, ?_, ?_, ?_⟩ <;>
    first | decide +kernel | rfl | exact (fun _ h => nomatch h)

theorem test_lossOfTheLeadIsSeen_9 : ∃ (s : State),
    (s.cons.splitView = true) ∧
    (s.cons.splitAt + 60000 ≤ s.mono) := by
  refine ⟨{ up with cons.splitView := true, cons.splitAt := 940000 }, ?_, ?_⟩ <;>
    first | decide +kernel | rfl | exact (fun _ h => nomatch h)

theorem test_takeoversRunTheirPhases_1 : ∃ (s : State),
    (s.cons.role = .layover) ∧
    (s.pow.state = .layover) ∧
    (s.cons.startAt.isSome = true) := by
  refine ⟨{ up with cons.role := .layover, pow.state := .layover, cons.startAt := some 0 }, ?_, ?_, ?_⟩ <;>
    first | decide +kernel | rfl | exact (fun _ h => nomatch h)

theorem test_takeoversRunTheirPhases_2 : ∃ (s : State),
    (s.cons.role = .layover) ∧
    (s.pow.state = .layover) ∧
    (s.cons.startAt = none) ∧
    (leadTransfers s = true) ∧
    (takeoverReady s = true) ∧
    (s.cons.phase = 0) := by
  refine ⟨{ up with
      cons.role := .layover, pow.state := .layover, cons.lead := 2, cons.full := some {}, cons.deltas := [{}], time.selected
      := some 3, cons.peers := [{}, { heard := [some 1000000, none, none, none], hb := { role := 1, flags := 8, release :=
      Config.fwRelease } }, {}, {}] }, ?_, ?_, ?_, ?_, ?_, ?_⟩ <;>
    first | decide +kernel | (simp only [takeoverReady, notReady]; rw [if_neg (by decide), if_neg (by decide +kernel), if_neg
      (by show ¬ ((Config.fwRelease != Config.fwRelease) = true); simp)]; decide +kernel)

theorem test_takeoversRunTheirPhases_3 : ∃ (s : State),
    (s.pow.state = .boot) ∧
    (s.pow.bootKind = 1) ∧
    (s.cons.restored = false) := by
  refine ⟨{ up with pow.state := .boot, pow.bootKind := 1 }, ?_, ?_, ?_⟩ <;>
    first | decide +kernel | rfl | exact (fun _ h => nomatch h)

theorem test_takeoversRunTheirPhases_4 : ∃ (s : State),
    (s.pow.state = .boot) ∧
    (s.pow.bootKind = 1) ∧
    (s.cons.restored = true) ∧
    (s.cons.phase = 0) ∧
    (heldFor s s.cons.startAt 240 = true) ∧
    (atBoundary s = true) := by
  refine ⟨{ up with
      pow.state := .boot, pow.bootKind := 1, cons.restored := true, cons.startAt := some 999760 }, ?_, ?_, ?_, ?_, ?_, ?_⟩ <;>
    first | decide +kernel | rfl | exact (fun _ h => nomatch h)

theorem test_takeoversRunTheirPhases_5 : ∃ (s : State),
    (s.cons.role = .lead) ∧
    (runState s = true) ∧
    (s.cons.capturing = true) ∧
    (2 ≤ s.cons.goodFrames) ∧
    (atBoundary s = true) := by
  refine ⟨{ up with cons.capturing := true, cons.goodFrames := 2 }, ?_, ?_, ?_, ?_, ?_⟩ <;>
    first | decide +kernel | rfl | exact (fun _ h => nomatch h)

theorem test_takeoversRunTheirPhases_6 : ∃ (s : State),
    (s.cons.role = .lead) ∧
    (runState s = true) ∧
    (s.cons.capturing = false) ∧
    (s.cons.capWait = true) ∧
    (allTaken s = true) := by
  refine ⟨{ up with cons.capWait := true, pow.state := .ready }, ?_, ?_, ?_, ?_, ?_⟩ <;>
    first | decide +kernel | rfl | exact (fun _ h => nomatch h)

theorem test_takeoversRunTheirPhases_7 : ∃ (s : State),
    (s.cons.role = .lead) ∧
    (runState s = true) ∧
    (s.cons.capturing = false) ∧
    (s.cons.capWait = false) ∧
    (s.cons.phase = 3) ∧
    (s.cons.captured = false) ∧
    (allCaptured s = true) := by
  refine ⟨{ up with cons.phase := 3 }, ?_, ?_, ?_, ?_, ?_, ?_, ?_⟩ <;>
    first | decide +kernel | rfl | exact (fun _ h => nomatch h)

theorem test_takeoversRunTheirPhases_8 : ∃ (s : State) (f : FullImg),
    (s.pow.state = .boot) ∧
    (s.pow.bootKind = 1) ∧
    (s.cons.phase = 2) ∧
    (s.cons.outgoing = false) ∧
    (10 ≤ s.cons.shadowFrames) ∧
    (s.cons.full = some f) ∧
    (s.cons.prepFrame < f.fast.frame) ∧
    (atBoundary s = true) := by
  refine ⟨{ up with
      pow.state := .boot, pow.bootKind := 1, cons.phase := 2, cons.shadowFrames := 10, cons.full := some { fast := { frame :=
      1 } } }, { fast := { frame := 1 } }, ?_, ?_, ?_, ?_, ?_, ?_, ?_, ?_⟩ <;>
    first | decide +kernel | rfl | exact (fun _ h => nomatch h)

theorem test_takeoversRunTheirPhases_9 : ∃ (s : State),
    (s.cons.role = .transferring) ∧
    (s.cons.outgoing = true) ∧
    ((leadHb s).flags.testBit 5 = true) := by
  refine ⟨{ up with
      cons.role := .transferring, cons.outgoing := true, cons.lead := 2, cons.peers := [{}, { hb := { flags := 32 } }, {}, {}]
      }, ?_, ?_, ?_⟩ <;>
    first | decide +kernel | rfl | exact (fun _ h => nomatch h)

theorem test_takeoversRunTheirPhases_10 : ∃ (s : State),
    (outgoingAborts s = true) := by
  refine ⟨{ up with cons.outgoing := true, cons.phase := 1 }, ?_⟩ <;>
    first | decide +kernel | rfl | exact (fun _ h => nomatch h)

theorem test_takeoversRunTheirPhases_11 : ∃ (s : State),
    (outgoingAborts s = false) ∧
    (incomingAborts s = true) := by
  refine ⟨{ up with pow.state := .boot, pow.bootKind := 1, cons.role := .layover, cons.phase := 1 }, ?_, ?_⟩ <;>
    first | decide +kernel | rfl | exact (fun _ h => nomatch h)

theorem test_hostTrafficIsServed_1 : ∃ (port : Nat) (srcIp : Nat) (p : Packet) (s : State),
    (junctionUp s = true) ∧
    (portUp s port = true) ∧
    ((cmdPort s port).service = true) ∧
    (sourceOk (cmdPort s port) srcIp = true) ∧
    (p.wireSize + 28 ≤ (cmdPort s port).mtu) := by
  refine ⟨11, 4, {}, { up with
      image.cmd.ports := List.replicate 12 { service := true, ranges := [(1, 8)] } }, ?_, ?_, ?_, ?_, ?_⟩ <;>
    first | decide +kernel | rfl | exact (fun _ h => nomatch h)

theorem test_hostTrafficIsServed_2 : ∃ (port : Nat) (srcIp : Nat) (s : State),
    (junctionUp s = true) ∧
    (portUp s port = true) ∧
    ((cmdPort s port).service = true) ∧
    (sourceOk (cmdPort s port) srcIp = false) := by
  refine ⟨11, 4, { up with image.cmd.ports := List.replicate 12 { service := true, ranges := [(5, 6)] } }, ?_, ?_, ?_, ?_⟩ <;>
    first | decide +kernel | rfl | exact (fun _ h => nomatch h)

theorem test_hostTrafficIsServed_3 : ∃ (index : Nat) (r : Relay) (s : State),
    (s.host.relays[index]? = some r) ∧
    (r.at_ + 1000 ≤ s.mono) := by
  refine ⟨0, { at_ := 999000 }, { up with host.relays := [{ at_ := 999000 }] }, ?_, ?_⟩ <;>
    first | decide +kernel | rfl | exact (fun _ h => nomatch h)

theorem test_hostTrafficIsServed_4 : ∃ (slot : Nat) (x : Session) (s : State),
    (s.host.sessions.getD slot none = some x) ∧
    (junctionUp s = true) ∧
    (atBoundary s = true) ∧
    (x.lastAt + 1000 * x.timeoutS ≤ s.mono) := by
  refine ⟨0, { lastAt := 940000 }, { up with host.sessions := [some { lastAt := 940000 }] }, ?_, ?_, ?_, ?_⟩ <;>
    first | decide +kernel | rfl | exact (fun _ h => nomatch h)

theorem test_hostTrafficIsServed_5 : ∃ (slot : Nat) (tag : Nat) (x : Session) (t : Slot) (s : State),
    (s.host.sessions.getD slot none = some x) ∧
    (slotOf x tag = some t) ∧
    (junctionUp s = true) ∧
    (t.done = true) ∧
    (t.due = true) := by
  refine ⟨0, 0, { slots := [{ done := true, due := true }] }, { done := true, due := true }, { up with
      host.sessions := [some { slots := [{ done := true, due := true }] }] }, ?_, ?_, ?_, ?_, ?_⟩ <;>
    first | decide +kernel | rfl | exact (fun _ h => nomatch h)

theorem test_hostTrafficIsServed_6 : ∃ (s : State),
    (junctionUp s = true) ∧
    (nServing s = 0) := by
  refine ⟨{ up with lanes := ⟨{}, {}, {}⟩ }, ?_, ?_⟩ <;> first | decide +kernel | rfl | exact (fun _ h => nomatch h)

theorem test_hostTrafficIsServed_7 : ∃ (queue : Nat) (tail : Nat) (f : FetchIn) (s : State) (n : Nat),
    (junctionUp s = true) ∧
    (queue < 32) ∧
    (blockDown s 4 0 = false) ∧
    ((queueOf s queue).enable = true) ∧
    ((queueOf s queue).error = 0) ∧
    (tail % 256 < ringSize (queueOf s queue)) ∧
    (f.dmaFault = false) ∧
    (f.entryLenBad = false) ∧
    (n = (tail % 256 + ringSize (queueOf s queue) - (queueOf s queue).sqHead) % ringSize (queueOf s queue)) := by
  refine ⟨31, 0, {}, { up with
      host.queues := List.replicate 32 { enable := true, log2 := 4 } }, _, ?_, ?_, ?_, ?_, ?_, ?_, ?_, ?_, rfl⟩ <;>
    first | decide +kernel | rfl | exact (fun _ h => nomatch h)

theorem test_hostTrafficIsServed_8 : ∃ (queue : Nat) (tail : Nat) (s : State),
    (junctionUp s = true) ∧
    (queue < 32) ∧
    (blockDown s 4 0 = false) ∧
    ((queueOf s queue).enable = true) ∧
    ((queueOf s queue).error = 0) ∧
    (ringSize (queueOf s queue) ≤ tail % 256) := by
  refine ⟨31, 255, { up with host.queues := List.replicate 32 { enable := true, log2 := 4 } }, ?_, ?_, ?_, ?_, ?_, ?_⟩ <;>
    first | decide +kernel | rfl | exact (fun _ h => nomatch h)

theorem test_hostTrafficIsServed_9 : ∃ (queue : Nat) (tail : Nat) (n : Nat) (got : Nat) (f : FetchIn) (s : State),
    (junctionUp s = true) ∧
    (queue < 32) ∧
    (blockDown s 4 0 = false) ∧
    ((queueOf s queue).enable = true) ∧
    ((queueOf s queue).error = 0) ∧
    (tail % 256 < ringSize (queueOf s queue)) ∧
    (f.dmaFault = true ∨ f.entryLenBad = true) ∧
    (n = (tail % 256 + ringSize (queueOf s queue) - (queueOf s queue).sqHead) % ringSize (queueOf s queue)) ∧
    (got = min n f.packets.length) := by
  refine ⟨31, 3, _, _, { dmaFault := true }, { up with
      host.queues := List.replicate 32 { enable := true, log2 := 4 } }, ?_, ?_, ?_, ?_, ?_, ?_, ?_, rfl, rfl⟩ <;>
    first | decide +kernel | rfl | exact (fun _ h => nomatch h)

theorem test_hostTrafficIsServed_10 : ∃ (queue : Nat) (s : State),
    (junctionUp s = true) ∧
    (pcieUp s = true) ∧
    (queue < 32) := by
  refine ⟨31, up, ?_, ?_, ?_⟩ <;> first | decide +kernel | rfl | exact (fun _ h => nomatch h)

theorem test_hostTrafficIsServed_11 : ∃ (queue : Nat) (s : State),
    (junctionUp s = true) ∧
    (pcieUp s = true) ∧
    (queue < 32) := by
  refine ⟨31, up, ?_, ?_, ?_⟩ <;> first | decide +kernel | rfl | exact (fun _ h => nomatch h)

theorem test_hostTrafficIsServed_12 : ∃ (s : State),
    (junctionUp s = true) ∧
    (pcieUp s = true) := by
  refine ⟨up, ?_, ?_⟩ <;> first | decide +kernel | rfl | exact (fun _ h => nomatch h)

theorem test_hostTrafficIsServed_13 : ∃ (value : Nat) (s : State),
    (junctionUp s = true) ∧
    (pcieUp s = true) ∧
    (value % 64 < 48) := by
  refine ⟨47, up, ?_, ?_, ?_⟩ <;> first | decide +kernel | rfl | exact (fun _ h => nomatch h)

theorem test_hostTrafficIsServed_14 : ∃ (offset : Nat) (s : State),
    (offset < 65536) ∧
    (junctionUp s = true) ∧
    (blockDown s 4 0 = false) := by
  refine ⟨65535, up, ?_, ?_, ?_⟩ <;> first | decide +kernel | rfl | exact (fun _ h => nomatch h)

theorem test_hostTrafficIsServed_15 : ∃ (x : Transfer) (s : State),
    (s.host.transfer = some x) ∧
    (junctionUp s = true) ∧
    (s.host.commit = none) ∧
    (x.lastAt + 60000 ≤ s.mono) := by
  refine ⟨{ lastAt := 940000 }, { up with host.transfer := some { lastAt := 940000 } }, ?_, ?_, ?_, ?_⟩ <;>
    first | decide +kernel | rfl | exact (fun _ h => nomatch h)

/-- A commit that passes every check, where the digest is that of the header, both signatures verify and the body spells the
default settings (the cryptography and the layout of the body are free values). -/
theorem test_hostTrafficIsServed_16 (hd : ∀ b, Config.sha256 b = List.replicate 32 0)
    (he : ∀ k m g, Config.ecdsaP256 k m g = true) (hb : ∀ b, Config.imageBody b = {})
    (hl : ∀ b, Config.limitsSection b = []) :
    ∃ (readbackOk : Bool) (task : Task) (at_ : Nat) (x : Transfer) (s : State), s.host.commit = some (task, at_) ∧
      s.host.transfer = some x ∧ junctionUp s = true ∧ commitFailure s x readbackOk = none := by
  refine ⟨true, {}, 0, { slot := 1, length := 4096, next := 4096, digest := List.replicate 32 0 }, committing, rfl, rfl, by decide, ?_⟩
  have hr : releaseOk committing 1 = true := by
    have e : imgField committing 1 12 4 = 0 := by decide +kernel
    simp [releaseOk, e]
  simp only [commitFailure, imgBody, digestOk, trusted, hd, he, hb, hl, hr]
  decide +kernel

theorem test_hostTrafficIsServed_17 : ∃ (readbackOk : Bool) (task : Task) (at_ : Nat) (x : Transfer) (detail : Nat) (status :
  Nat) (s : State),
    (s.host.commit = some (task, at_)) ∧
    (s.host.transfer = some x) ∧
    (junctionUp s = true) ∧
    (commitFailure s x readbackOk = some (detail, status)) := by
  refine ⟨true, {}, 0, { length := 5 }, 1, 0x11, { up with
      host.transfer := some { length := 5 }, host.commit := some ({}, 0) }, ?_, ?_, ?_, ?_⟩ <;>
    first | decide +kernel | rfl | exact (fun _ h => nomatch h)

theorem test_recordsAreWrittenAndRead_1 : ∃ (s : State),
    (junctionUp s = true) ∧
    (s.log.started = true) ∧
    (s.tt.mramLeft.getD 1 0 < 64) := by
  refine ⟨{ up with log.started := true, tt.mramLeft := [0, 63, 0, 0] }, ?_, ?_, ?_⟩ <;>
    first | decide +kernel | rfl | exact (fun _ h => nomatch h)

theorem test_recordsAreWrittenAndRead_2 : ∃ (fails : Nat) (s : State),
    (junctionUp s = true) ∧
    (s.log.started = true) ∧
    (64 ≤ s.tt.mramLeft.getD 1 0) ∧
    (2 ≤ fails) ∧
    (s.log.staged ≠ []) ∧
    (s.log.full = false) := by
  refine ⟨2, { up with log.started := true, log.staged := [default] }, ?_, ?_, ?_, ?_, ?_, ?_⟩ <;>
    first | decide +kernel | rfl | exact (fun _ h => nomatch h)

theorem test_recordsAreWrittenAndRead_3 : ∃ (s : State) (u : State) (v : State) (before : Nat) (after : Nat),
    (junctionUp s = true) ∧
    (s.log.started = true) ∧
    (64 ≤ s.tt.mramLeft.getD 1 0) ∧
    (u = writeMany (s.tt.mramLeft.getD 1 0 / 64) s) ∧
    (before = s.log.staged.length + (if s.log.fullRec.isSome then 1 else 0)) ∧
    (after = u.log.staged.length + (if u.log.fullRec.isSome then 1 else 0)) ∧
    (v = stageLost { u with tt.mramLeft := u.tt.mramLeft.modify 1 (· - 64 * (before - after)) }) ∧
    (v.log.clear = none) := by
  refine ⟨{ up with log.started := true }, _, _, _, _, ?_, ?_, ?_, rfl, rfl, rfl, rfl, ?_⟩ <;>
    first | decide +kernel | rfl | exact (fun _ h => nomatch h)

theorem test_recordsAreWrittenAndRead_4 : ∃ (s : State),
    (junctionUp s = true) ∧
    (s.log.loading = false) := by
  refine ⟨up, ?_, ?_⟩ <;> first | decide +kernel | rfl | exact (fun _ h => nomatch h)

theorem test_recordsAreWrittenAndRead_5 : ∃ (s : State),
    (s.log.loading = true) := by
  refine ⟨{ up with log.loading := true }, ?_⟩ <;> first | decide +kernel | rfl | exact (fun _ h => nomatch h)

theorem test_displayEventsAct_1 : ∃ (s : State),
    (dieAlive s = true) ∧
    (driverOut s = false) ∧
    (s.disp.oneLevel = false) := by
  refine ⟨up, ?_, ?_, ?_⟩ <;> first | decide +kernel | rfl | exact (fun _ h => nomatch h)

theorem test_displayEventsAct_2 : ∃ (s : State),
    (dieAlive s = true) ∧
    (3 ≤ s.disp.crackRun) ∧
    (s.disp.cracked = false) := by
  refine ⟨{ up with disp.crackRun := 3 }, ?_, ?_, ?_⟩ <;> first | decide +kernel | rfl | exact (fun _ h => nomatch h)

theorem test_displayEventsAct_3 : ∃ (temp : Option Qty) (deg : Qty) (s : State),
    (dieAlive s = true) ∧
    (glassTemp s temp = some deg) ∧
    (s.disp.tempLost = false) := by
  refine ⟨some 5, 5, up, ?_, ?_, ?_⟩ <;> first | decide +kernel | rfl | exact (fun _ h => nomatch h)

theorem test_displayEventsAct_4 : ∃ (temp : Option Qty) (deg : Qty) (s : State),
    (dieAlive s = true) ∧
    (glassTemp s temp = some deg) ∧
    (s.disp.tempLost = true) := by
  refine ⟨some 5, 5, { up with disp.tempLost := true }, ?_, ?_, ?_⟩ <;>
    first | decide +kernel | rfl | exact (fun _ h => nomatch h)

theorem test_displayEventsAct_5 : ∃ (temp : Option Qty) (s : State),
    (dieAlive s = true) ∧
    (glassTemp s temp = none) ∧
    (s.disp.tempLost = false) := by
  refine ⟨none, up, ?_, ?_, ?_⟩ <;> first | decide +kernel | rfl | exact (fun _ h => nomatch h)

theorem test_displayEventsAct_6 : ∃ (region : Nat) (s : State),
    (dieAlive s = true) ∧
    (region < 16) ∧
    ((regionCfg s region).source = 2) ∧
    ((regionAt s region).rendered + 500 ≤ s.mono) := by
  refine ⟨15, { up with
      image.disp.regions := List.replicate 16 { source := 2 }, disp.regions := List.replicate 16 { rendered := 999500 } }, ?_,
      ?_, ?_, ?_⟩ <;>
    first | decide +kernel | rfl | exact (fun _ h => nomatch h)

theorem test_displayEventsAct_7 : ∃ (region : Nat) (s : State),
    (dieAlive s = true) ∧
    ((regionAt s region).running.isSome = true) ∧
    (holdOver s (regionAt s region) 16 = true) := by
  refine ⟨15, { up with disp.regions := List.replicate 16 { running := some ({}, 999984) } }, ?_, ?_, ?_⟩ <;>
    first | decide +kernel | rfl | exact (fun _ h => nomatch h)

theorem test_suppliesAreJudged_1 : ∃ (i : SupplyIn) (ev : SupplyEv) (mv : Nat) (s : State),
    (supplyDue s i ev mv = false) := by
  refine ⟨.vbak, .valid, 18000, up, ?_⟩ <;> first | decide +kernel | rfl | exact (fun _ h => nomatch h)

theorem test_suppliesAreJudged_2 : ∃ (i : SupplyIn) (ev : SupplyEv) (mv : Nat) (s : State) (u : State),
    (supplyDue s i ev mv = true) ∧
    (u = (let v := setSupply i (supplyAfter (supplyOf s i) ev mv) s; match ev with
        | .fldLow => { v with pow.fldLow := true } | .fldRestored => { v with pow.fldLow := false } | .fldOvercurrent => { v
        with pow.fldOver := true } | .fldOvercurrentEnd => { v with pow.fldOver := false } | _ => v)) ∧
    (supplyCode ev = none) := by
  refine ⟨.fld, .fldOvercurrentEnd, 5, { up with pow.fldOver := true }, _, ?_, rfl, ?_⟩ <;>
    first | decide +kernel | rfl | exact (fun _ h => nomatch h)

theorem test_suppliesAreJudged_3 : ∃ (i : SupplyIn) (ev : SupplyEv) (mv : Nat) (s : State) (u : State) (e : _),
    (supplyDue s i ev mv = true) ∧
    (u = (let v := setSupply i (supplyAfter (supplyOf s i) ev mv) s; match ev with
        | .fldLow => { v with pow.fldLow := true } | .fldRestored => { v with pow.fldLow := false } | .fldOvercurrent => { v
        with pow.fldOver := true } | .fldOvercurrentEnd => { v with pow.fldOver := false } | _ => v)) ∧
    (supplyCode ev = some e) := by
  refine ⟨.pwrA, .valid, 18000, up, _, 1, ?_, rfl, ?_⟩ <;> first | decide +kernel | rfl | exact (fun _ h => nomatch h)

theorem test_suppliesAreJudged_4 : ∃ (mv : Nat) (s : State),
    (s.pow.pwrA.valid = false) ∧
    (18000 ≤ mv) := by
  refine ⟨18000, up, ?_, ?_⟩ <;> first | decide +kernel | rfl | exact (fun _ h => nomatch h)

theorem test_suppliesAreJudged_5 : ∃ (mv : Nat) (s : State),
    (s.pow.pwrB.valid = false) ∧
    (18000 ≤ mv) := by
  refine ⟨18000, up, ?_, ?_⟩ <;> first | decide +kernel | rfl | exact (fun _ h => nomatch h)

theorem test_suppliesAreJudged_6 : ∃ (mv : Nat) (s : State),
    (s.pow.pwrA.valid = true) ∧
    (mv < 17000) := by
  refine ⟨16999, { up with pow.pwrA := { valid := true } }, ?_, ?_⟩ <;>
    first | decide +kernel | rfl | exact (fun _ h => nomatch h)

theorem test_suppliesAreJudged_7 : ∃ (mv : Nat) (s : State),
    (s.pow.pwrB.valid = true) ∧
    (mv < 17000) := by
  refine ⟨16999, { up with pow.pwrB := { valid := true } }, ?_, ?_⟩ <;>
    first | decide +kernel | rfl | exact (fun _ h => nomatch h)

theorem test_suppliesAreJudged_8 : ∃ (s : State),
    (dieAlive s = true) ∧
    (s.pow.vbakAt + 3600000 ≤ s.mono) := by
  refine ⟨{ up with mono := 3600000 }, ?_, ?_⟩ <;> first | decide +kernel | rfl | exact (fun _ h => nomatch h)

theorem test_suppliesAreJudged_9 : ∃ (s : State),
    (dieAlive s = true) := by
  refine ⟨up, ?_⟩ <;> first | decide +kernel | rfl | exact (fun _ h => nomatch h)

theorem test_suppliesAreJudged_10 : ∃ (s : State),
    (poweredOn s = true) ∧
    (dieAlive s = true) ∧
    (s.pow.pf = none) ∧
    (s.pow.pwrA.valid = false) ∧
    (s.pow.pwrB.valid = false) := by
  refine ⟨up, ?_, ?_, ?_, ?_, ?_⟩ <;> first | decide +kernel | rfl | exact (fun _ h => nomatch h)

theorem test_suppliesAreJudged_11 : ∃ (s : State),
    (poweredOn s = true) ∧
    (dieAlive s = false) ∧
    (s.pow.pf = none) ∧
    (s.pow.pwrA.valid = false) ∧
    (s.pow.pwrB.valid = false) := by
  refine ⟨{ up with pow.state := .boot, pow.railsOk := false }, ?_, ?_, ?_, ?_, ?_⟩ <;>
    first | decide +kernel | rfl | exact (fun _ h => nomatch h)

theorem test_suppliesAreJudged_12 : ∃ (atThreshold : Bool) (s : State),
    (poweredOn s = true) ∧
    (s.pow.pf.isSome = true) ∧
    (atThreshold = true ∨ heldFor s s.pow.pf 8 = true) ∧
    (1800 ≤ s.pow.vbak.mv) ∧
    (s.pow.latch = true) := by
  refine ⟨false, { up with pow.pf := some 999992, pow.vbak := { mv := 1800 }, pow.latch := true }, ?_, ?_, ?_, ?_, ?_⟩ <;>
    first | decide +kernel | rfl | exact (fun _ h => nomatch h)

theorem test_suppliesAreJudged_13 : ∃ (atThreshold : Bool) (s : State),
    (poweredOn s = true) ∧
    (s.pow.pf.isSome = true) ∧
    (atThreshold = true ∨ heldFor s s.pow.pf 8 = true) ∧
    (1800 ≤ s.pow.vbak.mv) ∧
    (s.pow.latch = false) := by
  refine ⟨false, { up with pow.pf := some 999992, pow.vbak := { mv := 1800 } }, ?_, ?_, ?_, ?_, ?_⟩ <;>
    first | decide +kernel | rfl | exact (fun _ h => nomatch h)

theorem test_suppliesAreJudged_14 : ∃ (atThreshold : Bool) (s : State),
    (poweredOn s = true) ∧
    (s.pow.pf.isSome = true) ∧
    (atThreshold = true ∨ heldFor s s.pow.pf 8 = true) ∧
    (s.pow.vbak.mv < 1800) := by
  refine ⟨true, { up with pow.pf := some 1000000, pow.vbak := { mv := 1799 } }, ?_, ?_, ?_, ?_⟩ <;>
    first | decide +kernel | rfl | exact (fun _ h => nomatch h)

theorem test_suppliesAreJudged_15 : ∃ (s : State),
    (poweredOn s = true) := by
  refine ⟨up, ?_⟩ <;> first | decide +kernel | rfl | exact (fun _ h => nomatch h)

theorem test_suppliesAreJudged_16 : ∃ (s : State) (r : Bool × State),
    (dieAlive s = true) ∧
    (s.pow.copyAt + 60000 ≤ s.mono) ∧
    (r = chargeMram { cls := 3, bytes := 12, cargo := .factory none } s) := by
  refine ⟨up, _, ?_, ?_, rfl⟩ <;> first | decide +kernel | rfl | exact (fun _ h => nomatch h)

theorem test_suppliesAreJudged_17 : ∃ (s : State),
    (s.pow.state = .backup) ∧
    (s.pow.pwrA.valid = false) ∧
    (s.pow.pwrB.valid = false) := by
  refine ⟨{ up with pow.state := .backup }, ?_, ?_, ?_⟩ <;> first | decide +kernel | rfl | exact (fun _ h => nomatch h)

theorem test_moduleStatesFollowTheirEvents_1 : ∃ (s : State),
    (poweredOn s = false) ∧
    (s.pow.pwrA.valid = true ∨ s.pow.pwrB.valid = true) := by
  refine ⟨{ up with pow.state := .off, pow.pwrA := { valid := true } }, ?_, ?_⟩ <;>
    first | decide +kernel | rfl | exact (fun _ h => nomatch h)

theorem test_moduleStatesFollowTheirEvents_2 : ∃ (b : BootIn) (s : State),
    (poweredOn s = false) ∧
    (s.pow.pwrA.valid = true ∨ s.pow.pwrB.valid = true) ∧
    (b.railsOk = true) := by
  refine ⟨{}, { up with pow.state := .backup, pow.pwrB := { valid := true } }, ?_, ?_, ?_⟩ <;>
    first | decide +kernel | rfl | exact (fun _ h => nomatch h)

theorem test_moduleStatesFollowTheirEvents_3 : ∃ (b : BootOut) (s : State),
    (s.pow.state = .boot) ∧
    (s.pow.bootKind = 0) ∧
    (s.pow.railsOk = true) ∧
    (s.pow.rstLow = false) ∧
    (b.junctionOk = true) ∧
    (2 ≤ nServing (bootSteps b s)) := by
  refine ⟨{}, { up with pow.state := .boot, pow.bootKind := 0, pow.railsOk := true }, ?_, ?_, ?_, ?_, ?_, ?_⟩ <;>
    first | decide +kernel | rfl | exact (fun _ h => nomatch h)

theorem test_moduleStatesFollowTheirEvents_4 : ∃ (b : BootOut) (s : State),
    (s.pow.state = .boot) ∧
    (s.pow.bootKind = 0) ∧
    (s.pow.railsOk = true) ∧
    (s.pow.rstLow = false) ∧
    (b.junctionOk = false) := by
  refine ⟨{ junctionOk := false }, { up with
      pow.state := .boot, pow.bootKind := 0, pow.railsOk := true }, ?_, ?_, ?_, ?_, ?_⟩ <;>
    first | decide +kernel | rfl | exact (fun _ h => nomatch h)

theorem test_moduleStatesFollowTheirEvents_5 : ∃ (b : BootOut) (s : State),
    (s.pow.state = .boot) ∧
    (s.pow.bootKind = 0) ∧
    (s.pow.railsOk = true) ∧
    (s.pow.rstLow = false) ∧
    (b.junctionOk = true) ∧
    (nServing (bootSteps b s) < 2) := by
  refine ⟨{ lanesOk := ⟨true, false, false⟩ }, { up with
      pow.state := .boot, pow.bootKind := 0, pow.railsOk := true }, ?_, ?_, ?_, ?_, ?_, ?_⟩ <;>
    first | decide +kernel | rfl | exact (fun _ h => nomatch h)

theorem test_moduleStatesFollowTheirEvents_6 : ∃ (s : State),
    (s.pow.state = .ready) ∧
    (s.cons.role = .layover ∨ s.cons.role = .witness) ∧
    (atBoundary s = true) := by
  refine ⟨{ up with pow.state := .ready, cons.role := .witness }, ?_, ?_, ?_⟩ <;>
    first | decide +kernel | rfl | exact (fun _ h => nomatch h)

theorem test_moduleStatesFollowTheirEvents_7 : ∃ (s : State),
    (s.pow.state = .layover) ∧
    (s.pow.resetLanes = true) ∧
    (s.sb.state = .run) ∧
    (atBoundary s = true) := by
  refine ⟨{ up with pow.state := .layover, pow.resetLanes := true, sb.state := .run }, ?_, ?_, ?_, ?_⟩ <;>
    first | decide +kernel | rfl | exact (fun _ h => nomatch h)

theorem test_moduleStatesFollowTheirEvents_8 : ∃ (lowUs : Nat) (s : State),
    (10 ≤ lowUs) ∧
    (poweredOn s = true) ∧
    (s.pow.rstLow = false) ∧
    (s.pow.railsDead = false) := by
  refine ⟨10, up, ?_, ?_, ?_, ?_⟩ <;> first | decide +kernel | rfl | exact (fun _ h => nomatch h)

theorem test_moduleStatesFollowTheirEvents_9 : ∃ (s : State),
    (s.pow.state = .boot) ∧
    (s.pow.rstLow = true) := by
  refine ⟨{ up with pow.state := .boot, pow.rstLow := true }, ?_, ?_⟩ <;>
    first | decide +kernel | rfl | exact (fun _ h => nomatch h)

theorem test_moduleStatesFollowTheirEvents_10 : ∃ (s : State),
    (s.pow.state = .boot) ∧
    (s.pow.bootKind = 0) ∧
    (s.pow.rstLow = false) ∧
    (s.pow.railsDead = false) ∧
    (s.time.running = false ∨ s.pow.bootAt + 2000 ≤ s.mono) ∧
    (s.pow.watchdog < 3) := by
  refine ⟨{ up with
      pow.state := .boot, pow.bootKind := 0, pow.railsOk := false, pow.bootAt := 998000, pow.watchdog := 2 }, ?_, ?_, ?_, ?_,
      ?_, ?_⟩ <;>
    first | decide +kernel | rfl | exact (fun _ h => nomatch h)

theorem test_moduleStatesFollowTheirEvents_11 : ∃ (s : State),
    (s.pow.state = .boot) ∧
    (s.pow.bootKind = 0) ∧
    (s.pow.rstLow = false) ∧
    (s.pow.railsDead = false) ∧
    (s.time.running = false ∨ s.pow.bootAt + 2000 ≤ s.mono) ∧
    (3 ≤ s.pow.watchdog) := by
  refine ⟨{ up with
      pow.state := .boot, pow.bootKind := 0, pow.railsOk := false, pow.bootAt := 998000, pow.watchdog := 3 }, ?_, ?_, ?_, ?_,
      ?_, ?_⟩ <;>
    first | decide +kernel | rfl | exact (fun _ h => nomatch h)

theorem test_moduleStatesFollowTheirEvents_12 : ∃ (s : State),
    (s.pow.state = .fault) ∧
    (s.image.consist.faultRestart = true) ∧
    (heldFor s s.pow.silentAt 60000 = true) ∧
    ((recentRestarts s).length < 3) := by
  refine ⟨{ up with pow.state := .fault, image.consist.faultRestart := true, pow.silentAt := some 940000 }, ?_, ?_, ?_, ?_⟩ <;>
    first | decide +kernel | rfl | exact (fun _ h => nomatch h)

theorem test_repliesAreStored_1 : ∃ (k : Nat) (p : Packet) (d : Done) (x : Session) (t : Slot),
    (d.status ≠ 2) ∧
    (d.state.host.sessions.getD k none = some x) ∧
    (slotOf x p.tag = some t) ∧
    (t.sequence = p.sequence) ∧
    (t.done = false) := by
  refine ⟨0, {}, { status := 0, state := { up with
      host.sessions := [some { slots := [{}] }] } }, { slots := [{}] }, {}, ?_, ?_, ?_, ?_, ?_⟩ <;>
    first | decide +kernel | rfl | exact (fun _ h => nomatch h)

theorem test_setsAreOrdered_1 : ∃ (l : List InRecord),
    (l.Pairwise (fun x y => x.stampNs < y.stampNs ∨ (x.stampNs = y.stampNs ∧ x.link ≤ y.link))) := by
  refine ⟨[{ stampNs := 5, link := 1 }, { stampNs := 7 }], ?_⟩ <;> first | decide +kernel | rfl | exact (fun _ h => nomatch h)

theorem test_fullStampQueuesDropTheNewest_1 : ∃ (port : Nat) (s : State) (q : StampQ),
    (s.time.stamps[port]? = some q) ∧
    (16 ≤ q.entries.length) := by
  refine ⟨11, { up with
      time.stamps := List.replicate 12 { entries := List.replicate 16 {} } }, { entries := List.replicate 16 {} }, ?_, ?_⟩ <;>
    first | decide +kernel | rfl | exact (fun _ h => nomatch h)

theorem test_fullStampQueuesDropTheNewest_2 : ∃ (port : Nat) (s : State) (q : StampQ),
    (s.time.stamps[port]? = some q) ∧
    (q.entries.length < 16) := by
  refine ⟨0, { up with
      time.stamps := List.replicate 12 { entries := List.replicate 15 {} } }, { entries := List.replicate 15 {} }, ?_, ?_⟩ <;>
    first | decide +kernel | rfl | exact (fun _ h => nomatch h)

theorem test_fullStampQueuesDropTheNewest_3 : ∃ (p : Packet) (s : State) (q : StampQ),
    (fieldByte p.payload 0 ≤ 11) ∧
    (1 ≤ fieldByte p.payload 1) ∧
    (fieldByte p.payload 1 ≤ 16) ∧
    (s.time.stamps[fieldByte p.payload 0]? = some q) := by
  refine ⟨{ payload := [11, 16] }, up, {}, ?_, ?_, ?_, ?_⟩ <;> first | decide +kernel | rfl | exact (fun _ h => nomatch h)

theorem test_everyPacketRunsItsOpcode : ∃ r ∈ opRows, Reached r.op r.spec (fun _ _ _ => True) r.spec.run :=
  ⟨⟨0x0101, pingSpec, .ping⟩, by simp [opRows, opRows1], reached (List.replicate 4076 9) up (by decide +kernel) (by decide +kernel)
    (by decide +kernel) (by decide +kernel) (by decide +kernel) trivial (by decide +kernel)⟩

theorem test_everyPacketRunsItsOpcode_1 : ∃ (spec : OpSpec) (p : Packet) (s : State) (k : Nat) (x : Session) (u : State),
    opTable p.opcode = some spec ∧ Taken spec p s k x u ∧ 24 + (spec.run k p u).result.length ≤ x.maxPacket ∧
    (spec.run k p u).result.length ≤ 4076 :=
  ⟨pingSpec, pkt 0x0101 (List.replicate 4076 9), withSession up, 0, sess, atFields (pkt 0x0101 (List.replicate 4076 9)) up, rfl,
    pkt_taken _ _ _ _ (by decide) (by decide) (by decide +kernel) (by decide +kernel) (by decide +kernel), by decide +kernel,
    by decide +kernel⟩

theorem test_everyPacketRunsItsOpcode_2 : ∃ (p : Packet) (s : State) (k : Nat) (x y : Session), opTable p.opcode = none ∧
    junctionUp s = true ∧ p.session ≠ 0 ∧ sessionOf s p.session = some (k, x) ∧ x.seq < p.sequence ∧ 24 ≤ x.maxPacket ∧
    slotless p.opcode = false ∧ takeSlot { x with seq := p.sequence, lastAt := s.mono, src := p.src }
      { tag := p.tag, opcode := p.opcode, noReply := noReply p, queue := p.queue, sequence := p.sequence } = some y :=
  ⟨pkt 0x0109 [], withSession up, 0, sess, _, rfl, by decide, by decide, rfl, by decide, by decide, by decide, rfl⟩

theorem test_everyPacketRunsItsOpcode_3 : ∃ (p : Packet) (s : State) (k : Nat) (x : Session), junctionUp s = true ∧
    p.session ≠ 0 ∧ sessionOf s p.session = some (k, x) ∧ p.sequence ≤ x.seq :=
  ⟨{ pkt 0x0101 [] with sequence := 0 }, withSession up, 0, sess, by decide, by decide, rfl, by decide⟩

theorem test_systemCommandsAnswer_1 : Reached 0x0101 pingSpec
    (fun _ _ _ => True)
    (fun _ p u => { status := 0, result := p.payload, state := u }) := by
  refine ?_
  refine reached ([1, 2, 3]) up ?_ ?_ ?_ ?_ ?_ ?_ ?_
  case refine_6 => first | trivial | decide +kernel
  all_goals decide +kernel

theorem test_systemCommandsAnswer_2 : Reached 0x0102 getIdentitySpec
    (fun _ _ _ => True)
    (fun _ _ u => { status := 0, result := identityResult u, state := u }) := by
  refine ?_
  refine reached ([]) up ?_ ?_ ?_ ?_ ?_ ?_ ?_
  case refine_6 => first | trivial | decide +kernel
  all_goals decide +kernel

theorem test_systemCommandsAnswer_4 : Reached 0x0104 closeSessionSpec
    (fun _ _ _ => True)
    (fun k _ u => { status := 0, state := closeSession k 2 u }) := by
  refine ?_
  refine reached ([]) up ?_ ?_ ?_ ?_ ?_ ?_ ?_
  case refine_6 => first | trivial | decide +kernel
  all_goals decide +kernel

theorem test_systemCommandsAnswer_5 : ∃ r : Slot, Reached 0x0105 getResultSpec
    (fun k p u => (u.host.sessions.getD k none).bind (fun x => slotOf x (fieldNat p.payload 0 2)) = some r ∧ r.done = true)
    (fun k p u =>
      { status := if r.reads = 0 then 0 else 3, reads := sat 16 (r.reads + 1)
        result := leBytes 2 r.tag ++ leBytes 2 r.opcode ++ leBytes 2 r.status ++ zeros 2 ++ r.result
        state := onSlot k (fieldNat p.payload 0 2) (fun y => { y with reads := sat 16 (y.reads + 1) }) u }) := by
  refine ⟨{ tag := 3, done := true }, ?_⟩
  refine reached ([3, 0, 0, 0]) up ?_ ?_ ?_ ?_ ?_ ?_ ?_
  case refine_6 => first | trivial | decide +kernel
  all_goals decide +kernel

theorem test_systemCommandsAnswer_6 : ∃ x : Session, Reached 0x0106 ackResultSpec
    (fun k p u => 1 ≤ fieldByte p.payload 0 ∧ fieldByte p.payload 0 ≤ 32 ∧ u.host.sessions.getD k none = some x)
    (fun k p u =>
      let tags := (List.range (fieldByte p.payload 0)).map (fun i => fieldNat p.payload (2 + 2 * i) 2)
      { status := 0, result := leBytes 1 (x.slots.filter (fun r => tags.contains r.tag)).length ++ zeros 3
        state := onSession k (fun y => { y with slots := y.slots.filter (fun r => !tags.contains r.tag) }) u }) := by
  refine ⟨((atFields (pkt 0x0106 [1, 0, 3, 0]) up).host.sessions.getD 0 none).getD {}, ?_⟩
  refine reached ([1, 0, 3, 0]) up ?_ ?_ ?_ ?_ ?_ ?_ ?_
  case refine_6 => first | trivial | decide +kernel
  all_goals decide +kernel

theorem test_systemCommandsAnswer_7 : Reached 0x0107 getStateSpec
    (fun _ _ _ => True)
    (fun k _ u => { status := 0, result := u.host.stSnap.take 29 ++ leBytes 1 k ++ u.host.stSnap.drop 30, state := u }) := by
  refine ?_
  refine reached ([]) up ?_ ?_ ?_ ?_ ?_ ?_ ?_
  case refine_6 => first | trivial | decide +kernel
  all_goals decide +kernel

theorem test_systemCommandsAnswer_8 : Reached 0x0108 setModeSpec
    (fun _ p u => fieldByte p.payload 0 < 5 ∧ u.pow.state = .active ∧
      modeMet u (dpModeOf (fieldByte p.payload 0)) (fieldByte p.payload 1) = true ∧ u.set.mode ≠ dpModeOf (fieldByte p.payload 0))
    (fun _ p u =>
      { status := 1, result := leBytes 1 u.set.mode.code ++ leBytes 1 (fieldByte p.payload 0) ++ zeros 2 ++ leBytes 4 (effectFrame u)
        state := defer (.mode (dpModeOf (fieldByte p.payload 0)) (fieldByte p.payload 1)) u }) := by
  refine ?_
  refine reached ([2, 0, 0, 0]) { up with set.mode := .autoPosition, image.ctl.joystick := [some 1, some 2, some 3], ref.votes := List.replicate 6 { value := some 1 } } ?_ ?_ ?_ ?_ ?_ ?_ ?_
  case refine_6 => first | trivial | decide +kernel
  all_goals decide +kernel

theorem test_imageCommandsAnswer_1 : Reached 0x0201 imageBeginSpec
    (fun _ p u => 4096 ≤ fieldNat p.payload 0 4 ∧ fieldNat p.payload 0 4 ≤ 8388608 ∧ u.host.commit = none ∧ u.host.transfer = none)
    (fun k p u =>
      let x : Transfer :=
        { session := k, slot := targetSlot u, length := fieldNat p.payload 0 4, digest := (p.payload.drop 8).take 32, lastAt := u.mono }
      { status := 0, result := leBytes 1 (targetSlot u) ++ zeros 3 ++ leBytes 4 0
        state := onImgSlot (targetSlot u) (fun y => { y with state := 1, length := fieldNat p.payload 0 4, next := 0 })
          { u with host.transfer := some x } }) := by
  refine ?_
  refine reached ([0, 16] ++ zeros 38) up ?_ ?_ ?_ ?_ ?_ ?_ ?_
  case refine_6 => first | trivial | decide +kernel
  all_goals decide +kernel

theorem test_imageCommandsAnswer_2 : ∃ x : Transfer, Reached 0x0202 (imageChunkSpec true)
    (fun k p u => u.host.transfer = some x ∧ x.session = k ∧ u.host.commit = none ∧ fieldNat p.payload 0 4 = x.next ∧
      9 ≤ p.payload.length ∧ p.payload.length ≤ 4080 ∧ x.next + (p.payload.length - 8) ≤ x.length)
    (fun k p u => acceptChunk k p x x.next (p.payload.drop 8) u) := by
  refine ⟨{ length := 4096 }, ?_⟩
  refine reached ([0, 0, 0, 0, 1, 0, 0, 0, 9]) { up with host.transfer := some { length := 4096 } } ?_ ?_ ?_ ?_ ?_ ?_ ?_
  case refine_6 => first | trivial | decide +kernel
  all_goals decide +kernel

theorem test_imageCommandsAnswer_3 : Reached 0x0203 imageCommitSpec
    (fun k _ u => (u.pow.state = .ready ∨ u.pow.state = .commissioning ∨ u.cons.role = .layover ∨ u.cons.role = .witness) ∧
      u.host.commit = none ∧ ∃ x, u.host.transfer = some x ∧ x.session = k)
    (fun k p u => { status := 2, state := { u with host.commit := some (taskOf k p, u.mono) } }) := by
  refine ?_
  refine reached ([]) { up with pow.state := .ready, host.transfer := some {} } ?_ ?_ ?_ ?_ ?_ ?_ ?_
  case refine_6 => first | trivial | decide +kernel
  all_goals decide +kernel

theorem test_imageCommandsAnswer_4 : Reached 0x0204 imageInfoSpec
    (fun _ _ _ => True)
    (fun _ _ u => { status := 0, result := imageEntry u 0 ++ imageEntry u 1, state := u }) := by
  refine ?_
  refine reached ([]) up ?_ ?_ ?_ ?_ ?_ ?_ ?_
  case refine_6 => first | trivial | decide +kernel
  all_goals decide +kernel

theorem test_referenceCommandsAnswer_1 : ∃ on : Bool, Reached (if on then 0x0301 else 0x0302) (refSetSpec on)
    (fun _ p u => fieldByte p.payload 0 ≤ 1 ∧ fieldByte p.payload 1 ≤ (if fieldByte p.payload 0 = 1 then 23 else 15) ∧
      unitDefined u (fieldByte p.payload 0 = 1) (fieldByte p.payload 1) = true ∧
      (unitOf u (fieldByte p.payload 0 = 1) (fieldByte p.payload 1)).enabled ≠ on)
    (fun _ p u =>
      { status := 1
        result := leBytes 1 (fieldByte p.payload 0) ++ leBytes 1 (fieldByte p.payload 1) ++
          leBytes 1 (unitOf u (fieldByte p.payload 0 = 1) (fieldByte p.payload 1)).state.code ++ zeros 1 ++ leBytes 4 (effectFrame u)
        state := defer (.refSet (fieldByte p.payload 0 = 1) (fieldByte p.payload 1) on) u }) := by
  refine ⟨true, ?_⟩
  refine reached ([0, 15, 0, 0]) { up with image.ref.refs := List.replicate 16 (some {}) } ?_ ?_ ?_ ?_ ?_ ?_ ?_
  case refine_6 => first | trivial | decide +kernel
  all_goals decide +kernel

theorem test_referenceCommandsAnswer_2 : Reached 0x0303 refStatusSpec
    (fun _ p u => fieldByte p.payload 0 ≤ 1 ∧ unitDefined u (fieldByte p.payload 0 = 1) (fieldByte p.payload 1) = true)
    (fun _ p u =>
      { status := 0, result := leBytes 1 1 ++ zeros 3 ++ refEntry u (fieldByte p.payload 0 = 1) (fieldByte p.payload 1), state := u }) := by
  refine ?_
  refine reached ([0, 15, 0, 0]) { up with image.ref.refs := List.replicate 16 (some {}) } ?_ ?_ ?_ ?_ ?_ ?_ ?_
  case refine_6 => first | trivial | decide +kernel
  all_goals decide +kernel

theorem test_referenceCommandsAnswer_3 : Reached 0x0304 leverGetSpec
    (fun _ p u => fieldByte p.payload 0 ≠ 255 ∧ unitDefined u false (fieldByte p.payload 0) = true)
    (fun _ p u => { status := 0, result := leBytes 1 1 ++ zeros 3 ++ leverEntry u (fieldByte p.payload 0), state := u }) := by
  refine ?_
  refine reached ([15, 0, 0, 0]) { up with image.ref.refs := List.replicate 16 (some {}) } ?_ ?_ ?_ ?_ ?_ ?_ ?_
  case refine_6 => first | trivial | decide +kernel
  all_goals decide +kernel

theorem test_referenceCommandsAnswer_4 : ∃ v : Lever, Reached 0x0305 leverFreezeSpec
    (fun _ p u => unitDefined u false (fieldByte p.payload 0) = true ∧ fieldByte p.payload 1 ≤ 2 ∧
      v = (u.ref.refs.getD (fieldByte p.payload 0) {}).lever ∧ v.state ≠ 0 ∧ v.state ≠ 5 ∧
      leverAlready (fieldByte p.payload 1) v = false)
    (fun _ p u => { status := 1, result := leverBytes u (fieldByte p.payload 0) (u.ref.leverSnap.getD (fieldByte p.payload 0) {}),
                    state := defer (.lever (fieldByte p.payload 0) (fieldByte p.payload 1)) u }) := by
  refine ⟨{ state := 1 }, ?_⟩
  refine reached ([15, 0, 0, 0]) { up with image.ref.refs := List.replicate 16 (some {}), ref.refs := List.replicate 16 { lever := { state := 1 } } } ?_ ?_ ?_ ?_ ?_ ?_ ?_
  case refine_6 => first | trivial | decide +kernel
  all_goals decide +kernel

theorem test_referenceCommandsAnswer_5 : Reached 0x0306 trackReadSpec
    (fun _ p _ => 1 ≤ fieldByte p.payload 1 ∧ fieldByte p.payload 0 + fieldByte p.payload 1 ≤ 96)
    (fun _ p u =>
      let l := ((List.range (fieldByte p.payload 1)).map (· + fieldByte p.payload 0)).filter (fun j =>
        (fieldByte p.payload 2).testBit 0 || (u.ref.tracks.getD j {}).live)
      { status := 0
        result := leBytes 1 l.length ++ zeros 1 ++ leBytes 2 (u.ref.tracks.filter Track.live).length ++
          leBytes 4 u.ref.overflow ++ leBytes 4 u.ref.rowDrops ++ (l.map (trackEntry u)).flatten
        state := u }) := by
  refine ?_
  refine reached ([95, 1, 1, 0]) up ?_ ?_ ?_ ?_ ?_ ?_ ?_
  case refine_6 => first | trivial | decide +kernel
  all_goals decide +kernel

theorem test_referenceCommandsAnswer_6 : Reached 0x0401 fusionStatusSpec
    (fun _ _ _ => True)
    (fun _ _ u => { status := 0, result := fusionResult u, state := u }) := by
  refine ?_
  refine reached ([]) up ?_ ?_ ?_ ?_ ?_ ?_ ?_
  case refine_6 => first | trivial | decide +kernel
  all_goals decide +kernel

theorem test_referenceCommandsAnswer_7 : Reached 0x0402 gridSnapshotSpec
    (fun _ p _ => 1 ≤ fieldByte p.payload 4 ∧ fieldByte p.payload 4 ≤ 44 ∧ 1 ≤ fieldByte p.payload 5 ∧ fieldByte p.payload 5 ≤ 44 ∧
      fieldByte p.payload 6 = 1 ∧ fieldByte p.payload 7 = 0 ∧ fieldNat p.payload 0 2 + fieldByte p.payload 4 ≤ gridSize ∧
      fieldNat p.payload 2 2 + fieldByte p.payload 5 ≤ gridSize)
    (fun _ p u =>
      let g := u.fus.grids.getD (u.fus.heldBuf.getD u.fus.cur) {}
      let r0 := fieldNat p.payload 0 2
      let c0 := fieldNat p.payload 2 2
      { status := 0
        result := leBytes 8 g.frame ++ f64Bytes g.n ++ f64Bytes g.e ++ leBytes 2 r0 ++ leBytes 2 c0 ++
          leBytes 1 (fieldByte p.payload 4) ++ leBytes 1 (fieldByte p.payload 5) ++ leBytes 1 1 ++
          leBytes 1 (if u.fus.heldBuf.isSome then 1 else 0) ++
          ((List.range (fieldByte p.payload 4)).map (fun i => ((List.range (fieldByte p.payload 5)).map (fun j =>
            leBytes 2 (blockMin g 1 (r0 + i * 1) (c0 + j * 1)))).flatten)).flatten
        state := u }) := by
  refine ?_
  refine reached ([0, 0, 0, 0, 44, 44, 1, 0]) up ?_ ?_ ?_ ?_ ?_ ?_ ?_
  case refine_6 => first | trivial | decide +kernel
  all_goals decide +kernel

theorem test_referenceCommandsAnswer_8 : Reached 0x0403 conflictResolveSpec
    (fun _ p u => fieldByte p.payload 0 = 1 ∧ (bitsOf 16 (fieldNat p.payload 2 2)).any (fun i => !(unitDefined u false i)) = false)
    (fun _ p u =>
      { status := 1
        result := leBytes 2 (maskOf (if u.fus.conflict then u.fus.parties else [])) ++
          leBytes 2 (maskOf (excludedRefs u ++ bitsOf 16 (fieldNat p.payload 2 2))) ++ leBytes 4 (effectFrame u)
        state := defer (.resolve 1 (bitsOf 16 (fieldNat p.payload 2 2))) u }) := by
  refine ?_
  refine reached ([1, 0, 0, 128]) { up with image.ref.refs := List.replicate 16 (some {}) } ?_ ?_ ?_ ?_ ?_ ?_ ?_
  case refine_6 => first | trivial | decide +kernel
  all_goals decide +kernel

theorem test_referenceCommandsAnswer_9 : ∃ n e v r : Qty, Reached 0x0404 setpointSetSpec
    (fun _ p _ => fieldByte p.payload 0 = 0 ∧ fieldByte p.payload 1 = 0 ∧ fieldF64 p.payload 4 = some n ∧
      fieldF64 p.payload 12 = some e ∧ fieldF32 p.payload 24 = some v ∧ fieldF32 p.payload 28 = some r ∧ 0 ≤ v ∧ v ≤ 2 ∧ 0 ≤ r)
    (fun _ p u =>
      { status := 1, result := setpointResult u (u.obs.n, u.obs.e) (curTarget u) (speedOf u.image.fusion.vMax v)
        state := defer (.setPosition 0 n e (bamDeg (fieldNat p.payload 20 4)) v r) u }) := by
  refine ⟨10, -5, 2, 0, ?_⟩
  refine reached (zeros 10 ++ [36, 64, 0, 0, 0, 0, 0, 0, 20, 192, 0, 0, 0, 64, 0, 0, 0, 64, 0, 0, 0, 0]) up ?_ ?_ ?_ ?_ ?_ ?_ ?_
  case refine_6 => first | trivial | decide +kernel
  all_goals decide +kernel

theorem test_controlCommandsAnswer_1 : Reached 0x0501 loopBankWriteSpec
    (fun _ p u => fieldByte p.payload 0 ≤ 1 ∧ fieldNat p.payload 4 2 % 4 = 0 ∧ fieldNat p.payload 6 2 % 4 = 0 ∧
      4 ≤ fieldNat p.payload 6 2 ∧ fieldNat p.payload 6 2 ≤ 4072 ∧
      fieldNat p.payload 4 2 + fieldNat p.payload 6 2 ≤ 0x3FFC ∧ u.ctl.swap = none ∧ fieldByte p.payload 0 ≠ u.ctl.active ∧
      fieldByte p.payload 0 ≠ u.ctl.activeLoop)
    (fun _ p u =>
      let bank := fieldByte p.payload 0
      let m := sealBank (memWriteAll (u.ctl.banks.getD bank []) (fieldNat p.payload 4 2) (p.payload.drop 8))
      let v := { u with ctl.banks := u.ctl.banks.set bank m }
      { status := 0, result := leBytes 4 (bankCrc v bank) ++ leBytes 2 (fieldNat p.payload 4 2) ++ leBytes 2 (fieldNat p.payload 6 2)
        state := v }) := by
  refine ?_
  refine reached ([1, 0, 0, 0, 248, 63, 4, 0, 1, 2, 3, 4]) up ?_ ?_ ?_ ?_ ?_ ?_ ?_
  case refine_6 => first | trivial | decide +kernel
  all_goals decide +kernel

theorem test_controlCommandsAnswer_2 : Reached 0x0502 loopBankSwapSpec
    (fun _ p u => fieldByte p.payload 0 = 1 ∧ fieldByte p.payload 1 ≤ 1 ∧ fieldByte p.payload 2 ≤ 9 ∧
      bankCrc u (fieldByte p.payload 1) = fieldNat p.payload 4 4 ∧ kindsMatch u (fieldByte p.payload 1) = true ∧
      axisFieldsOk u (fieldByte p.payload 1) = true ∧ compFieldsOk u (fieldByte p.payload 1) = true ∧
      loopFieldsOk u (fieldByte p.payload 1) = true ∧ inEnvelope u (fieldByte p.payload 1) = true ∧ u.ctl.swap = none ∧
      fieldByte p.payload 1 ≠ u.ctl.active)
    (fun _ p u =>
      let w : Swap := { bank := fieldByte p.payload 1, tick := fieldByte p.payload 2, frame := effectFrame u, axesDone := false }
      let v := defer .swapAxes { u with ctl.swap := some w }
      { status := 1, result := swapResult v, state := v }) := by
  refine ?_
  refine reached ([1, 1, 9, 0, 0, 0, 0, 0]) { up with ctl.banks := [[], [(26, 128), (27, 63), (30, 128), (31, 63), (38, 128), (39, 63), (74, 128), (75, 63), (78, 128), (79, 63), (86, 128), (87, 63), (122, 128), (123, 63), (126, 128), (127, 63), (134, 128), (135, 63)]] } ?_ ?_ ?_ ?_ ?_ ?_ ?_
  case refine_6 => first | trivial | decide +kernel
  all_goals decide +kernel

theorem test_controlCommandsAnswer_3 : ∃ j : Inject, Reached 0x0503 injectStartSpec
    (fun _ p u => fieldByte p.payload 3 ≤ 4 ∧ fieldByte p.payload 0 ≤ 2 ∧ injOfPayload p.payload = some j ∧ injRangeBad j = false ∧
      (j.target = 2 ∨ (loopBind u j.index j.slot).isSome = true) ∧ (j.capture = true →
        j.signals.all capClassOk = true ∧ j.signals.all capSigOk = true) ∧ u.ctl.inj.job = none ∧
      injAllowed u j = true ∧ (j.waveform = 4 ∨ absQ j.amplitude ≤ injLimit u j))
    (fun _ _ u =>
      { status := 1, result := leBytes 4 (injStartFrame u j) ++ leBytes 1 j.startTick ++ zeros 3
        state := defer (.inject j) { u with ctl.inj.job := some j, ctl.inj.live := false, ctl.inj.running := false } }) := by
  refine ⟨{ target := 2, index := 2, duration := 300, f0 := 1, f1 := 1, startTick := 9, signals := List.replicate 8 (0, 0, 0, 0) }, ?_⟩
  refine reached ([2, 2, 0, 4, 0, 0, 0, 0, 0, 0, 150, 67, 0, 0, 128, 63, 0, 0, 128, 63, 7, 1, 9] ++ zeros 33 ++ [1, 0, 0, 0, 0, 0, 0, 0]) { up with set.mode := .autoPosition } ?_ ?_ ?_ ?_ ?_ ?_ ?_
  case refine_6 => first | trivial | decide +kernel
  all_goals decide +kernel

theorem test_controlCommandsAnswer_4 : Reached 0x0504 captureReadSpec
    (fun _ p _ => fieldByte p.payload 0 = 0)
    (fun _ p u =>
      let c := u.ctl.inj
      let rows := ((c.samples.reverse).drop (fieldNat p.payload 2 2)).take (fieldNat p.payload 4 2)
      { status := 0
        result := leBytes 1 c.capState ++ leBytes 1 c.reason ++ leBytes 2 rows.length ++ leBytes 4 c.samples.length ++
          leBytes 4 c.trigger ++ leBytes 4 c.trigFrame ++ leBytes 2 c.decim ++ leBytes 1 0 ++ zeros 1 ++
          ((List.range 8).map (fun k => f32Bytes (match c.sigs[k]? with
            | some g => if g.2.2.2 = 0 then 0 else capScale u g
            | none => 0))).flatten ++ zeros 4 ++ (rows.map (fun _ => [])).flatten
        state := u }) := by
  refine ?_
  refine reached (zeros 8) up ?_ ?_ ?_ ?_ ?_ ?_ ?_
  case refine_6 => first | trivial | decide +kernel
  all_goals decide +kernel

theorem test_controlCommandsAnswer_5 : ∃ x : Qty, Reached 0x0505 repetitiveSpec
    (fun _ p u => fieldByte p.payload 0 = 1 ∧ fieldByte p.payload 1 ≤ 7 ∧ fieldByte p.payload 2 ≤ 4 ∧ fieldByte p.payload 3 ≤ 1 ∧
      fieldF32 p.payload 4 = some x ∧ fieldByte p.payload 8 ≤ 127 ∧ 2 ≤ x ∧ x ≤ 120 ∧
      (fieldByte p.payload 3 = 1 → pulseInput u (fieldByte p.payload 8) = true) ∧
      (applyRepetitive (fieldByte p.payload 1) (fieldByte p.payload 2) (fieldByte p.payload 3) x (fieldByte p.payload 8) u).ctl.axes
        ≠ u.ctl.axes)
    (fun _ p u =>
      { status := 1, result := repResult u
        state := defer (.repetitive (fieldByte p.payload 1) (fieldByte p.payload 2) (fieldByte p.payload 3) x (fieldByte p.payload 8)) u }) := by
  refine ⟨2, ?_⟩
  refine reached ([1, 7, 1, 0, 0, 0, 0, 64, 127, 0, 0, 0]) up ?_ ?_ ?_ ?_ ?_ ?_ ?_
  case refine_6 => first | trivial | decide +kernel
  all_goals decide +kernel

theorem test_controlCommandsAnswer_6 : Reached 0x0601 allocStatusSpec
    (fun _ _ _ => True)
    (fun _ _ u => { status := 0, result := allocHeader u ++ ((cfgThrs u).map (fun x => allocEntry u x.1 x.2)).flatten, state := u }) := by
  refine ?_
  refine reached ([]) up ?_ ?_ ?_ ?_ ?_ ?_ ?_
  case refine_6 => first | trivial | decide +kernel
  all_goals decide +kernel

theorem test_controlCommandsAnswer_7 : Reached 0x0602 thrusterEnableSpec
    (fun _ p u => fieldByte p.payload 0 ≤ 31 ∧
      (∃ c, thrCfg u (fieldByte p.payload 0) = some c ∧ lostCause u (fieldByte p.payload 0) c = false) ∧
      (u.alloc.thr.getD (fieldByte p.payload 0) {}).enabled = false)
    (fun _ p u =>
      { status := 1, result := thrResult u (fieldByte p.payload 0) (effectFrame u), state := defer (.thrEnable (fieldByte p.payload 0)) u }) := by
  refine ?_
  refine reached ([31, 0, 0, 0]) { up with image.alloc.thrusters := List.replicate 32 (some {}), alloc.thr := List.replicate 32 { enabled := false } } ?_ ?_ ?_ ?_ ?_ ?_ ?_
  case refine_6 => first | trivial | decide +kernel
  all_goals decide +kernel

theorem test_controlCommandsAnswer_8 : Reached 0x0603 thrusterDisableSpec
    (fun _ p u => fieldByte p.payload 0 ≤ 31 ∧ (thrCfg u (fieldByte p.payload 0)).isSome = true ∧
      (u.alloc.thr.getD (fieldByte p.payload 0) {}).enabled = true)
    (fun _ p u =>
      { status := 1, result := thrResult u (fieldByte p.payload 0) (effectFrame u)
        state := defer (.thrDisable (fieldByte p.payload 0) (forced p)) u }) := by
  refine ?_
  refine reached ([31, 0, 0, 0]) { up with image.alloc.thrusters := List.replicate 32 (some {}) } ?_ ?_ ?_ ?_ ?_ ?_ ?_
  case refine_6 => first | trivial | decide +kernel
  all_goals decide +kernel

theorem test_controlCommandsAnswer_9 : Reached 0x0604 allocModeSpec
    (fun _ p u => fieldByte p.payload 0 = 1 ∧ modePolicy u p.payload ≤ 1 ∧ modePolicy u p.payload ≠ u.alloc.policy)
    (fun _ p u =>
      { status := 1, result := allocModeResult u 1 (effectFrame u)
        state := defer (.allocMode (modePolicy u p.payload) (modeGroups u p.payload) (bitN ((fieldByte p.payload 3).testBit 0) 0)) u }) := by
  refine ?_
  refine reached ([1, 1, 0, 0, 0, 0, 0, 0]) up ?_ ?_ ?_ ?_ ?_ ?_ ?_
  case refine_6 => first | trivial | decide +kernel
  all_goals decide +kernel

theorem test_controlCommandsAnswer_10 : Reached 0x0605 attachBodySetSpec
    (fun _ p u => fieldByte p.payload 0 = 0 ∧ (u.image.alloc.bodies[fieldByte p.payload 1]?).isSome = true)
    (fun _ p u => { status := 0, result := bodyResult u (fieldByte p.payload 1), state := u }) := by
  refine ?_
  refine reached ([0, 1] ++ zeros 30) { up with image.alloc.bodies := [{}, {}] } ?_ ?_ ?_ ?_ ?_ ?_ ?_
  case refine_6 => first | trivial | decide +kernel
  all_goals decide +kernel

theorem test_channelCommandsAnswer_1 : Reached 0x0701 chanConfigSpec
    (fun _ p u => fieldByte p.payload 1 = 1 ∧ fieldByte p.payload 0 ≤ 127 ∧
      cfgRangeBad (cfgOfPayload p.payload (chanOf u (fieldByte p.payload 0)).cfg) (fieldByte p.payload 28) = false ∧
      fieldByte p.payload 28 ≤ 15 ∧
      (cfgOfPayload p.payload (chanOf u (fieldByte p.payload 0)).cfg).mdAddr.eraseDups.length =
        (cfgOfPayload p.payload (chanOf u (fieldByte p.payload 0)).cfg).mdAddr.length ∧
      (isOut (cfgOfPayload p.payload (chanOf u (fieldByte p.payload 0)).cfg) = false ∨
        outChar (chanAsked u (fieldByte p.payload 0)).charac = true) ∧ chanBound u (fieldByte p.payload 0) = false)
    (fun _ p u =>
      let i := chanOf u (fieldByte p.payload 0)
      { status := 1
        result := leBytes 1 (fieldByte p.payload 0) ++ leBytes 1 1 ++ cfgBytes i.cfg ++ leBytes 1 i.up.state ++
          leBytes 1 (if i.cfgNext.isSome && !i.resetDue then 1 else 0) ++ zeros 2 ++ leBytes 4 (effectFrame u)
        state := defer (.chanCfg (fieldByte p.payload 0) (cfgOfPayload p.payload i.cfg)) u }) := by
  refine ?_
  refine reached ([127, 1, 1, 2, 244, 1, 200, 0, 64, 31, 64, 156, 24, 252, 208, 7, 112, 23, 232, 3, 0, 0, 232, 3, 176, 4, 0, 0, 2, 1, 63] ++ zeros 13 ++ [20, 0, 0, 0]) up ?_ ?_ ?_ ?_ ?_ ?_ ?_
  case refine_6 => first | trivial | decide +kernel
  all_goals decide +kernel

theorem test_channelCommandsAnswer_2 : Reached 0x0702 chanStatusSpec
    (fun _ p _ => 1 ≤ fieldByte p.payload 1 ∧ fieldByte p.payload 1 ≤ 127 ∧ fieldByte p.payload 0 + fieldByte p.payload 1 ≤ 128)
    (fun _ p u =>
      { status := 0, state := u, result := leBytes 1 (fieldByte p.payload 1) ++ zeros 3 ++
          ((List.range (fieldByte p.payload 1)).map (fun k => chanEntry u (fieldByte p.payload 0 + k))).flatten }) := by
  refine ?_
  refine reached ([1, 127, 0, 0]) up ?_ ?_ ?_ ?_ ?_ ?_ ?_
  case refine_6 => first | trivial | decide +kernel
  all_goals decide +kernel

theorem test_channelCommandsAnswer_3 : Reached 0x0703 chanReadSpec
    (fun _ p _ => fieldByte p.payload 1 = 0 ∧ fieldByte p.payload 0 ≤ 127)
    (fun _ p u => { status := 0, result := chanValues u (fieldByte p.payload 0), state := u }) := by
  refine ?_
  refine reached ([127, 0, 0, 0]) up ?_ ?_ ?_ ?_ ?_ ?_ ?_
  case refine_6 => first | trivial | decide +kernel
  all_goals decide +kernel

theorem test_channelCommandsAnswer_4 : Reached 0x0704 hartTransactSpec
    (fun _ p u => fieldByte p.payload 1 = 1 ∧ fieldByte p.payload 0 ≤ 127 ∧ fieldByte p.payload 2 ≤ 63 ∧ fieldByte p.payload 3 ≤ 5 ∧
      fieldNat p.payload 12 2 ≤ 255 ∧ hartOk (chanOf u (fieldByte p.payload 0)).cfg = true ∧
      (chanOf u (fieldByte p.payload 0)).hartQ.length < 4)
    (fun k p u =>
      let j : HartJob :=
        { long := true, polling := fieldByte p.payload 2, retries := fieldByte p.payload 3, longAddr := fieldNat p.payload 4 5,
          command := fieldNat p.payload 10 2, data := p.payload.drop 14, task := taskOf k p, since := u.mono }
      { status := 2, state := onIsl (fieldByte p.payload 0) (fun i => { i with hartQ := i.hartQ ++ [j] }) u }) := by
  refine ?_
  refine reached ([127, 1, 63, 5, 0, 0, 0, 0, 0, 0, 48, 0, 0, 0]) { up with isl := List.replicate 128 { cfg := { mode := 4, hart := true }, hartQ := [{}, {}, {}] } } ?_ ?_ ?_ ?_ ?_ ?_ ?_
  case refine_6 => first | trivial | decide +kernel
  all_goals decide +kernel

theorem test_channelCommandsAnswer_5 : Reached 0x0705 chanCharSpec
    (fun _ p _ => fieldByte p.payload 1 = 0 ∧ fieldByte p.payload 0 ≤ 127)
    (fun _ p u =>
      { status := 0, result := leBytes 1 (fieldByte p.payload 0) ++ leBytes 1 0 ++ charBytes (chanOf u (fieldByte p.payload 0)).cfg.charac,
        state := u }) := by
  refine ?_
  refine reached ([127] ++ zeros 155) up ?_ ?_ ?_ ?_ ?_ ?_ ?_
  case refine_6 => first | trivial | decide +kernel
  all_goals decide +kernel

theorem test_channelCommandsAnswer_6 : ∃ x : Qty, Reached 0x0706 filterConfigSpec
    (fun _ p u => fieldByte p.payload 1 = 1 ∧ fieldByte p.payload 3 ≤ 3 ∧ fieldByte p.payload 0 ≤ 127 ∧ fieldByte p.payload 2 ≤ 8 ∧
      fieldF32 p.payload 4 = some x ∧ 1 / 10 ≤ x ∧ x ≤ 1000 ∧ chanBound u (fieldByte p.payload 0) = false)
    (fun _ p u =>
      let i := chanOf u (fieldByte p.payload 0)
      { status := 1
        result := leBytes 1 (fieldByte p.payload 0) ++ leBytes 1 1 ++ leBytes 1 i.cfg.depth ++
          leBytes 1 (if i.dcFrozen then 2 else if i.cfg.dcOn then 1 else 0) ++ f32Bytes i.cfg.tauDc ++ f32Bytes i.dcMean ++
          leBytes 1 i.up.unsettled ++ zeros 3
        state := defer (.filter (fieldByte p.payload 0) (fieldByte p.payload 2) (fieldByte p.payload 3) x) u }) := by
  refine ⟨1000, ?_⟩
  refine reached ([127, 1, 8, 3, 0, 0, 122, 68]) up ?_ ?_ ?_ ?_ ?_ ?_ ?_
  case refine_6 => first | trivial | decide +kernel
  all_goals decide +kernel

theorem test_channelCommandsAnswer_7 : Reached 0x0707 complianceCheckSpec
    (fun _ p u => fieldByte p.payload 1 = 0 ∧ fieldByte p.payload 0 ≤ 127 ∧ 0 < fieldNat p.payload 2 2 ∧
      fieldNat p.payload 2 2 ≤ 48000 ∧ (chanOf u (fieldByte p.payload 0)).cfg.mode = 1 ∧
      checkAllowed u (fieldByte p.payload 0) = true ∧ u.check = none)
    (fun k p u =>
      let c : CheckSt :=
        { ch := fieldByte p.payload 0, trial := false, iTest := fieldNat p.payload 2 2, trialMs := fieldNat p.payload 4 2,
          since := u.mono, task := taskOf k p }
      { status := 2
        state := onIsl (fieldByte p.payload 0) (fun i => { i with checkDrive := some 8000, checkBack := 0 }) { u with check := some c } }) := by
  refine ?_
  refine reached ([127, 0, 128, 187, 5, 0, 0, 0]) { up with pow.state := .commissioning, isl := List.replicate 128 { cfg := { mode := 1 } } } ?_ ?_ ?_ ?_ ?_ ?_ ?_
  case refine_6 => first | trivial | decide +kernel
  all_goals decide +kernel

theorem test_gnssAndTimeCommandsAnswer_1 : Reached 0x0801 gnssStatusSpec
    (fun _ _ _ => True)
    (fun _ _ u => { status := 0, result := gnssStatusResult u, state := u }) := by
  refine ?_
  refine reached ([]) up ?_ ?_ ?_ ?_ ?_ ?_ ?_
  case refine_6 => first | trivial | decide +kernel
  all_goals decide +kernel

theorem test_gnssAndTimeCommandsAnswer_2 : ∃ r : EpochRes, Reached 0x0802 gnssRawSpec
    (fun _ p u => fieldNat p.payload 0 4 = 0 ∧ u.gnss.held.head? = some r ∧
      1 ≤ fieldByte p.payload 5 ∧ fieldByte p.payload 5 ≤ 101 ∧ fieldByte p.payload 4 ≤ r.obs.length)
    (fun _ p u =>
      let es := ((r.obs.drop (fieldByte p.payload 4)).filter (fun o => (fieldByte p.payload 6).testBit o.1.antenna)).take
        (fieldByte p.payload 5)
      { status := 0, result := epochHeader r (fieldByte p.payload 4) es.length ++ (es.map obsBytes).flatten, state := u }) := by
  refine ⟨{}, ?_⟩
  refine reached ([0, 0, 0, 0, 0, 101, 3, 0]) { up with gnss.held := [{}] } ?_ ?_ ?_ ?_ ?_ ?_ ?_
  case refine_6 => first | trivial | decide +kernel
  all_goals decide +kernel

theorem test_gnssAndTimeCommandsAnswer_3 : Reached 0x0803 gnssCorrectionsSpec
    (fun _ p _ => fieldByte p.payload 0 = 0)
    (fun _ _ u => { status := 0, result := correctionsResult u, state := u }) := by
  refine ?_
  refine reached ([0, 0, 0, 0]) up ?_ ?_ ?_ ?_ ?_ ?_ ?_
  case refine_6 => first | trivial | decide +kernel
  all_goals decide +kernel

theorem test_gnssAndTimeCommandsAnswer_4 : Reached 0x0804 gnssModeSpec
    (fun _ p _ => fieldByte p.payload 0 = 1 ∧ fieldByte p.payload 1 ≤ 3 ∧ 1 ≤ fieldByte p.payload 2 ∧ fieldByte p.payload 2 ≤ 6 ∧
      [1, 2, 5, 10, 20].contains (fieldByte p.payload 3) = true ∧ fieldByte p.payload 4 ≤ 30)
    (fun _ p u =>
      { status := 1, result := gnssModeResult 1 u
        state := defer (.gnssMode (fieldByte p.payload 1) (fieldByte p.payload 2) (fieldByte p.payload 3) (fieldByte p.payload 4)
          (fieldByte p.payload 5)) u }) := by
  refine ?_
  refine reached ([1, 3, 6, 20, 30, 0, 0, 0]) up ?_ ?_ ?_ ?_ ?_ ?_ ?_
  case refine_6 => first | trivial | decide +kernel
  all_goals decide +kernel

theorem test_gnssAndTimeCommandsAnswer_5 : Reached 0x0805 integrityReportSpec
    (fun _ _ _ => True)
    (fun _ _ u => { status := 0, result := integrityResult u, state := u }) := by
  refine ?_
  refine reached ([]) up ?_ ?_ ?_ ?_ ?_ ?_ ?_
  case refine_6 => first | trivial | decide +kernel
  all_goals decide +kernel

theorem test_gnssAndTimeCommandsAnswer_6 : Reached 0x0901 timeGetSpec
    (fun _ _ _ => True)
    (fun _ _ u => { status := 0, result := u.host.tmSnap, state := u }) := by
  refine ?_
  refine reached ([]) up ?_ ?_ ?_ ?_ ?_ ?_ ?_
  case refine_6 => first | trivial | decide +kernel
  all_goals decide +kernel

theorem test_gnssAndTimeCommandsAnswer_7 : Reached 0x0902 timeSourceSpec
    (fun _ p _ => fieldByte p.payload 0 = 1 ∧
      orderOk [fieldByte p.payload 2, fieldByte p.payload 3, fieldByte p.payload 4] = true)
    (fun _ p u =>
      { status := 1, result := timeSourceResult u
        state := defer (.timeSource (fieldByte p.payload 1)
          [fieldByte p.payload 2, fieldByte p.payload 3, fieldByte p.payload 4]) u }) := by
  refine ?_
  refine reached ([1, 0, 0, 1, 2, 0, 0, 0]) up ?_ ?_ ?_ ?_ ?_ ?_ ?_
  case refine_6 => first | trivial | decide +kernel
  all_goals decide +kernel

theorem test_gnssAndTimeCommandsAnswer_8 : Reached 0x0903 ptpConfigSpec
    (fun _ p _ => fieldByte p.payload 1 = 1 ∧ fieldByte p.payload 0 ≤ 11 ∧ ptpPortOk p.payload = true)
    (fun _ p u =>
      { status := 1, result := ptpConfigResult (fieldByte p.payload 0) 1 u
        state := defer (.ptpPort (fieldByte p.payload 0) (ptpPortOf p.payload)) u }) := by
  refine ?_
  refine reached ([11, 1, 0, 0, 0, 0, 1, 1, 1, 1, 252, 3, 5, 10, 1, 0, 208, 7, 208, 7, 0, 0, 0, 0]) up ?_ ?_ ?_ ?_ ?_ ?_ ?_
  case refine_6 => first | trivial | decide +kernel
  all_goals decide +kernel

theorem test_gnssAndTimeCommandsAnswer_9 : ∃ q : StampQ, Reached 0x0904 txStampReadSpec
    (fun _ p u => fieldByte p.payload 0 ≤ 11 ∧ 1 ≤ fieldByte p.payload 1 ∧ fieldByte p.payload 1 ≤ 16 ∧
      q = u.time.stamps.getD (fieldByte p.payload 0) {})
    (fun _ p u =>
      let out := q.entries.take (fieldByte p.payload 1)
      { status := 0
        result := leBytes 1 out.length ++ leBytes 1 (bitN q.ovf 0) ++ leBytes 2 q.drops ++ (out.map stampBytes).flatten
        state := { u with time.stamps := u.time.stamps.modify (fieldByte p.payload 0) (fun y =>
          { y with entries := y.entries.drop (fieldByte p.payload 1), ovf := false, drops := 0 }) } }) := by
  refine ⟨{}, ?_⟩
  refine reached ([11, 16, 0, 0]) up ?_ ?_ ?_ ?_ ?_ ?_ ?_
  case refine_6 => first | trivial | decide +kernel
  all_goals decide +kernel

theorem test_gnssAndTimeCommandsAnswer_10 : Reached 0x0905 ppsConfigSpec
    (fun _ p _ => fieldByte p.payload 1 = 1 ∧ fieldByte p.payload 0 < 2 ∧ fieldByte p.payload 2 = 1 ∧ fieldByte p.payload 3 ≤ 1 ∧
      -1000 ≤ fieldInt p.payload 8 4 ∧ fieldInt p.payload 8 4 ≤ 1000 ∧ 1000 ≤ fieldNat p.payload 4 4 ∧
      fieldNat p.payload 4 4 ≤ 500000000)
    (fun _ p u =>
      { status := 1, result := ppsConfigResult (fieldByte p.payload 0) 1 u
        state := defer (.pps (fieldByte p.payload 0)
          { enable := true, polarity := fieldByte p.payload 3, width := fieldNat p.payload 4 4, offset := fieldInt p.payload 8 4,
            labelPort := fieldByte p.payload 12 }) u }) := by
  refine ?_
  refine reached ([1, 1, 1, 1, 0, 101, 205, 29, 24, 252, 255, 255, 0, 0, 0, 0]) up ?_ ?_ ?_ ?_ ?_ ?_ ?_
  case refine_6 => first | trivial | decide +kernel
  all_goals decide +kernel

theorem test_safetyAndConsistCommandsAnswer_1 : Reached 0x0A01 safetyStatusSpec
    (fun _ _ _ => True)
    (fun _ _ u =>
      { status := 0, state := u
        result := ((mirrorRegs u.sb.mirror).map (leBytes 4)).flatten ++ leBytes 1 (maskBools u.sb.mirror.present.list) ++ zeros 3 }) := by
  refine ?_
  refine reached ([]) up ?_ ?_ ?_ ?_ ?_ ?_ ?_
  case refine_6 => first | trivial | decide +kernel
  all_goals decide +kernel

theorem test_safetyAndConsistCommandsAnswer_2 : Reached 0x0A02 safetyLimitsGetSpec
    (fun _ p u => fieldByte p.payload 0 ≤ 3 ∧ fieldByte p.payload 0 ≠ 0 ∧ 1 ≤ fieldByte p.payload 2 ∧ fieldByte p.payload 2 ≤ 128 ∧
      fieldByte p.payload 1 + fieldByte p.payload 2 ≤ (limitsSection u (fieldByte p.payload 0)).length)
    (fun _ p u =>
      { status := 0, state := u
        result := leBytes 1 (fieldByte p.payload 2) ++ zeros 3 ++
          (((limitsSection u (fieldByte p.payload 0)).drop (fieldByte p.payload 1)).take (fieldByte p.payload 2)).flatten }) := by
  refine ?_
  refine reached ([1, 0, 1, 0]) { up with sb.limits := { thrusters := [{}] } } ?_ ?_ ?_ ?_ ?_ ?_ ?_
  case refine_6 => first | trivial | decide +kernel
  all_goals decide +kernel

theorem test_safetyAndConsistCommandsAnswer_3 : Reached 0x0A03 proofStatusSpec
    (fun _ _ u => u.sb.proofDone = false ∧ u.sb.limits.proofH = 0)
    (fun _ _ u =>
      let b := u.sb
      { status := 0, state := u
        result := leBytes 4 (sbProofBits b) ++ leBytes 4 0xFFFFFFFF ++ leBytes 4 0xFFFFFFFF ++
          openingBytes u b.esd.openA b.esd.secA b.esd.lastA ++ openingBytes u b.esd.openB b.esd.secB b.esd.lastB ++
          openingBytes u b.en.openA b.en.secA b.en.lastA ++ openingBytes u b.en.openB b.en.secB b.en.lastB ++ zeros 4 }) := by
  refine ?_
  refine reached ([]) up ?_ ?_ ?_ ?_ ?_ ?_ ?_
  case refine_6 => first | trivial | decide +kernel
  all_goals decide +kernel

theorem test_safetyAndConsistCommandsAnswer_4 : Reached 0x0B01 consistStatusSpec
    (fun _ _ _ => True)
    (fun _ _ u => { status := 0, result := consistResult u, state := u }) := by
  refine ?_
  refine reached ([]) up ?_ ?_ ?_ ?_ ?_ ?_ ?_
  case refine_6 => first | trivial | decide +kernel
  all_goals decide +kernel

theorem test_safetyAndConsistCommandsAnswer_5 : Reached 0x0B02 rollCallSpec
    (fun _ p u => fieldByte p.payload 0 = 0 ∧ u.cons.rollTask = none)
    (fun k p u =>
      let v : State := { u with cons.rollTask := some (taskOf k p, false), cons.rollAt := some u.mono }
      { status := 2, state := if u.cons.home then { v with cons.rollReq := some 0 } else sendRoll (.rollAsk 0) 0xFF v }) := by
  refine ?_
  refine reached ([0, 0, 0, 0]) { up with cons.home := true, cons.links := [{ up := true }, {}] } ?_ ?_ ?_ ?_ ?_ ?_ ?_
  case refine_6 => first | trivial | decide +kernel
  all_goals decide +kernel

theorem test_safetyAndConsistCommandsAnswer_6 : Reached 0x0B03 transferLeadSpec
    (fun _ p u => fieldByte p.payload 0 = 0 ∧ fieldByte p.payload 1 = 0 ∧ u.cons.phase = 0 ∧
      u.host.deferred.contains .transfer = false ∧ layoverReady u = true ∧ bothRun u = true ∧ u.pow.state = .active)
    (fun _ _ u =>
      { status := 1, result := leBytes 1 u.cons.layover ++ leBytes 1 1 ++ zeros 2 ++ leBytes 4 (effectFrame u)
        state := defer .transfer u }) := by
  refine ?_
  refine reached ([0, 0, 0, 0]) { up with sb.state := .run, cons.layover := 2, cons.peers := [{}, { hb := { flags := 17 } }, {}, {}] } ?_ ?_ ?_ ?_ ?_ ?_ ?_
  case refine_6 => first | trivial | decide +kernel
  all_goals decide +kernel

theorem test_safetyAndConsistCommandsAnswer_7 : Reached 0x0B04 laneStatusSpec
    (fun _ _ _ => True)
    (fun _ _ u => { status := 0, result := (lanesAll.map (laneEntry u)).flatten, state := u }) := by
  refine ?_
  refine reached ([]) up ?_ ?_ ?_ ?_ ?_ ?_ ?_
  case refine_6 => first | trivial | decide +kernel
  all_goals decide +kernel

theorem test_safetyAndConsistCommandsAnswer_8 : Reached 0x0B05 laneReintegrateSpec
    (fun _ p u => fieldByte p.payload 1 ≤ 2 ∧ 1 ≤ fieldByte p.payload 0 ∧ fieldByte p.payload 0 ≤ 7 ∧
      laneOpLocked u (fieldByte p.payload 0) (fieldByte p.payload 1) = false)
    (fun _ p u =>
      { status := 1, result := leBytes 1 (laneMask u) ++ leBytes 1 (fieldByte p.payload 0) ++ zeros 2 ++ leBytes 4 (effectFrame u)
        state := defer (.lane (fieldByte p.payload 0) (fieldByte p.payload 1)) u }) := by
  refine ?_
  refine reached ([4, 0, 0, 0]) { up with lanes := ⟨laneUp, laneUp, { powered := true, state := .excluded }⟩ } ?_ ?_ ?_ ?_ ?_ ?_ ?_
  case refine_6 => first | trivial | decide +kernel
  all_goals decide +kernel

theorem test_serviceCommandsAnswer_1 : Reached 0x0C01 recReadBlockSpec
    (fun _ p _ => 1 ≤ fieldByte p.payload 4 ∧ fieldByte p.payload 4 ≤ 63)
    (fun _ p u =>
      let early := seqBefore (fieldNat p.payload 0 4) u.log.first
      let e := examine u (fieldNat p.payload 8 4) 1024 (if early then u.log.first else fieldNat p.payload 0 4)
        (fieldByte p.payload 4) [] false
      { status := 0, state := u
        result := leBytes 4 u.log.first ++ leBytes 4 e.2.1 ++ leBytes 4 (recLast u) ++ leBytes 1 e.1.length ++
          leBytes 1 (bitN early 0 + bitN (seqBefore (recLast u) e.2.1) 1 + bitN e.2.2 2) ++ zeros 2 ++ e.1.flatten }) := by
  refine ?_
  refine reached ([0, 0, 0, 0, 63, 0, 0, 0, 0, 0, 0, 0]) up ?_ ?_ ?_ ?_ ?_ ?_ ?_
  case refine_6 => first | trivial | decide +kernel
  all_goals decide +kernel

theorem test_serviceCommandsAnswer_2 : Reached 0x0C02 recInfoSpec
    (fun _ _ _ => True)
    (fun _ _ u => { status := 0, result := recInfoResult u, state := u }) := by
  refine ?_
  refine reached ([]) up ?_ ?_ ?_ ?_ ?_ ?_ ?_
  case refine_6 => first | trivial | decide +kernel
  all_goals decide +kernel

theorem test_serviceCommandsAnswer_3 : Reached 0x0C03 recClearSpec
    (fun _ p u => seqBefore (fieldNat p.payload 0 4) (recLast u) = false ∧ u.log.clear = none ∧
      (u.pow.state = .ready ∨ u.pow.state = .commissioning ∨ u.pow.state = .layover))
    (fun k p u => { status := 2, state := { u with log.clear := some { task := taskOf k p, first := u.log.first, last := recLast u } } }) := by
  refine ?_
  refine reached ([0, 0, 0, 0]) { up with pow.state := .ready } ?_ ?_ ?_ ?_ ?_ ?_ ?_
  case refine_6 => first | trivial | decide +kernel
  all_goals decide +kernel

theorem test_serviceCommandsAnswer_4 : ∃ x : Session, Reached 0x0C04 recMarkSpec
    (fun k _ u => u.host.sessions.getD k none = some x ∧ x.marks = [] ∧ u.log.staged.length + u.log.early.length < stageCap)
    (fun k p u =>
      { status := 0, result := leBytes 4 u.log.seqNext ++ leBytes 8 u.time.sec ++ leBytes 4 u.time.ns
        state := onSession k (fun y => { y with marks := [u.tt.frame] })
          (logJ 14 1 (leBytes 1 k ++ leBytes 2 (fieldNat p.payload 0 2) ++ (p.payload.drop 4).take 32) u) }) := by
  refine ⟨((atFields (pkt 0x0C04 (zeros 36)) up).host.sessions.getD 0 none).getD {}, ?_⟩
  refine reached (zeros 36) up ?_ ?_ ?_ ?_ ?_ ?_ ?_
  case refine_6 => first | trivial | decide +kernel
  all_goals decide +kernel

theorem test_serviceCommandsAnswer_5 : Reached 0x0D01 dispRegionWriteSpec
    (fun _ p u => fieldByte p.payload 0 ≤ 15 ∧ fieldNat p.payload 2 2 ≤ 6000 ∧ (regionCfg u (fieldByte p.payload 0)).source = 1 ∧
      fieldNat p.payload 4 2 = (segmentsOf (regionCfg u (fieldByte p.payload 0))).length)
    (fun k p u =>
      let d : DispUpd :=
        { bits := updateBits (regionCfg u (fieldByte p.payload 0)) (p.payload.drop 8), hold := fieldNat p.payload 2 2, task := taskOf k p }
      { status := 2
        state := onRegion (fieldByte p.payload 0) (fun x => { x with queued := some d }) (supersede (fieldByte p.payload 0) u) }) := by
  refine ?_
  refine reached ([15, 0, 112, 23, 0, 0, 0, 0]) { up with image.disp.regions := List.replicate 16 { source := 1 } } ?_ ?_ ?_ ?_ ?_ ?_ ?_
  case refine_6 => first | trivial | decide +kernel
  all_goals decide +kernel

theorem test_serviceCommandsAnswer_6 : Reached 0x0D02 dispStatusSpec
    (fun _ _ _ => True)
    (fun _ _ u => { status := 0, result := dispStatusResult u, state := u }) := by
  refine ?_
  refine reached ([]) up ?_ ?_ ?_ ?_ ?_ ?_ ?_
  case refine_6 => first | trivial | decide +kernel
  all_goals decide +kernel

theorem test_serviceCommandsAnswer_7 : Reached 0x0D03 dispConfigSpec
    (fun _ p _ => fieldByte p.payload 0 = 1 ∧ fieldByte p.payload 1 ≤ 1 ∧ fieldByte p.payload 4 ≤ 1 ∧
      -500 ≤ fieldInt p.payload 2 2 ∧ fieldInt p.payload 2 2 ≤ 500)
    (fun _ p u =>
      { status := 1, result := dispConfigResult u 1 (effectFrame u)
        state := defer (.dispCfg 1 (fieldByte p.payload 1) (fieldInt p.payload 2 2) (fieldByte p.payload 4)) u }) := by
  refine ?_
  refine reached ([1, 1, 12, 254, 1, 0, 0, 0]) up ?_ ?_ ?_ ?_ ?_ ?_ ?_
  case refine_6 => first | trivial | decide +kernel
  all_goals decide +kernel

theorem test_serviceCommandsAnswer_8 : Reached 0x0E01 powerStatusSpec
    (fun _ _ _ => True)
    (fun _ _ u => { status := 0, result := u.host.pwSnap, state := u }) := by
  refine ?_
  refine reached ([]) up ?_ ?_ ?_ ?_ ?_ ?_ ?_
  case refine_6 => first | trivial | decide +kernel
  all_goals decide +kernel

theorem test_serviceCommandsAnswer_9 : Reached 0x0E02 powerModeSpec
    (fun _ p u => 1 ≤ fieldByte p.payload 0 ∧ fieldByte p.payload 0 ≤ 4 ∧ powerAlready u (fieldByte p.payload 0) = false ∧
      powerAllowed u (fieldByte p.payload 0) = true)
    (fun _ p u =>
      { status := 1, result := leBytes 1 u.pow.state.code ++ leBytes 1 (powerTarget (fieldByte p.payload 0)) ++ zeros 2 ++
          leBytes 4 (effectFrame u)
        state := defer (.power (fieldByte p.payload 0)) u }) := by
  refine ?_
  refine reached ([3, 0, 0, 0]) { up with pow.state := .safeStop } ?_ ?_ ?_ ?_ ?_ ?_ ?_
  case refine_6 => first | trivial | decide +kernel
  all_goals decide +kernel

theorem test_serviceCommandsAnswer_10 : Reached 0x0F01 timetableStatusSpec
    (fun _ _ _ => True)
    (fun _ _ u => { status := 0, result := timetableStatusResult u, state := u }) := by
  refine ?_
  refine reached ([]) up ?_ ?_ ?_ ?_ ?_ ?_ ?_
  case refine_6 => first | trivial | decide +kernel
  all_goals decide +kernel

theorem test_serviceCommandsAnswer_11 : Reached 0x0F02 timetableCountersSpec
    (fun _ p _ => (fieldByte p.payload 0).testBit 0 = true)
    (fun _ _ u => { status := 0, result := timetableCountersResult u, state := defer .counters u }) := by
  refine ?_
  refine reached ([1, 0, 0, 0]) up ?_ ?_ ?_ ?_ ?_ ?_ ?_
  case refine_6 => first | trivial | decide +kernel
  all_goals decide +kernel

end Sys2Proof.Tests
end

section
/-! Angles (R10, R463): the rules of wrap360 and wrap180, and the obligation that wrap180 answers the half-turn range. -/

namespace Sys2Proof.Machine

theorem wrap360_nonneg (a : Qty) : 0 ≤ wrap360 a := by
  have below : ((a / 360).floor : Rat) ≤ a / 360 := Rat.floor_le _
  unfold wrap360
  linarith only [below]

theorem wrap360_lt_full_turn (a : Qty) : wrap360 a < 360 := by
  have above : a / 360 < (a / 360).floor + 1 := sub_lt_iff_lt_add.mp Rat.lt_floor
  unfold wrap360
  linarith only [above]

theorem wrap180_of_le {a : Qty} (h : wrap360 a ≤ 180) : wrap180 a = wrap360 a := if_pos h

theorem wrap180_of_lt {a : Qty} (h : 180 < wrap360 a) : wrap180 a = wrap360 a - 360 := if_neg h.not_ge

/-- The whole turns of R463: those of `wrap360`, and one more where it answers above 180°. -/
theorem wrap180_eq_add_turns (a : Qty) : ∃ k : Int, wrap180 a = a + 360 * (k : Qty) := by
  rcases le_or_gt (wrap360 a) 180 with h | h
  · refine ⟨-(a / 360).floor, ?_⟩
    rw [wrap180_of_le h, wrap360]
    push_cast
    ring
  · refine ⟨-(a / 360).floor - 1, ?_⟩
    rw [wrap180_of_lt h, wrap360]
    push_cast
    ring

theorem neg_half_turn_lt_wrap180 (a : Qty) : -180 < wrap180 a := by
  rcases le_or_gt (wrap360 a) 180 with h | h
  · rw [wrap180_of_le h]
    linarith only [wrap360_nonneg a]
  · rw [wrap180_of_lt h]
    linarith only [h]

theorem wrap180_le_half_turn (a : Qty) : wrap180 a ≤ 180 := by
  rcases le_or_gt (wrap360 a) 180 with h | h
  · exact (wrap180_of_le h).trans_le h
  · rw [wrap180_of_lt h]
    linarith only [wrap360_lt_full_turn a]

end Sys2Proof.Machine

namespace Sys2Proof.Claims

open Sys2Proof.Machine

/-- Settles O59: `wrap360` lies in its full turn (R10), and `wrap180` takes one turn off its upper half. -/
theorem wrapsToHalfATurn : Obligations.WrapsToHalfATurn := by
  refine ⟨fun a => ⟨?turns, ?above, ?upTo⟩, ?half, ?negHalf⟩
  case turns => exact wrap180_eq_add_turns a
  case above => exact neg_half_turn_lt_wrap180 a
  case upTo => exact wrap180_le_half_turn a
  case half => decide +kernel
  case negHalf => decide +kernel

end Sys2Proof.Claims
end

section
/-! Sets (R26): the order of the records of a set, and the obligation that a record put in its place keeps it. -/

namespace Sys2Proof.Machine

/-- `x` may stand before `y` in a set (R26): by arrival stamp, and by link number where the stamps are equal. -/
def OrderedInSet (x y : InRecord) : Prop :=
  x.stampNs < y.stampNs ∨ (x.stampNs = y.stampNs ∧ x.link ≤ y.link)

theorem OrderedInSet.trans {x y z : InRecord} (hxy : OrderedInSet x y) (hyz : OrderedInSet y z) : OrderedInSet x z := by
  unfold OrderedInSet at *
  omega

theorem orderedInSet_of_not {x y : InRecord} (h : ¬ OrderedInSet x y) : OrderedInSet y x := by
  unfold OrderedInSet at *
  omega

theorem insertRec_cons_of_ordered {r x : InRecord} (h : OrderedInSet x r) (t : List InRecord) :
    insertRec r (x :: t) = x :: insertRec r t := by
  refine if_neg ?_
  simp only [Bool.or_eq_true, Bool.and_eq_true, decide_eq_true_eq]
  unfold OrderedInSet at h
  omega

theorem insertRec_cons_of_not_ordered {r x : InRecord} (h : ¬ OrderedInSet x r) (t : List InRecord) :
    insertRec r (x :: t) = r :: x :: t := by
  refine if_pos ?_
  simp only [Bool.or_eq_true, Bool.and_eq_true, decide_eq_true_eq]
  unfold OrderedInSet at h
  omega

/-- No record is lost, changed or doubled: the set gains `r` and nothing else. -/
theorem insertRec_perm (r : InRecord) (l : List InRecord) : (insertRec r l).Perm (r :: l) := by
  induction l with
  | nil => exact .refl _
  | cons x t ih =>
    by_cases h : OrderedInSet x r
    · rw [insertRec_cons_of_ordered h]
      exact (ih.cons x).trans (.swap r x t)
    · rw [insertRec_cons_of_not_ordered h]

@[simp] theorem mem_insertRec {x r : InRecord} {l : List InRecord} : x ∈ insertRec r l ↔ x = r ∨ x ∈ l :=
  (insertRec_perm r l).mem_iff.trans List.mem_cons

theorem insertRec_pairwise_ordered (r : InRecord) {l : List InRecord} (hl : l.Pairwise OrderedInSet) :
    (insertRec r l).Pairwise OrderedInSet := by
  induction l with
  | nil => exact List.pairwise_singleton _ r
  | cons x t ih =>
    obtain ⟨hx, ht⟩ := List.pairwise_cons.mp hl
    by_cases h : OrderedInSet x r
    · rw [insertRec_cons_of_ordered h]
      refine (ih ht).cons fun y hy => ?_
      rcases mem_insertRec.mp hy with rfl | hy
      · exact h
      · exact hx y hy
    · rw [insertRec_cons_of_not_ordered h]
      have hrx : OrderedInSet r x := orderedInSet_of_not h
      refine hl.cons fun y hy => ?_
      rcases List.mem_cons.mp hy with rfl | hy
      · exact hrx
      · exact hrx.trans (hx y hy)

end Sys2Proof.Machine

namespace Sys2Proof.Claims

open Sys2Proof.Machine

/-- Settles O58: `insertRec` puts a record after those that may stand before it (R26), and permutes the set with it added. -/
theorem setsAreOrdered : Obligations.SetsAreOrdered :=
  fun r _ hl => ⟨insertRec_pairwise_ordered r hl, fun _ => mem_insertRec⟩

end Sys2Proof.Claims
end

section
/-! Transmit stamps (R90, R91): what a new stamp and TX_STAMP_READ do to a port's queue, and the obligation that a full
queue keeps its entries. -/

namespace Sys2Proof.Machine

/-- The entry `queueStamp` makes now (Table 3-7): module time less the port's egress delay. -/
def newStamp (port : Nat) (e : StampReq) (s : State) : StampEntry :=
  let n := nowNs s - (s.time.ptp.getD port {}).cfg.egress
  { sec := n / 1000000000, ns := n % 1000000000, frac := s.time.frac, quality := qualityByte s, req := e }

/-- A queue after an entry was offered to it (R91). -/
def pushStamp (x : StampEntry) (q : StampQ) : StampQ :=
  if 16 ≤ q.entries.length then { q with ovf := true, drops := sat 16 (q.drops + 1) }
  else { q with entries := q.entries ++ [x] }

/-- A queue after its `n` oldest entries were read (R91). -/
def drainStamps (n : Nat) (q : StampQ) : StampQ :=
  { entries := q.entries.drop n, ovf := false, drops := 0 }

/-- What TX_STAMP_READ of up to `n` entries returns of a queue (R91). -/
def stampReadResult (n : Nat) (q : StampQ) : List Byte :=
  leBytes 1 (q.entries.take n).length ++ leBytes 1 (bitN q.ovf 0) ++ leBytes 2 q.drops ++
    ((q.entries.take n).map stampBytes).flatten

@[simp] theorem newStamp_req (port : Nat) (e : StampReq) (s : State) : (newStamp port e s).req = e := rfl

theorem pushStamp_of_full {q : StampQ} (h : 16 ≤ q.entries.length) (x : StampEntry) :
    pushStamp x q = { q with ovf := true, drops := sat 16 (q.drops + 1) } := if_pos h

theorem pushStamp_of_room {q : StampQ} (h : q.entries.length < 16) (x : StampEntry) :
    pushStamp x q = { q with entries := q.entries ++ [x] } := if_neg h.not_ge

theorem queueStamp_stamps (port : Nat) (e : StampReq) (s : State) :
    (queueStamp port e s).time.stamps = s.time.stamps.modify port (pushStamp (newStamp port e s)) := rfl

theorem queueStamp_getElem?_port {port : Nat} {s : State} {q : StampQ} (hq : s.time.stamps[port]? = some q)
    (e : StampReq) : (queueStamp port e s).time.stamps[port]? = some (pushStamp (newStamp port e s) q) := by
  rw [queueStamp_stamps, List.getElem?_modify_eq, hq]
  rfl

/-- TX_STAMP_READ of one of the 12 ports, with a count from 1 to 16 (R91), drains the port's queue. -/
theorem txStampReadSpec_run_of_inRange {p : Packet} (hport : fieldByte p.payload 0 ≤ 11) (hmin : 1 ≤ fieldByte p.payload 1)
    (hmax : fieldByte p.payload 1 ≤ 16) (k : Nat) (s : State) :
    txStampReadSpec.run k p s =
      { status := 0
        result := stampReadResult (fieldByte p.payload 1) (s.time.stamps.getD (fieldByte p.payload 0) {})
        state := { s with time.stamps :=
          s.time.stamps.modify (fieldByte p.payload 0) (drainStamps (fieldByte p.payload 1)) } } := by
  have inRange : ¬ (11 < fieldByte p.payload 0 || fieldByte p.payload 1 = 0 || 16 < fieldByte p.payload 1) := by
    simp only [Bool.or_eq_true, decide_eq_true_eq]
    omega
  exact if_neg inRange

end Sys2Proof.Machine

namespace Sys2Proof.Claims

open Sys2Proof.Machine

/-- Settles O60: the port's queue after `queueStamp` is `pushStamp` of it, that after TX_STAMP_READ `drainStamps` of it. -/
theorem fullStampQueuesDropTheNewest : Obligations.FullStampQueuesDropTheNewest := by
  refine ⟨fun port e s q hq hfull => ?full, fun port e s q hq hroom => ⟨newStamp port e s, newStamp_req port e s, ?room⟩,
    fun k p s q hport hmin hmax hq => ?read⟩
  case full => rw [queueStamp_getElem?_port hq, pushStamp_of_full hfull]
  case room => rw [queueStamp_getElem?_port hq, pushStamp_of_room hroom]
  case read =>
    have hget : s.time.stamps.getD (fieldByte p.payload 0) {} = q := by rw [List.getD_eq_getElem?_getD, hq, Option.getD_some]
    rw [txStampReadSpec_run_of_inRange hport hmin hmax, hget]
    refine ⟨rfl, rfl, ?_⟩
    rw [List.getElem?_modify_eq, hq]
    rfl

end Sys2Proof.Claims
end

section
/-! Frames: what each command leaves alone, gathered over all commands; what follows for the queue and for the MRAM. -/

namespace Sys2Proof.Machine

open Sys2Proof.Claims

@[simp] theorem putBack_self (s : State) (ps : List Claims.Part) : putBack s s ps = s := by
  simp only [putBack, pick, ite_self]

/-- Two states that look alike once the parts `ps` are put back as in the first agree on every other part. -/
theorem putBack_eq_of_look {s t : State} {ps : List Claims.Part}
    (h : look (fun u => putBack s u ps) t = look (fun u => putBack s u ps) s) : putBack s t ps = s :=
  h.trans (putBack_self s ps)

theorem pick_of_not_mem {α : Type} {ps : List Claims.Part} {p : Claims.Part} (h : p ∉ ps) (a b : α) : pick ps p a b = b := by
  simp [pick, h]

/-- The frame lemma of each command, observed at the state with the parts it touches put back. -/
theorem putBack_touches {c : Instr} {s t : State} (he : exec c s = .next t) : putBack s t (touches c) = s := by
  refine putBack_eq_of_look ?_
  cases c with
  | tickStrobe _ => exact execTickStrobe_only _ (by intros; rfl) _ _ _ he
  | frameBoundary => exact execFrameBoundary_only _ (by intros; rfl) _ _ he
  | recordArrival _ => exact execRecordArrival_only _ (by intros; rfl) _ _ _ he
  | redelivery _ _ _ _ => exact execRedelivery_only _ (by intros; rfl) _ _ _ _ _ _ he
  | junctionInputPathFault _ => exact execJunctionInputPathFault_only _ (by intros; rfl) _ _ _ he
  | inputGather _ => exact execInputGather_only _ (by intros; rfl) _ _ _ he
  | fastPacketTimeout _ _ _ => exact execFastPacketTimeout_only _ (by intros; rfl) _ _ _ _ _ he
  | timeAlignment => exact execTimeAlignment_only _ (by intros; rfl) _ _ he
  | sensorDeviating _ _ => exact execSensorDeviating_only _ (by intros; rfl) _ _ _ _ he
  | sensorReadmit _ _ => exact execSensorReadmit_only _ (by intros; rfl) _ _ _ _ he
  | targetAssociation => exact execTargetAssociation_only _ (by intros; rfl) _ _ he
  | refNoData _ _ => exact execRefNoData_only _ (by intros; rfl) _ _ _ _ he
  | gridFusion => exact execGridFusion_only _ (by intros; rfl) _ _ he
  | refConflictRaised => exact execRefConflictRaised_only _ (by intros; rfl) _ _ he
  | refConflictCleared => exact execRefConflictCleared_only _ (by intros; rfl) _ _ he
  | conflictTimeout => exact execConflictTimeout_only _ (by intros; rfl) _ _ he
  | recentreMeasured => exact execRecentreMeasured_only _ (by intros; rfl) _ _ he
  | probationEnd _ => exact execProbationEnd_only _ (by intros; rfl) _ _ _ he
  | observer => exact execObserver_only _ (by intros; rfl) _ _ he
  | observerInitEnd => exact execObserverInitEnd_only _ (by intros; rfl) _ _ he
  | controlLaw => exact execControlLaw_only _ (by intros; rfl) _ _ he
  | positionTermsReturn => exact execPositionTermsReturn_only _ (by intros; rfl) _ _ he
  | periodLost _ => exact execPeriodLost_only _ (by intros; rfl) _ _ _ he
  | allocation => exact execAllocation_only _ (by intros; rfl) _ _ he
  | allocFailing => exact execAllocFailing_only _ (by intros; rfl) _ _ he
  | demandUnmet _ => exact execDemandUnmet_only _ (by intros; rfl) _ _ _ he
  | transitEntry _ _ => exact execTransitEntry_only _ (by intros; rfl) _ _ _ _ he
  | outputDistribution => exact execOutputDistribution_only _ (by intros; rfl) _ _ he
  | loopBankSwapApply => exact execLoopBankSwapApply_only _ (by intros; rfl) _ _ he
  | injectionStart => exact execInjectionStart_only _ (by intros; rfl) _ _ he
  | injectionEnd => exact execInjectionEnd_only _ (by intros; rfl) _ _ he
  | captureDone => exact execCaptureDone_only _ (by intros; rfl) _ _ he
  | checkpoint _ => exact execCheckpoint_only _ (by intros; rfl) _ _ _ he
  | hostService _ => exact execHostService_only _ (by intros; rfl) _ _ _ he
  | logging _ => exact execLogging_only _ (by intros; rfl) _ _ _ he
  | housekeeping _ _ => exact execHousekeeping_only _ (by intros; rfl) _ _ _ _ he
  | heldAtSignal _ _ => exact execHeldAtSignal_only _ (by intros; rfl) _ _ _ _ he
  | outcomeTimeout _ _ => exact execOutcomeTimeout_only _ (by intros; rfl) _ _ _ _ he
  | chainClosingHold _ => exact execChainClosingHold_only _ (by intros; rfl) _ _ _ he
  | persistentHold _ => exact execPersistentHold_only _ (by intros; rfl) _ _ _ he
  | deferredTrafficRelease _ => exact execDeferredTrafficRelease_only _ (by intros; rfl) _ _ _ he
  | deferredCommandEffect => exact execDeferredCommandEffect_only _ (by intros; rfl) _ _ he
  | sourceQualified _ _ => exact execSourceQualified_only _ (by intros; rfl) _ _ _ _ he
  | sourceLost _ => exact execSourceLost_only _ (by intros; rfl) _ _ _ he
  | stepApplied _ => exact execStepApplied_only _ (by intros; rfl) _ _ _ he
  | slewComplete => exact execSlewComplete_only _ (by intros; rfl) _ _ he
  | freerunEntry => exact execFreerunEntry_only _ (by intros; rfl) _ _ he
  | ext10mQualified => exact execExt10mQualified_only _ (by intros; rfl) _ _ he
  | ext10mLost => exact execExt10mLost_only _ (by intros; rfl) _ _ he
  | ppsOutPulse _ => exact execPpsOutPulse_only _ (by intros; rfl) _ _ _ he
  | ppsInEdge _ => exact execPpsInEdge_only _ (by intros; rfl) _ _ _ he
  | ptpMessage _ _ => exact execPtpMessage_only _ (by intros; rfl) _ _ _ _ he
  | ptpAnnounceTimeout _ => exact execPtpAnnounceTimeout_only _ (by intros; rfl) _ _ _ he
  | txStampQueued _ _ => exact execTxStampQueued_only _ (by intros; rfl) _ _ _ _ he
  | snapLatch _ => exact execSnapLatch_only _ (by intros; rfl) _ _ _ he
  | timeGet _ => exact execTimeGet_only _ (by intros; rfl) _ _ _ he
  | timeSource _ => exact execTimeSource_only _ (by intros; rfl) _ _ _ he
  | ptpConfig _ => exact execPtpConfig_only _ (by intros; rfl) _ _ _ he
  | txStampRead _ => exact execTxStampRead_only _ (by intros; rfl) _ _ _ he
  | ppsConfig _ => exact execPpsConfig_only _ (by intros; rfl) _ _ _ he
  | gnssEpoch _ => exact execGnssEpoch_only _ (by intros; rfl) _ _ _ he
  | epochBlockTimeout => exact execEpochBlockTimeout_only _ (by intros; rfl) _ _ he
  | channelStateChange _ _ => exact execChannelStateChange_only _ (by intros; rfl) _ _ _ _ he
  | modeFallback => exact execModeFallback_only _ (by intros; rfl) _ _ he
  | modeReturn => exact execModeReturn_only _ (by intros; rfl) _ _ he
  | rtcmFrame _ => exact execRtcmFrame_only _ (by intros; rfl) _ _ _ he
  | antennaFaultDetect _ _ => exact execAntennaFaultDetect_only _ (by intros; rfl) _ _ _ _ he
  | antennaRetry _ _ => exact execAntennaRetry_only _ (by intros; rfl) _ _ _ _ he
  | snapshotCapture _ => exact execSnapshotCapture_only _ (by intros; rfl) _ _ _ he
  | hotfixComplete _ => exact execHotfixComplete_only _ (by intros; rfl) _ _ _ he
  | gnssStatus _ => exact execGnssStatus_only _ (by intros; rfl) _ _ _ he
  | gnssRaw _ => exact execGnssRaw_only _ (by intros; rfl) _ _ _ he
  | gnssCorrections _ => exact execGnssCorrections_only _ (by intros; rfl) _ _ _ he
  | gnssMode _ => exact execGnssMode_only _ (by intros; rfl) _ _ _ he
  | integrityReport _ => exact execIntegrityReport_only _ (by intros; rfl) _ _ _ he
  | refEnable _ => exact execRefEnable_only _ (by intros; rfl) _ _ _ he
  | refDisable _ => exact execRefDisable_only _ (by intros; rfl) _ _ _ he
  | refStatus _ => exact execRefStatus_only _ (by intros; rfl) _ _ _ he
  | leverArmGet _ => exact execLeverArmGet_only _ (by intros; rfl) _ _ _ he
  | leverArmFreeze _ => exact execLeverArmFreeze_only _ (by intros; rfl) _ _ _ he
  | trackTableRead _ => exact execTrackTableRead_only _ (by intros; rfl) _ _ _ he
  | fusionStatus _ => exact execFusionStatus_only _ (by intros; rfl) _ _ _ he
  | gridSnapshot _ => exact execGridSnapshot_only _ (by intros; rfl) _ _ _ he
  | gridHoldExpiry => exact execGridHoldExpiry_only _ (by intros; rfl) _ _ he
  | conflictResolve _ => exact execConflictResolve_only _ (by intros; rfl) _ _ _ he
  | setpointSet _ => exact execSetpointSet_only _ (by intros; rfl) _ _ _ he
  | loopBankWrite _ => exact execLoopBankWrite_only _ (by intros; rfl) _ _ _ he
  | loopBankSwap _ => exact execLoopBankSwap_only _ (by intros; rfl) _ _ _ he
  | injectStart _ => exact execInjectStart_only _ (by intros; rfl) _ _ _ he
  | captureRead _ => exact execCaptureRead_only _ (by intros; rfl) _ _ _ he
  | repetitiveCtrl _ => exact execRepetitiveCtrl_only _ (by intros; rfl) _ _ _ he
  | allocStatus _ => exact execAllocStatus_only _ (by intros; rfl) _ _ _ he
  | thrusterEnable _ => exact execThrusterEnable_only _ (by intros; rfl) _ _ _ he
  | thrusterDisable _ => exact execThrusterDisable_only _ (by intros; rfl) _ _ _ he
  | allocMode _ => exact execAllocMode_only _ (by intros; rfl) _ _ _ he
  | attachBodySet _ => exact execAttachBodySet_only _ (by intros; rfl) _ _ _ he
  | applyMarker _ _ => exact execApplyMarker_only _ (by intros; rfl) _ _ _ _ he
  | upstreamSlot _ => exact execUpstreamSlot_only _ (by intros; rfl) _ _ _ he
  | linkFault _ => exact execLinkFault_only _ (by intros; rfl) _ _ _ he
  | splitAlarm _ => exact execSplitAlarm_only _ (by intros; rfl) _ _ _ he
  | islandSample _ _ => exact execIslandSample_only _ (by intros; rfl) _ _ _ _ he
  | complianceSet _ => exact execComplianceSet_only _ (by intros; rfl) _ _ _ he
  | complianceClear _ => exact execComplianceClear_only _ (by intros; rfl) _ _ _ he
  | readbackFault _ => exact execReadbackFault_only _ (by intros; rfl) _ _ _ he
  | alarmEntry _ => exact execAlarmEntry_only _ (by intros; rfl) _ _ _ he
  | alarmUndeliverable _ => exact execAlarmUndeliverable_only _ (by intros; rfl) _ _ _ he
  | assistedPowerFail _ => exact execAssistedPowerFail_only _ (by intros; rfl) _ _ _ he
  | linkSlotLossHold _ => exact execLinkSlotLossHold_only _ (by intros; rfl) _ _ _ he
  | holdTimeout _ => exact execHoldTimeout_only _ (by intros; rfl) _ _ _ he
  | energyLow _ => exact execEnergyLow_only _ (by intros; rfl) _ _ _ he
  | captureTimeout _ => exact execCaptureTimeout_only _ (by intros; rfl) _ _ _ he
  | seriesLimitedExpiry _ => exact execSeriesLimitedExpiry_only _ (by intros; rfl) _ _ _ he
  | decimationOutput _ _ => exact execDecimationOutput_only _ (by intros; rfl) _ _ _ _ he
  | overloadSet _ => exact execOverloadSet_only _ (by intros; rfl) _ _ _ he
  | overloadClear _ => exact execOverloadClear_only _ (by intros; rfl) _ _ _ he
  | noPulse _ => exact execNoPulse_only _ (by intros; rfl) _ _ _ he
  | hartFrameReceived _ _ => exact execHartFrameReceived_only _ (by intros; rfl) _ _ _ _ he
  | hartTransactionEnd _ _ => exact execHartTransactionEnd_only _ (by intros; rfl) _ _ _ _ he
  | multidropPoll _ _ => exact execMultidropPoll_only _ (by intros; rfl) _ _ _ _ he
  | missingRetry _ _ _ => exact execMissingRetry_only _ (by intros; rfl) _ _ _ _ _ he
  | configPendingApply _ => exact execConfigPendingApply_only _ (by intros; rfl) _ _ _ he
  | complianceCheckPhase _ => exact execComplianceCheckPhase_only _ (by intros; rfl) _ _ _ he
  | chanConfig _ => exact execChanConfig_only _ (by intros; rfl) _ _ _ he
  | chanStatus _ => exact execChanStatus_only _ (by intros; rfl) _ _ _ he
  | chanRead _ => exact execChanRead_only _ (by intros; rfl) _ _ _ he
  | hartTransact _ => exact execHartTransact_only _ (by intros; rfl) _ _ _ he
  | chanCharacteristic _ => exact execChanCharacteristic_only _ (by intros; rfl) _ _ _ he
  | filterConfig _ => exact execFilterConfig_only _ (by intros; rfl) _ _ _ he
  | complianceCheck _ => exact execComplianceCheck_only _ (by intros; rfl) _ _ _ he
  | sbCommandSet _ => exact execSbCommandSet_only _ (by intros; rfl) _ _ _ he
  | sbInternal _ => exact execSbInternal_only _ (by intros; rfl) _ _ _ he
  | safetyInputChange _ _ => exact execSafetyInputChange_only _ (by intros; rfl) _ _ _ _ he
  | discrepancy _ => exact execDiscrepancy_only _ (by intros; rfl) _ _ _ he
  | safeContactTimeout _ => exact execSafeContactTimeout_only _ (by intros; rfl) _ _ _ he
  | yawRateStop => exact execYawRateStop_only _ (by intros; rfl) _ _ he
  | sbSelfTestEnd _ _ _ => exact execSbSelfTestEnd_only _ (by intros; rfl) _ _ _ _ _ he
  | proofDue => exact execProofDue_only _ (by intros; rfl) _ _ he
  | resetPulse => exact execResetPulse_only _ (by intros; rfl) _ _ he
  | rstStuck => exact execRstStuck_only _ (by intros; rfl) _ _ he
  | rstStuckClear => exact execRstStuckClear_only _ (by intros; rfl) _ _ he
  | springbokRelease => exact execSpringbokRelease_only _ (by intros; rfl) _ _ he
  | springbokTest _ _ => exact execSpringbokTest_only _ (by intros; rfl) _ _ _ _ he
  | safetyStatus _ => exact execSafetyStatus_only _ (by intros; rfl) _ _ _ he
  | safetyLimitsGet _ => exact execSafetyLimitsGet_only _ (by intros; rfl) _ _ _ he
  | proofStatus _ => exact execProofStatus_only _ (by intros; rfl) _ _ _ he
  | egressCopy _ _ _ => exact execEgressCopy_only _ (by intros; rfl) _ _ _ _ _ he
  | egressTimeout _ => exact execEgressTimeout_only _ (by intros; rfl) _ _ _ he
  | reintegrationStart _ => exact execReintegrationStart_only _ (by intros; rfl) _ _ _ he
  | laneEnterService _ => exact execLaneEnterService_only _ (by intros; rfl) _ _ _ he
  | junctionPairDifference _ _ => exact execJunctionPairDifference_only _ (by intros; rfl) _ _ _ _ he
  | junctionBlockRecovered _ _ => exact execJunctionBlockRecovered_only _ (by intros; rfl) _ _ _ _ he
  | ringMessage _ _ => exact execRingMessage_only _ (by intros; rfl) _ _ _ _ he
  | ringLinkUp _ => exact execRingLinkUp_only _ (by intros; rfl) _ _ _ he
  | ringLinkDown _ => exact execRingLinkDown_only _ (by intros; rfl) _ _ _ he
  | linkDelayMeasure _ _ _ => exact execLinkDelayMeasure_only _ (by intros; rfl) _ _ _ _ _ he
  | rollCallStart => exact execRollCallStart_only _ (by intros; rfl) _ _ he
  | rollCallEnd _ => exact execRollCallEnd_only _ (by intros; rfl) () s t he
  | noHome => exact execNoHome_only _ (by intros; rfl) _ _ he
  | roleAssignment => exact execRoleAssignment_only _ (by intros; rfl) _ _ he
  | heartbeatWord _ _ _ => exact execHeartbeatWord_only _ (by intros; rfl) _ _ _ _ _ he
  | leadLost _ => exact execLeadLost_only _ (by intros; rfl) _ _ _ he
  | carrierFault _ _ => exact execCarrierFault_only _ (by intros; rfl) _ _ _ _ he
  | arbConfirmed => exact execArbConfirmed_only _ (by intros; rfl) _ _ he
  | arbRefused => exact execArbRefused_only _ (by intros; rfl) _ _ he
  | leadYield => exact execLeadYield_only _ (by intros; rfl) _ _ he
  | splitViewClear => exact execSplitViewClear_only _ (by intros; rfl) _ _ he
  | takeoverStart => exact execTakeoverStart_only _ (by intros; rfl) _ _ he
  | takeoverRestore _ => exact execTakeoverRestore_only _ (by intros; rfl) _ _ _ he
  | takeoverFirstFrame => exact execTakeoverFirstFrame_only _ (by intros; rfl) _ _ he
  | takeoverCapture => exact execTakeoverCapture_only _ (by intros; rfl) _ _ he
  | transferShadowEnd => exact execTransferShadowEnd_only _ (by intros; rfl) _ _ he
  | transferRelease => exact execTransferRelease_only _ (by intros; rfl) _ _ he
  | transferAbort => exact execTransferAbort_only _ (by intros; rfl) _ _ he
  | consistStatus _ => exact execConsistStatus_only _ (by intros; rfl) _ _ _ he
  | rollCall _ => exact execRollCall_only _ (by intros; rfl) _ _ _ he
  | transferLead _ => exact execTransferLead_only _ (by intros; rfl) _ _ _ he
  | laneStatus _ => exact execLaneStatus_only _ (by intros; rfl) _ _ _ he
  | laneReintegrate _ => exact execLaneReintegrate_only _ (by intros; rfl) _ _ _ he
  | commandDatagram _ _ => exact execCommandDatagram_only _ (by intros; rfl) _ _ _ _ he
  | relayRecordExpiry _ => exact execRelayRecordExpiry_only _ (by intros; rfl) _ _ _ he
  | sessionTimeout _ => exact execSessionTimeout_only _ (by intros; rfl) _ _ _ he
  | completionReply _ _ => exact execCompletionReply_only _ (by intros; rfl) _ _ _ _ he
  | responder => exact execResponder_only _ (by intros; rfl) _ _ he
  | queueDoorbell _ _ _ => exact execQueueDoorbell_only _ (by intros; rfl) _ _ _ _ _ he
  | queueEnable _ _ => exact execQueueEnable_only _ (by intros; rfl) _ _ _ _ he
  | completionHeadWrite _ _ => exact execCompletionHeadWrite_only _ (by intros; rfl) _ _ _ _ he
  | vecPendClear _ _ => exact execVecPendClear_only _ (by intros; rfl) _ _ _ _ he
  | vecTest _ => exact execVecTest_only _ (by intros; rfl) _ _ _ he
  | registerWrite _ _ => exact execRegisterWrite_only _ (by intros; rfl) _ _ _ _ he
  | ping _ => exact execPing_only _ (by intros; rfl) _ _ _ he
  | getIdentity _ => exact execGetIdentity_only _ (by intros; rfl) _ _ _ he
  | openSession _ => exact execOpenSession_only _ (by intros; rfl) _ _ _ he
  | closeSession _ => exact execCloseSession_only _ (by intros; rfl) _ _ _ he
  | getResult _ => exact execGetResult_only _ (by intros; rfl) _ _ _ he
  | ackResult _ => exact execAckResult_only _ (by intros; rfl) _ _ _ he
  | getState _ => exact execGetState_only _ (by intros; rfl) _ _ _ he
  | setMode _ => exact execSetMode_only _ (by intros; rfl) _ _ _ he
  | imageBegin _ => exact execImageBegin_only _ (by intros; rfl) _ _ _ he
  | imageChunk _ _ => exact execImageChunk_only _ (by intros; rfl) _ _ _ _ he
  | imageTransferAbandon => exact execImageTransferAbandon_only _ (by intros; rfl) _ _ he
  | imageCommit _ => exact execImageCommit_only _ (by intros; rfl) _ _ _ he
  | imageCommitComplete _ => exact execImageCommitComplete_only _ (by intros; rfl) _ _ _ he
  | imageInfo _ => exact execImageInfo_only _ (by intros; rfl) _ _ _ he
  | timetableStatus _ => exact execTimetableStatus_only _ (by intros; rfl) _ _ _ he
  | timetableCounters _ => exact execTimetableCounters_only _ (by intros; rfl) _ _ _ he
  | recorderWrite _ => exact execRecorderWrite_only _ (by intros; rfl) _ _ _ he
  | recLoad => exact execRecLoad_only _ (by intros; rfl) _ _ he
  | recNext => exact execRecNext_only _ (by intros; rfl) _ _ he
  | recPrev => exact execRecPrev_only _ (by intros; rfl) _ _ he
  | recLoadComplete => exact execRecLoadComplete_only _ (by intros; rfl) _ _ he
  | recReadBlock _ => exact execRecReadBlock_only _ (by intros; rfl) _ _ _ he
  | recInfo _ => exact execRecInfo_only _ (by intros; rfl) _ _ _ he
  | recClear _ => exact execRecClear_only _ (by intros; rfl) _ _ _ he
  | recMark _ => exact execRecMark_only _ (by intros; rfl) _ _ _ he
  | displayFrameStart _ => exact execDisplayFrameStart_only _ (by intros; rfl) _ _ _ he
  | crackDetected => exact execCrackDetected_only _ (by intros; rfl) _ _ he
  | glassTemperatureSample _ => exact execGlassTemperatureSample_only _ (by intros; rfl) _ _ _ he
  | regionDead _ => exact execRegionDead_only _ (by intros; rfl) _ _ _ he
  | regionHoldEnd _ => exact execRegionHoldEnd_only _ (by intros; rfl) _ _ _ he
  | dispRegionWrite _ => exact execDispRegionWrite_only _ (by intros; rfl) _ _ _ he
  | dispStatus _ => exact execDispStatus_only _ (by intros; rfl) _ _ _ he
  | dispConfig _ => exact execDispConfig_only _ (by intros; rfl) _ _ _ he
  | supplyChange _ _ _ => exact execSupplyChange_only _ (by intros; rfl) _ _ _ _ _ he
  | vbakTest _ => exact execVbakTest_only _ (by intros; rfl) _ _ _ he
  | powerFail => exact execPowerFail_only _ (by intros; rfl) _ _ he
  | holdupStop _ => exact execHoldupStop_only _ (by intros; rfl) _ _ _ he
  | chamoisSecond => exact execChamoisSecond_only _ (by intros; rfl) _ _ he
  | chamoisCopy => exact execChamoisCopy_only _ (by intros; rfl) _ _ he
  | vbakCollapse => exact execVbakCollapse_only _ (by intros; rfl) _ _ he
  | overTemperature _ => exact execOverTemperature_only _ (by intros; rfl) _ _ _ he
  | faultRestart => exact execFaultRestart_only _ (by intros; rfl) _ _ he
  | layoverEntry => exact execLayoverEntry_only _ (by intros; rfl) _ _ he
  | layoverLanesOff => exact execLayoverLanesOff_only _ (by intros; rfl) _ _ he
  | sysRstAssert _ => exact execSysRstAssert_only _ (by intros; rfl) _ _ _ he
  | sysRstRelease _ => exact execSysRstRelease_only _ (by intros; rfl) _ _ _ he
  | bootStart _ => exact execBootStart_only _ (by intros; rfl) _ _ _ he
  | bootComplete _ => exact execBootComplete_only _ (by intros; rfl) _ _ _ he
  | watchdog _ => exact execWatchdog_only _ (by intros; rfl) _ _ _ he
  | powerStatus _ => exact execPowerStatus_only _ (by intros; rfl) _ _ _ he
  | powerMode _ => exact execPowerMode_only _ (by intros; rfl) _ _ _ he
  | laneMonitorFault _ _ => exact execLaneMonitorFault_only _ (by intros; rfl) _ _ _ _ he
  | tickStrobeMissing => exact execTickStrobeMissing_only _ (by intros; rfl) _ _ he
  | islandThermalLimit _ => exact execIslandThermalLimit_only _ (by intros; rfl) _ _ _ he
  | sentenceOverlength _ => exact execSentenceOverlength_only _ (by intros; rfl) _ _ _ he
  | ptpMessageTransmit _ _ => exact execPtpMessageTransmit_only _ (by intros; rfl) _ _ _ _ he
  | retainedRegionScrub _ => exact execRetainedRegionScrub_only _ (by intros; rfl) _ _ _ he

theorem touches_leaves_queue (c : Instr) : Claims.Part.queue ∉ touches c := by
  cases c <;> simp [touches]

theorem exec_pending {c : Instr} {s t : State} (he : exec c s = .next t) : t.pending = s.pending := by
  have h : pick (touches c) .queue s.pending t.pending = s.pending := congrArg State.pending (putBack_touches he)
  rwa [pick_of_not_mem (touches_leaves_queue c)] at h

theorem exec_mram_of_untouched {c : Instr} {s t : State} (hc : Claims.Part.mram ∉ touches c) (he : exec c s = .next t) :
    t.mram = s.mram := by
  have h : pick (touches c) .mram s.mram t.mram = s.mram := congrArg State.mram (putBack_touches he)
  rwa [pick_of_not_mem hc] at h

theorem exec_sb_of_untouched {c : Instr} {s t : State} (hc : Claims.Part.signalBox ∉ touches c) (he : exec c s = .next t) :
    t.sb = s.sb := by
  have h : pick (touches c) .signalBox s.sb t.sb = s.sb := congrArg State.sb (putBack_touches he)
  rwa [pick_of_not_mem hc] at h

/-! ### The step -/

theorem step_of_nil {s : State} (h : s.pending = []) : step s = .next s := by
  simp only [step, h]

theorem step_of_cons {s : State} {c : Instr} {rest : List Instr} (h : s.pending = c :: rest) :
    step s = exec c { s with pending := rest } := by
  simp only [step, h]

/-- What a step can do: idle on an empty queue, or execute the command at its front with the rest of the queue. -/
theorem step_cases {s t : State} (h : step s = .next t) :
    (s.pending = [] ∧ t = s) ∨ ∃ c rest, s.pending = c :: rest ∧ exec c { s with pending := rest } = .next t := by
  cases hq : s.pending with
  | nil =>
    rw [step_of_nil hq, Host.Outcome.next.injEq] at h
    exact .inl ⟨rfl, h.symm⟩
  | cons c rest => exact .inr ⟨c, rest, rfl, step_of_cons hq ▸ h⟩

theorem step_pending {s t : State} (h : step s = .next t) : t.pending = s.pending.drop 1 := by
  obtain ⟨hq, rfl⟩ | ⟨c, rest, hq, he⟩ := step_cases h
  · rw [hq, List.drop_nil]
  · rw [exec_pending he, hq, List.drop_one, List.tail_cons]

/-- `k + 1` steps that all go on: a first one, and `k` more. -/
theorem run_succ {M : Host.Core} {k : Nat} {s t : M.State} (h : M.run (k + 1) s = .next t) :
    ∃ u, M.step s = .next u ∧ M.run k u = .next t := by
  rw [Host.Core.run] at h
  split at h
  case h_1 u hu => exact ⟨u, hu, h⟩
  all_goals cases h

/-! ### The MRAM -/

theorem exec_memWf {c : Instr} {s t : State} (hs : memWf s.mram = true) (he : exec c s = .next t) : memWf t.mram = true := by
  by_cases hc : Claims.Part.mram ∈ touches c
  · cases c with
    | checkpoint x => exact execCheckpoint_memWf x s t he hs
    | hostService rep => exact execHostService_memWf rep s t he hs
    | responder => exact execResponder_memWf s t he hs
    | deferredTrafficRelease x => exact execDeferredTrafficRelease_memWf x s t he hs
    | ringMessage east x => exact execRingMessage_memWf east x s t he hs
    | rollCallStart => exact execRollCallStart_memWf s t he hs
    | takeoverStart => exact execTakeoverStart_memWf s t he hs
    | imageChunk p ok => exact execImageChunk_memWf p ok s t he hs
    | recorderWrite fails => exact execRecorderWrite_memWf fails s t he hs
    | powerFail => exact execPowerFail_memWf s t he hs
    | holdupStop b => exact execHoldupStop_memWf b s t he hs
    | chamoisCopy => exact execChamoisCopy_memWf s t he hs
    | bootComplete b => exact execBootComplete_memWf b s t he hs
    | _ => simp [touches] at hc
  · rwa [exec_mram_of_untouched hc he]

theorem step_memWf {s t : State} (hs : memWf s.mram = true) (h : step s = .next t) : memWf t.mram = true := by
  obtain ⟨-, rfl⟩ | ⟨c, rest, -, he⟩ := step_cases h
  · exact hs
  · exact exec_memWf (s := { s with pending := rest }) hs he

/-! ### Commands that stop -/

theorem execRegisterWrite_of_outside {offset : Nat} (h : 65536 ≤ offset) (value : Nat) (s : State) :
    execRegisterWrite offset value s = .fault (.outsideBar0 offset) := if_pos h

theorem execRegisterWrite_of_inside {offset : Nat} (h : offset < 65536) (value : Nat) (s : State) :
    ∃ t, execRegisterWrite offset value s = .next t := ⟨_, if_neg h.not_ge⟩

end Sys2Proof.Machine

namespace Sys2Proof.Claims

open Sys2Proof.Machine

/-- Settles O2, by induction on the number of steps: each takes one command out, and none puts one in. -/
theorem queueDrainsInOrder : Obligations.QueueDrainsInOrder := by
  intro k
  induction k with
  | zero =>
    intro s t h
    cases h
    exact List.drop_zero.symm
  | succ k ih =>
    intro s t h
    obtain ⟨u, hu, ht⟩ := run_succ (M := core) h
    rw [ih u t ht, step_pending hu, List.drop_drop, Nat.add_comm]

/-- Settles O3: the frame lemmas of the commands, one for each. -/
theorem commandFrames : Obligations.CommandFrames := fun _ _ _ he => putBack_touches he

/-- Settles O4: a command either keeps the form of what it writes or leaves the MRAM alone. -/
theorem mramStaysCanonical : Obligations.MramStaysCanonical := fun _ _ hs h => step_memWf hs h

/-- Settles O1, by the two cases of the queue. -/
theorem stepTakesTheFront : Obligations.StepTakesTheFront :=
  ⟨fun _ _ _ hq => step_of_cons hq, fun _ hq => step_of_nil hq⟩

/-- Settles O5: the meaning of every command but REGISTER_WRITE is a next state by its form. -/
theorem onlyWritesBeyondBar0Stop : Obligations.OnlyWritesBeyondBar0Stop := by
  refine ⟨fun offset value s h => execRegisterWrite_of_outside h value s, fun c s hc => ?_⟩
  cases c with
  | registerWrite offset value => exact execRegisterWrite_of_inside (hc offset value rfl) value s
  | _ => exact ⟨_, rfl⟩

/-- Settles O6, by the laws of the cell memory. -/
theorem memoryReadsWhatWasWritten : Obligations.MemoryReadsWhatWasWritten :=
  fun m a v hm => ⟨memRead_memWrite_same m a v hm, fun b hb => memRead_memWrite_ne m a b v hb hm⟩

end Sys2Proof.Claims
end

section
/-! The signal box (chapter 10): nothing but RESET_PULSE enters RUN, and nothing closes a contact or releases a line outside
RUN. -/

namespace Sys2Proof.Machine

open Sys2Proof.Claims

theorem next_if_pos {c : Prop} [Decidable c] (h : c) {s t : State} :
    (Host.Outcome.next (if c then s else t) : Host.Outcome State Fault Refusal) = .next s := congrArg _ (if_pos h)

theorem next_if_neg {c : Prop} [Decidable c] (h : ¬ c) {s t : State} :
    (Host.Outcome.next (if c then s else t) : Host.Outcome State Fault Refusal) = .next t := congrArg _ (if_neg h)

/-- What the safe state of the signal box shows in: its state, both contacts' commands and both lines (R314, R321). -/
def stopView (b : SbSt) : SbState × Bool × Bool × Bool × Bool := (b.state, b.cmdA, b.cmdB, b.springA, b.springB)

/-- `b'` follows on `b` without an entry to RUN, and without a contact commanded closed or a line released outside RUN. -/
structure KeepsStop (b b' : SbSt) : Prop where
  no_entry : b'.state = .run → b.state = .run
  safe : SafeOutsideRun b → SafeOutsideRun b'

theorem KeepsStop.refl (b : SbSt) : KeepsStop b b := ⟨id, id⟩

theorem KeepsStop.trans {b b' b'' : SbSt} (h : KeepsStop b b') (h' : KeepsStop b' b'') : KeepsStop b b'' :=
  ⟨fun hr => h.no_entry (h'.no_entry hr), fun hs => h'.safe (h.safe hs)⟩

theorem keepsStop_of_view {b b' : SbSt} (h : stopView b' = stopView b) : KeepsStop b b' := by
  simp only [stopView, Prod.mk.injEq] at h
  obtain ⟨hstate, hcmdA, hcmdB, hspringA, hspringB⟩ := h
  refine ⟨fun hr => hstate ▸ hr, fun hs => ?_⟩
  unfold SafeOutsideRun at *
  rwa [hstate, hcmdA, hcmdB, hspringA, hspringB]

theorem keepsStop_of_stopped {b b' : SbSt} (hstate : b'.state ≠ .run)
    (h : b'.cmdA = false ∧ b'.cmdB = false ∧ b'.springA = true ∧ b'.springB = true) : KeepsStop b b' :=
  ⟨fun hr => absurd hr hstate, fun _ _ => h⟩

theorem KeepsStop.ite {b : SbSt} {c : Prop} [Decidable c] {s t : State} (hs : KeepsStop b s.sb) (ht : KeepsStop b t.sb) :
    KeepsStop b (if c then s else t).sb := by
  split
  · exact hs
  · exact ht

/-- The view of the signal box is blind to every other part of the state. -/
def sbView (s : State) : SbState × Bool × Bool × Bool × Bool := stopView s.sb

@[simp] theorem look_sbView_mk (s : State) (a0 a1 a2 a3 a4 a5 a6 a7 a8 a9 a10 a11 a12 a13 a14 a15 a16 a18 a19 a20 a21 a22 a23 a24 a25) :
    look sbView (State.mk a0 a1 a2 a3 a4 a5 a6 a7 a8 a9 a10 a11 a12 a13 a14 a15 a16 s.sb a18 a19 a20 a21 a22 a23 a24 a25) =
      look sbView s := by
  simp only [look, sbView]

theorem keepsStop_of_look {s t : State} (h : look sbView t = look sbView s) : KeepsStop s.sb t.sb := keepsStop_of_view h

/-- An operation after which the signal box is at most stopped. -/
def KeepsSb (f : State → State) : Prop := ∀ s, KeepsStop s.sb (f s).sb

theorem KeepsSb.after {f : State → State} (hf : KeepsSb f) {s u : State} (h : look sbView u = look sbView s) :
    KeepsStop s.sb (f u).sb := (keepsStop_of_look h).trans (hf u)

theorem keepsStop_foldl {α : Type} {f : State → α → State} (h : ∀ x, KeepsSb (f · x)) (l : List α) (s : State) :
    KeepsStop s.sb (l.foldl f s).sb := by
  induction l generalizing s with
  | nil => exact .refl s.sb
  | cons x l ih => exact (h x s).trans (ih (f s x))

/-! ### Changes of state (R314, R316, R321) -/

@[simp] theorem dropProof_view (s : State) : stopView (dropProof s).sb = stopView s.sb := by
  unfold dropProof
  split <;> rfl

@[simp] theorem sbRecord_view (code : Nat) (data : List Byte) (s : State) : stopView (sbRecord code data s).sb = stopView s.sb :=
  rfl

theorem sbGoto_of_stopped (target : SbState) (cause : Nat) {s : State} (h : s.sb.state ≠ .run) :
    stopView (sbGoto target cause s).sb = (target, s.sb.cmdA, s.sb.cmdB, s.sb.springA, s.sb.springB) := by
  have hold : ¬ (s.sb.state == .run) = true := by simpa using h
  simp only [sbGoto, if_neg hold]
  split
  · rw [dropProof_view]
    rfl
  · rfl

@[simp] theorem dropProof_stops (s : State) : (dropProof s).sb.stops = s.sb.stops := by
  unfold dropProof
  split <;> rfl

@[simp] theorem dropProof_mono (s : State) : (dropProof s).mono = s.mono := by
  unfold dropProof
  split <;> rfl

@[simp] theorem dropProof_time (s : State) : (dropProof s).time = s.time := by
  unfold dropProof
  split <;> rfl

@[simp] theorem dropProof_state (s : State) : (dropProof s).sb.state = s.sb.state := by
  unfold dropProof
  split <;> rfl

/-- What the exit from RUN does to the signal box itself. -/
theorem sbGoto_of_run (target : SbState) (cause : Nat) {s : State} (h : s.sb.state = .run) :
    stopView (sbGoto target cause s).sb = (target, false, false, true, true) ∧
    (sbGoto target cause s).sb.stops = sat 32 (s.sb.stops + 1) ∧ (sbGoto target cause s).sb.openCmdAt = some s.mono ∧
    (sbGoto target cause s).sb.stopSec = s.time.sec ∧ (sbGoto target cause s).sb.stopNs = s.time.ns := by
  have hold : (s.sb.state == .run) = true := by simp [h]
  simp only [sbGoto, if_pos hold]
  split <;> simp [springAssert, stopView, sbRecord]

theorem sbGoto_keepsStop {target : SbState} (cause : Nat) (ht : target ≠ .run) : KeepsSb (sbGoto target cause) := by
  intro s
  by_cases h : s.sb.state = .run
  · have hview := (sbGoto_of_run target cause h).1
    simp only [stopView, Prod.mk.injEq] at hview
    obtain ⟨hstate, hcmdA, hcmdB, hspringA, hspringB⟩ := hview
    exact keepsStop_of_stopped (fun hr => ht (hstate.symm.trans hr)) ⟨hcmdA, hcmdB, hspringA, hspringB⟩
  · have hview := sbGoto_of_stopped target cause h
    simp only [stopView, Prod.mk.injEq] at hview
    obtain ⟨hstate, hcmdA, hcmdB, hspringA, hspringB⟩ := hview
    refine ⟨fun hr => absurd (hstate.symm.trans hr) ht, fun hs _ => ?_⟩
    rw [hcmdA, hcmdB, hspringA, hspringB]
    exact hs h

theorem springAssert_keepsStop : KeepsSb springAssert :=
  fun _ => ⟨id, fun hs hr => ⟨(hs hr).1, (hs hr).2.1, rfl, rfl⟩⟩

theorem proofStep_view (s : State) : stopView (proofStep s).sb = stopView s.sb :=
  look_ite (π := sbView) rfl rfl

theorem laterCauses_view (cs : List Nat) (s : State) : stopView (laterCauses cs s).sb = stopView s.sb :=
  look_foldl (fun u => stopView u.sb) (fun u c => sbRecord 2 (leBytes 1 c) u) (fun _ _ => rfl) cs s

/-- The judgement of the causes goes to PROOF_PENDING, RESET_WAIT or STOPPED at most (Table 10-4). -/
theorem sbEval_keepsStop (prev : List Nat) : KeepsSb (sbEval prev) := by
  intro s
  have hproof : KeepsStop s.sb (proofStep s).sb := keepsStop_of_view (proofStep_view s)
  have hlater (cs : List Nat) (u : State) : KeepsStop u.sb (laterCauses cs u).sb := keepsStop_of_view (laterCauses_view cs u)
  have hgo {x : SbState} (hx : x ≠ .run) (cause : Nat) (u : State) : KeepsStop u.sb (sbGoto x cause u).sb :=
    sbGoto_keepsStop cause hx u
  unfold sbEval
  dsimp only
  refine hproof.trans ?_
  generalize proofStep s = u
  have hwait : KeepsStop u.sb (if (u.sb.state == .proofPending && u.sb.proofDone) = true then sbGoto .resetWait 0 u else u).sb := by
    split
    · exact hgo (by decide) 0 u
    · exact .refl _
  refine hwait.trans ?_
  generalize (if (u.sb.state == .proofPending && u.sb.proofDone) = true then sbGoto .resetWait 0 u else u) = v
  split
  case h_1 | h_2 =>
    split
    · exact .refl _
    · exact (hgo (by decide) _ v).trans (hlater _ _)
  case h_3 =>
    refine (hlater ((sbCauses v.sb).filter fun c => !prev.contains c) v).trans ?_
    split
    · exact .refl _
    · split
      · exact hgo (by decide) 0 _
      · exact hgo (by decide) 0 _
  case h_4 => exact .refl _

theorem sbFault_keepsStop (cause : Nat) : KeepsSb (sbFault cause) := by
  intro s
  unfold sbFault
  split
  · exact .refl _
  · exact (sbGoto_keepsStop cause (by decide) s).trans (springAssert_keepsStop _)

theorem yawWatch_keepsStop (yaw : Option Qty) : KeepsSb (yawWatch · yaw) := by
  intro s
  simp only [yawWatch]
  split
  · exact .refl _
  · split
    · exact keepsStop_of_view rfl
    · split
      · exact keepsStop_of_view rfl
      · exact (sbEval_keepsStop _).after rfl

/-! ### The events of the signal box -/

/-- A tick of the signal box writes what the sets gave, watches the yaw rate, and reports in the tick set. -/
theorem sbTick_keepsStop (s : State) (x : SbTickIn) : KeepsStop s.sb (sbTick s x).sb := by
  unfold sbTick
  extract_lets _ _ _ _ yaw _ _ _ _ _ _ _ _ limited
  have hlimited : look sbView limited = look sbView s := rfl
  exact .trans ((yawWatch_keepsStop yaw).after hlimited) (keepsStop_of_look (addRecord_only sbView (by simp) _ _))

theorem contactsTested_keepsStop : KeepsSb contactsTested :=
  fun _ => .ite ((sbEval_keepsStop _).after rfl) (.refl _)

theorem execSbInternal_keepsStop {cause : SbFaultKind} {s t : State} (he : execSbInternal cause s = .next t) :
    KeepsStop s.sb t.sb := by
  simp only [execSbInternal, Host.Outcome.next.injEq] at he
  subst he
  exact .ite (sbFault_keepsStop _ _) (.refl _)

theorem execSafetyInputChange_keepsStop {pin : SafetyPin} {closed : Bool} {s t : State}
    (he : execSafetyInputChange pin closed s = .next t) : KeepsStop s.sb t.sb := by
  simp only [execSafetyInputChange, Host.Outcome.next.injEq] at he
  subst he
  refine .ite (.refl _) ?_
  cases pin
  case rstAck => exact .ite (keepsStop_of_view rfl) (keepsStop_of_view rfl)
  all_goals exact (sbEval_keepsStop _).after rfl

theorem execDiscrepancy_keepsStop {pair : SafetyPair} {s t : State} (he : execDiscrepancy pair s = .next t) :
    KeepsStop s.sb t.sb := by
  simp only [execDiscrepancy, Host.Outcome.next.injEq] at he
  subst he
  refine .ite (.refl _) ?_
  cases pair <;> exact .ite ((sbEval_keepsStop _).after rfl) (.refl _)

theorem execSafeContactTimeout_keepsStop {contactB : Bool} {s t : State} (he : execSafeContactTimeout contactB s = .next t) :
    KeepsStop s.sb t.sb := by
  simp only [execSafeContactTimeout, Host.Outcome.next.injEq] at he
  subst he
  exact .ite ((sbFault_keepsStop _).after rfl) (.refl _)

theorem execYawRateStop_keepsStop {s t : State} (he : execYawRateStop s = .next t) : KeepsStop s.sb t.sb := by
  simp only [execYawRateStop, Host.Outcome.next.injEq] at he
  subst he
  exact .ite ((sbEval_keepsStop _).after rfl) (.refl _)

theorem execSbSelfTestEnd_keepsStop {passed openA openB : Bool} {s t : State}
    (he : execSbSelfTestEnd passed openA openB s = .next t) : KeepsStop s.sb t.sb := by
  simp only [execSbSelfTestEnd, Host.Outcome.next.injEq] at he
  subst he
  refine .ite (.refl _) (.ite (keepsStop_of_view rfl) (.trans ?_ (sbEval_keepsStop _ _)))
  refine .trans (keepsStop_of_view (b' := (proofStep { s with sb.testA := true, sb.testB := true }).sb) ?_)
    (sbGoto_keepsStop 0 (by split <;> decide) _)
  exact proofStep_view { s with sb.testA := true, sb.testB := true }

theorem execProofDue_keepsStop {s t : State} (he : execProofDue s = .next t) : KeepsStop s.sb t.sb := by
  simp only [execProofDue, Host.Outcome.next.injEq] at he
  subst he
  refine .ite (.ite ?_ (keepsStop_of_view rfl)) (.refl _)
  exact keepsStop_of_view (dropProof_view { s with sb.proofDue := true })

theorem execSpringbokRelease_keepsStop {s t : State} (he : execSpringbokRelease s = .next t) : KeepsStop s.sb t.sb := by
  simp only [execSpringbokRelease, Host.Outcome.next.injEq] at he
  subst he
  split
  · split
    case isTrue h =>
      have hrun : s.sb.state = .run := by simpa using (Bool.and_eq_true_iff.mp h).1
      exact ⟨fun _ => hrun, fun _ hr => absurd hrun hr⟩
    case isFalse => exact .refl _
  · exact .refl _

/-! ### The strobes and the boundary -/

theorem sbStrobe_keepsStop : KeepsSb sbStrobe := by
  intro s
  simp only [sbStrobe]
  refine .ite (.refl _) ?_
  have hlimits : KeepsStop s.sb (match s.sb.limitsNext with
      | some l => { s with sb.limits := l, sb.limitsNext := none, sb.limitsOk := crc32c l.bytes == l.crc }
      | none => s).sb := by
    split
    · exact keepsStop_of_view rfl
    · exact .refl _
  refine hlimits.trans ((contactsTested_keepsStop _).trans ?_)
  generalize contactsTested _ = u
  refine .trans (b' := (u.sb.events.foldl (fun s e => logAt 10 e.1 (laneMask s) e.2.2.1 e.2.2.2.1 e.2.2.2.2 e.2.1 s)
    { u with sb.events := [] }).sb) ?_ ?_
  · refine keepsStop_of_look ((look_foldl sbView _ (fun v e => ?_) _ _).trans rfl)
    exact logAt_only sbView (by simp) _ _ _ _ _ _ _ v
  · refine .trans (.ite (.refl _) (keepsStop_of_look (assertVec_only sbView (by simp) _ _))) (keepsStop_of_view rfl)

theorem dieTick_keepsStop : KeepsSb dieTick := by
  intro s
  have hbefore : KeepsStop s.sb (if islandsUp s then sendDown (stepHarts s) else s).sb :=
    keepsStop_of_look (look_ite (by simp) rfl)
  have hafter (u : State) : look sbView (if junctionUp u then rollWest (sendHeartbeats u) else u) = look sbView u :=
    look_ite (by simp) rfl
  simp only [dieTick]
  refine hbefore.trans ((sbStrobe_keepsStop _).trans ?_)
  refine keepsStop_of_look (look_ite ?_ ?_)
  · simp [hafter]
  · simp [hafter]

theorem strobe_keepsStop (err : Lane3 Nat) : KeepsSb (strobe err) := by
  intro s
  simp only [strobe]
  refine .trans (keepsStop_of_look ?_) (dieTick_keepsStop _)
  split
  · simp
  · split <;> simp

theorem execTickStrobe_keepsStop {err : Lane3 Nat} {s t : State} (he : execTickStrobe err s = .next t) : KeepsStop s.sb t.sb := by
  simp only [execTickStrobe, Host.Outcome.next.injEq] at he
  subst he
  have hadv : look sbView (advance s) = look sbView s := by simp
  refine .ite (.refl _) (.ite ?_ (.trans (.ite ?_ ?_) (strobe_keepsStop err _)))
  · exact (strobe_keepsStop err).after rfl
  · exact keepsStop_of_look hadv
  · exact keepsStop_of_look hadv

/-- The active image's settings leave a limits block for the next strobe, and nothing else, in the signal box (R303). -/
@[simp] theorem fromImage_sbView (s : State) : look sbView (fromImage s) = look sbView s := by
  simp [fromImage]
  rfl

@[simp] theorem finishCommit_sbView (s : State) : look sbView (finishCommit s) = look sbView s := by
  simp only [finishCommit]
  split <;> simp

@[simp] theorem commitAtOnce_sbView (s : State) : look sbView (commitAtOnce s) = look sbView s := by
  simp [commitAtOnce]

@[simp] theorem imageAtBoundary_sbView (s : State) : look sbView (imageAtBoundary s) = look sbView s := by
  simp only [imageAtBoundary]
  repeat' split
  all_goals simp

@[simp] theorem beginFrame_sbView (s : State) : look sbView (beginFrame s) = look sbView s := by
  simp [beginFrame]

theorem execFrameBoundary_keepsStop {s t : State} (he : execFrameBoundary s = .next t) : KeepsStop s.sb t.sb := by
  simp only [execFrameBoundary, Host.Outcome.next.injEq] at he
  subst he
  refine keepsStop_of_look (look_ite rfl (look_ite ?_ (look_ite ?_ rfl)))
  · simp
  · simp

/-! ### Boot, the image and the supplies -/

/-- A Boot from Off powers the signal box up stopped; any other Boot leaves it as it is (Table 15-7). -/
theorem bootState_keepsStop (source : Nat) (home railsOk : Bool) : KeepsSb (bootState source home railsOk) := by
  intro s
  unfold bootState
  dsimp only
  split
  · exact keepsStop_of_stopped (by simp [sbPowerUp]) ⟨rfl, rfl, rfl, rfl⟩
  · exact .refl _

theorem bootFrom_keepsStop (source : Nat) (home railsOk log : Bool) : KeepsSb (bootFrom source home railsOk log) := by
  intro s
  have hclose : look sbView (if source = 0 then s else closeAll s) = look sbView s := look_ite rfl (by simp)
  simp only [bootFrom]
  refine .trans ((bootState_keepsStop source home railsOk).after hclose) ?_
  generalize bootState source home railsOk (if source = 0 then s else closeAll s) = u
  have hlog (v : State) : look sbView (if log then changeState .boot (if source = 0 then 0 else 8) { v with pow.state := s.pow.state } else v) =
      look sbView v := look_ite (by simp) rfl
  refine .ite (.refl _) (keepsStop_of_look (look_ite ?_ ?_))
  · simp [hlog]
  · simp [hlog]

theorem execBootStart_keepsStop {b : BootIn} {s t : State} (he : execBootStart b s = .next t) : KeepsStop s.sb t.sb := by
  simp only [execBootStart, Host.Outcome.next.injEq] at he
  subst he
  exact .ite (bootFrom_keepsStop _ _ _ _ s) (.refl _)

theorem execSysRstRelease_keepsStop {railsOk : Bool} {s t : State} (he : execSysRstRelease railsOk s = .next t) :
    KeepsStop s.sb t.sb := by
  simp only [execSysRstRelease, Host.Outcome.next.injEq] at he
  subst he
  exact .ite (bootFrom_keepsStop _ _ _ _ s) (.refl _)

theorem execWatchdog_keepsStop {railsOk : Bool} {s t : State} (he : execWatchdog railsOk s = .next t) :
    KeepsStop s.sb t.sb := by
  simp only [execWatchdog, Host.Outcome.next.injEq] at he
  subst he
  refine .ite (.ite ((bootFrom_keepsStop _ _ _ _).after rfl) (.ite ?_ (keepsStop_of_view rfl))) (.refl _)
  exact keepsStop_of_look (fallSilent_only sbView (by simp) s)

theorem execFaultRestart_keepsStop {s t : State} (he : execFaultRestart s = .next t) : KeepsStop s.sb t.sb := by
  simp only [execFaultRestart, Host.Outcome.next.injEq] at he
  subst he
  exact .ite ((bootFrom_keepsStop _ _ _ _).after rfl) (.refl _)

@[simp] theorem bootImage_sbView (s : State) : look sbView (bootImage s) = look sbView s := by
  have hselect : look sbView (selectImage s) = look sbView s := by
    simp only [selectImage]
    repeat' split
    all_goals simp
  simp only [bootImage]
  split <;> simp [hselect]

theorem bootSteps_sbView (b : BootOut) (s : State) : look sbView (bootSteps b s) = look sbView s := by
  simp only [bootSteps]
  repeat' split
  all_goals simp

theorem execBootComplete_keepsStop {b : BootOut} {s t : State} (he : execBootComplete b s = .next t) :
    KeepsStop s.sb t.sb := by
  simp only [execBootComplete, Host.Outcome.next.injEq] at he
  subst he
  refine keepsStop_of_look (look_ite (look_ite (by simp) (look_ite ?_ ?_)) rfl)
  · simp [bootSteps_sbView]
  · simp [bootSteps_sbView]

theorem execHoldupStop_keepsStop {atThreshold : Bool} {s t : State} (he : execHoldupStop atThreshold s = .next t) :
    KeepsStop s.sb t.sb := by
  simp only [execHoldupStop, Host.Outcome.next.injEq] at he
  subst he
  exact .ite (keepsStop_of_stopped (fun h => SbState.noConfusion h) ⟨rfl, rfl, rfl, rfl⟩) (.refl _)

theorem execImageCommitComplete_keepsStop {readbackOk : Bool} {s t : State}
    (he : execImageCommitComplete readbackOk s = .next t) : KeepsStop s.sb t.sb := by
  simp only [execImageCommitComplete, Host.Outcome.next.injEq] at he
  subst he
  refine keepsStop_of_look ?_
  repeat' split
  all_goals simp

theorem applyPower_keepsStop (op : Nat) : KeepsSb (applyPower op) := by
  intro s
  unfold applyPower
  refine .ite (.refl _) ?_
  split
  case h_4 => exact (bootFrom_keepsStop _ _ _ _).after rfl
  all_goals exact keepsStop_of_look (by simp)

theorem applyOne_keepsStop (d : Deferred) : KeepsSb (applyOne · d) := by
  intro s
  cases d with
  | power op => exact applyPower_keepsStop op s
  | _ => exact keepsStop_of_look (by simp [applyOne])

theorem execDeferredCommandEffect_keepsStop {s t : State} (he : execDeferredCommandEffect s = .next t) :
    KeepsStop s.sb t.sb := by
  simp only [execDeferredCommandEffect, Host.Outcome.next.injEq] at he
  subst he
  have heffects (u : State) (hu : u.sb = s.sb) (ds : List Deferred) :
      KeepsStop s.sb (publishState (redoServo (ds.foldl applyOne u))).sb :=
    .trans (hu ▸ keepsStop_foldl applyOne_keepsStop ds u) (keepsStop_of_look (by simp))
  refine .ite (heffects _ ?_ _) (.refl _)
  rfl

/-! ### Packets -/

@[simp] theorem chanReadSpec_run_state (k : Nat) (p : Packet) (s : State) : (chanReadSpec.run k p s).state = s := by
  simp only [chanReadSpec]
  repeat' split
  all_goals rfl

/-- No opcode of Table 12-18 changes the signal box. -/
theorem opTable_sbView {op : Nat} {o : OpSpec} (g : opTable op = some o) (k : Nat) (p : Packet) (s : State) :
    look sbView (o.run k p s).state = look sbView s := by
  unfold opTable at g
  split at g
  · unfold opTable1 at g
    split at g <;> simp only [Option.some.injEq, reduceCtorEq] at g <;> subst g <;> simp
  · split at g
    · unfold opTable2 at g
      split at g <;> simp only [Option.some.injEq, reduceCtorEq] at g <;> subst g <;> simp
    · unfold opTable3 at g
      split at g <;> simp only [Option.some.injEq, reduceCtorEq] at g <;> subst g <;> simp

@[simp] theorem processOne_sbView (s : State) (p : Packet) : look sbView (processOne s p) = look sbView s := by
  unfold processOne
  cases g : opTable p.opcode with
  | none => exact processPacket_none_only sbView p s (by simp)
  | some o => exact processPacket_only sbView o p s (by simp) (opTable_sbView g)

theorem processAll_sbView (ps : List Packet) (s : State) : look sbView (ps.foldl processOne s) = look sbView s :=
  look_foldl sbView processOne processOne_sbView ps s

theorem execHostService_keepsStop {rep : Lane3 ItemReport} {s t : State} (he : execHostService rep s = .next t) :
    KeepsStop s.sb t.sb := by
  simp only [execHostService, Host.Outcome.next.injEq] at he
  subst he
  refine keepsStop_of_look (look_ite ?_ rfl)
  rw [chargeLeast_only sbView (by simp), endItems_only sbView (by simp), processAll_sbView]
  rfl

theorem execResponder_keepsStop {s t : State} (he : execResponder s = .next t) : KeepsStop s.sb t.sb := by
  simp only [execResponder, Host.Outcome.next.injEq] at he
  subst he
  exact keepsStop_of_look (look_ite ((processAll_sbView _ _).trans rfl) rfl)

theorem execChanRead_keepsStop {p : Packet} {s t : State} (he : execChanRead p s = .next t) : KeepsStop s.sb t.sb := by
  simp only [execChanRead, Host.Outcome.next.injEq] at he
  subst he
  exact keepsStop_of_look (processPacket_only sbView _ _ _ (by simp) (fun k p s => by rw [chanReadSpec_run_state]))

/-! ### Every command -/

/-- No command but RESET_PULSE enters RUN, closes a contact or releases a line outside RUN. -/
theorem exec_keepsStop {c : Instr} (hc : c ≠ .resetPulse) {s t : State} (he : exec c s = .next t) : KeepsStop s.sb t.sb := by
  by_cases hsb : Claims.Part.signalBox ∈ touches c
  · cases c with
    | tickStrobe => exact execTickStrobe_keepsStop he
    | frameBoundary => exact execFrameBoundary_keepsStop he
    | hostService => exact execHostService_keepsStop he
    | responder => exact execResponder_keepsStop he
    | deferredCommandEffect => exact execDeferredCommandEffect_keepsStop he
    | chanRead => exact execChanRead_keepsStop he
    | sbCommandSet x =>
      cases he
      exact .ite (sbTick_keepsStop s x) (.refl _)
    | sbInternal => exact execSbInternal_keepsStop he
    | safetyInputChange => exact execSafetyInputChange_keepsStop he
    | discrepancy => exact execDiscrepancy_keepsStop he
    | safeContactTimeout => exact execSafeContactTimeout_keepsStop he
    | yawRateStop => exact execYawRateStop_keepsStop he
    | sbSelfTestEnd => exact execSbSelfTestEnd_keepsStop he
    | proofDue => exact execProofDue_keepsStop he
    | resetPulse => exact absurd rfl hc
    | rstStuck | rstStuckClear | springbokTest =>
      cases he
      exact .ite (keepsStop_of_view rfl) (.refl _)
    | springbokRelease => exact execSpringbokRelease_keepsStop he
    | imageCommitComplete => exact execImageCommitComplete_keepsStop he
    | holdupStop => exact execHoldupStop_keepsStop he
    | faultRestart => exact execFaultRestart_keepsStop he
    | sysRstRelease => exact execSysRstRelease_keepsStop he
    | bootStart => exact execBootStart_keepsStop he
    | bootComplete => exact execBootComplete_keepsStop he
    | watchdog => exact execWatchdog_keepsStop he
    | _ => simp [touches] at hsb
  · rw [exec_sb_of_untouched hsb he]
    exact .refl _

/-! ### The reset (R317, R318) -/

theorem sbGoto_run_of_stopped {s : State} (h : s.sb.state ≠ .run) :
    ∃ data, sbGoto .run 0 s = sbRecord 1 data { s with sb.state := .run, sb.cause := 0 } := by
  have hold : ¬ (s.sb.state == .run) = true := by simpa using h
  exact ⟨_, if_neg hold⟩

/-- The reasons in the order in which they are judged (assumption 85). -/
theorem resetReason_eq (s : State) (w : Nat) : resetReason s w =
    if s.sb.rstWhileStuck = true ∨ s.sb.rstStuck = true ∨ 2000 < w then 7
    else if w < 100 then 8
    else if s.sb.state ≠ .resetWait then 6
    else if ¬(s.sb.esd.a = true ∧ s.sb.esd.b = true ∧ s.sb.en.a = true ∧ s.sb.en.b = true) then 1
    else if s.sb.esd.discrepancy = true ∨ s.sb.en.discrepancy = true then 2
    else if s.sb.proofDone = false then 3
    else if s.sb.limitsOk = false then 4
    else if s.sb.signTick ≠ s.tt.ticks ∨ (s.sb.present.list.filter (· == true)).length < 2 then 5 else 0 := by
  simp only [resetReason, Bool.or_eq_true, Bool.not_eq_true', Bool.and_eq_false_iff, decide_eq_true_eq,
    bne_iff_ne, or_assoc, not_and_or, Bool.not_eq_true]

theorem ite_ne_zero_eq_zero {c : Prop} [Decidable c] {n r : Nat} (hn : n ≠ 0) :
    (if c then n else r) = 0 ↔ ¬ c ∧ r = 0 := by
  split <;> simp_all

/-- The pulse is valid exactly under the conditions of R317 and R318. -/
theorem resetReason_eq_zero_iff (s : State) (w : Nat) : resetReason s w = 0 ↔
    (100 ≤ w ∧ w ≤ 2000) ∧ s.sb.rstStuck = false ∧ s.sb.rstWhileStuck = false ∧ s.sb.state = .resetWait ∧
    (s.sb.esd.a = true ∧ s.sb.esd.b = true ∧ s.sb.en.a = true ∧ s.sb.en.b = true) ∧
    s.sb.esd.discrepancy = false ∧ s.sb.en.discrepancy = false ∧ s.sb.proofDone = true ∧ s.sb.limitsOk = true ∧
    s.sb.signTick = s.tt.ticks ∧ 2 ≤ (s.sb.present.list.filter (· == true)).length := by
  rw [resetReason_eq]
  simp only [ite_ne_zero_eq_zero, ne_eq, OfNat.ofNat_ne_zero, not_false_eq_true, one_ne_zero, not_or, not_not,
    not_lt, Bool.not_eq_true, Bool.not_eq_false, and_true]
  tauto

/-- The signal box at a valid pulse, before its change of state. -/
def closeContacts (w : Nat) (s : State) : State :=
  { s with
    sb.pulseEnd := none, sb.rstStuck := s.sb.rstStuck || decide (2000 < w)
    sb.cmdA := true, sb.cmdB := true, sb.safeA := true, sb.safeB := true, sb.openCmdAt := none
    sb.releaseAt := some s.tt.ticks }

/-- What RESET_PULSE can do: nothing without a pulse or power, else a refusal or the reset. -/
theorem execResetPulse_cases {s t : State} (he : execResetPulse s = .next t) :
    t = s ∨ ∃ w, s.sb.pulseEnd = some w ∧
      ((resetReason s w ≠ 0 ∧ look sbView t = look sbView s) ∨ (resetReason s w = 0 ∧ t = sbGoto .run 0 (closeContacts w s))) := by
  simp only [execResetPulse, Host.Outcome.next.injEq] at he
  subst he
  split
  · exact .inl rfl
  case h_2 w hw =>
    split
    · exact .inl rfl
    · split
      case isTrue hr => exact .inr ⟨w, hw, .inl ⟨hr, logJ_only sbView (by simp) _ _ _ _⟩⟩
      case isFalse hr => exact .inr ⟨w, hw, .inr ⟨not_not.mp hr, rfl⟩⟩

theorem execResetPulse_of_pulse {s : State} {w : Nat} (hw : s.sb.pulseEnd = some w) (hp : s.sb.powered = true) :
    execResetPulse s = .next (if resetReason s w ≠ 0 then
        logJ 10 3 (leBytes 1 (resetReason s w)) { s with
          sb.pulseEnd := none, sb.rstStuck := s.sb.rstStuck || decide (2000 < w), sb.refused := sat 16 (s.sb.refused + 1) }
      else sbGoto .run 0 (closeContacts w s)) := by
  simp only [execResetPulse, hw]
  exact next_if_neg (by simp [hp])

theorem exec_safeOutsideRun {c : Instr} {s t : State} (hs : SafeOutsideRun s.sb) (he : exec c s = .next t) : SafeOutsideRun t.sb := by
  by_cases hc : c = .resetPulse
  · subst hc
    obtain rfl | ⟨w, -, ⟨-, hview⟩ | ⟨hr, rfl⟩⟩ := execResetPulse_cases he
    · exact hs
    · exact (keepsStop_of_look hview).safe hs
    · have hwait : s.sb.state = .resetWait := ((resetReason_eq_zero_iff s w).mp hr).2.2.2.1
      have hview := sbGoto_of_stopped .run 0 (s := closeContacts w s) (by simp [closeContacts, hwait])
      exact fun hrun => absurd (congrArg Prod.fst hview) hrun
  · exact (exec_keepsStop hc he).safe hs

end Sys2Proof.Machine

namespace Sys2Proof.Claims

open Sys2Proof.Machine

/-- Settles O30: no command leaves the safe state but by an entry to RUN. -/
theorem contactsOpenOutsideRun : Obligations.ContactsOpenOutsideRun := by
  intro s t hs h
  obtain ⟨-, rfl⟩ | ⟨c, rest, -, he⟩ := step_cases h
  · exact hs
  · exact exec_safeOutsideRun (s := { s with pending := rest }) hs he

/-- Settles O31: of the commands only RESET_PULSE enters RUN, and it does so only with no reason to refuse the pulse. -/
theorem runOnlyByReset : Obligations.RunOnlyByReset := by
  intro c s t he hrun hnot
  by_cases hc : c = .resetPulse
  · subst hc
    obtain rfl | ⟨w, hw, ⟨-, hview⟩ | ⟨hr, -⟩⟩ := execResetPulse_cases he
    · exact absurd hrun hnot
    · exact absurd ((keepsStop_of_look hview).no_entry hrun) hnot
    · obtain ⟨hwidth, hstuck, hwhile, hwait, ⟨hesdA, hesdB, henA, henB⟩, hrest⟩ := (resetReason_eq_zero_iff s w).mp hr
      exact ⟨rfl, hwait, ⟨w, hw, hwidth⟩, hstuck, hwhile, hesdA, hesdB, henA, henB, hrest⟩
  · exact absurd ((exec_keepsStop hc he).no_entry hrun) hnot

/-- Settles O33, by what `sbGoto` does from RUN. -/
theorem leavingRunOpensTheContacts : Obligations.LeavingRunOpensTheContacts := by
  intro x cause s h
  obtain ⟨hview, hstops, hat, hsec, hns⟩ := sbGoto_of_run x cause h
  simp only [stopView, Prod.mk.injEq] at hview
  obtain ⟨hstate, hcmdA, hcmdB, hspringA, hspringB⟩ := hview
  exact ⟨hstate, hcmdA, hcmdB, hspringA, hspringB, hstops, hat, hsec, hns⟩

/-- Settles O32: the model's reasons are those of the statement, in its order (assumption 85). -/
theorem resetPulsesStartOrAreRefused : Obligations.ResetPulsesStartOrAreRefused := by
  intro s w r hw hp hr
  obtain rfl : r = resetReason s w := hr.trans (resetReason_eq s w).symm
  have hexec := execResetPulse_of_pulse hw hp
  refine ⟨fun hne => hexec.trans (congrArg _ (if_pos hne)), fun hzero => ?_⟩
  obtain ⟨⟨-, hlong⟩, hstuck, -, hwait, -⟩ := (resetReason_eq_zero_iff s w).mp hzero
  refine ⟨_, hexec.trans (congrArg _ (if_neg (not_not.mpr hzero))), ?_⟩
  obtain ⟨data, hgo⟩ := sbGoto_run_of_stopped (s := closeContacts w s) (by simp [closeContacts, hwait])
  have hnotStuck : (s.sb.rstStuck || decide (2000 < w)) = s.sb.rstStuck := by simp [hlong]
  rw [hgo]
  refine ⟨?_, rfl, rfl, rfl, rfl, rfl, rfl, rfl, rfl⟩
  rw [← hgo, closeContacts, hnotStuck]

/-- Settles O34: each event under the guard of its meaning. -/
theorem signalBoxJudgesItsInputs : Obligations.SignalBoxJudgesItsInputs := by
  refine ⟨?commandSet, ?disagreement, ?selfTest, ?line, ?esdA, ?esdB, ?enA, ?enB, ?ackRises, ?ackFalls, ?discrepancyEsd,
    ?discrepancyEn, ?contact, ?yawRate, ?selfTestEnd, ?selfTestFail, ?proofDue, ?proofDueStopped, ?stuck, ?stuckClear,
    ?release, ?lineTest⟩
  case commandSet => exact fun x s hp => next_if_pos hp
  case disagreement => exact fun s hd => next_if_pos (decide_eq_true hd)
  case selfTest => exact fun s hf => next_if_pos hf
  case line => exact fun s hm => next_if_pos (by simpa using hm)
  case esdA | esdB | enA | enB => exact fun closed s hp hne => next_if_neg (by simp [hp, hne])
  case ackRises => exact fun s hp hr => next_if_neg (by simp [hp, hr])
  case ackFalls => exact fun s hp hr => next_if_neg (by simp [hp, hr])
  case discrepancyEsd | discrepancyEn =>
    exact fun s hp hd hn => (next_if_neg (by simp [hp])).trans (next_if_pos (by simp [hd, hn]))
  case contact => exact fun b s hp ho => next_if_pos (by simp [hp, ho])
  case yawRate =>
    intro s since hp hs hy hl ht
    exact next_if_pos (by simp [hp, hs, hy, hl, ht])
  case selfTestEnd =>
    intro s hp hi hf
    exact ⟨_, rfl, (next_if_neg (by simp [hp, hi, hf])).trans (next_if_neg (by simp))⟩
  case selfTestFail =>
    intro passed openA openB s hp hi hf hbad
    exact (next_if_neg (by simp [hp, hi, hf])).trans (next_if_pos (by simp [hbad]))
  case proofDue =>
    intro s since hp hh hd hn hs ha ht
    exact (next_if_pos (by simp [hp, hh, hd, hn, ha, ht])).trans (next_if_neg (by simpa using hs))
  case proofDueStopped =>
    intro s since hp hh hd hn hs ha ht
    exact ((next_if_pos (by simp [hp, hh, hd, hn, ha, ht])).trans (next_if_pos (by simp [hs]))).trans rfl
  case stuck => exact fun s hp hh ht => next_if_pos (by simp [hp, hh, ht])
  case stuckClear => exact fun s hp hs hh ht => next_if_pos (by simp [hp, hs, hh, ht])
  case release =>
    intro s at_ ha hr ht
    simp only [exec, execSpringbokRelease, ha]
    exact next_if_pos (by simp [hr, ht])
  case lineTest => exact fun seenA seenB s hp => next_if_pos hp

end Sys2Proof.Claims
end

section
/-! The clock and the timetable (chapters 01 and 02): strobes, the activities of a frame, holds, and waiting work. -/

namespace Sys2Proof.Machine

open Sys2Proof.Claims

/-! ### The clock (R19) -/

theorem sampleCapture_keeps (s : State) :
    (sampleCapture s).time = s.time ∧ (sampleCapture s).tt = s.tt ∧ (sampleCapture s).mono = s.mono := by
  unfold sampleCapture
  dsimp only
  repeat' split
  all_goals exact ⟨rfl, rfl, rfl⟩

/-- What a strobe does before it moves the clock changes neither module time nor the tick. -/
theorem ppsPulses_keeps (s : State) :
    (ppsPulses s).time.running = s.time.running ∧ (ppsPulses s).time.sec = s.time.sec ∧ (ppsPulses s).time.ns = s.time.ns ∧
    (ppsPulses s).tt = s.tt ∧ (ppsPulses s).mono = s.mono :=
  ⟨rfl, rfl, rfl, rfl, rfl⟩

theorem tickOn_keeps (s : State) : (tickOn s).tt = s.tt ∧ (tickOn s).mono = s.mono := by
  unfold tickOn
  repeat' split
  all_goals exact ⟨rfl, rfl⟩

/-- A tick of a running time base is 1 ms, carried into the seconds. -/
theorem tickOn_ns {s : State} (hrun : s.time.running = true) (hns : s.time.ns < 1000000000) :
    (tickOn s).time.sec * 1000000000 + (tickOn s).time.ns = s.time.sec * 1000000000 + s.time.ns + 1000000 ∧
    (tickOn s).time.ns < 1000000000 := by
  have hgoes : ¬ (!s.time.running) = true := by simp [hrun]
  rw [tickOn, if_neg hgoes]
  split
  · exact ⟨by dsimp only; omega, by assumption⟩
  · dsimp only
    omega

/-- The state whose clock `advance` moves. -/
def beforeTick (s : State) : State :=
  let u := ppsPulses (if lanesRun s then sampleCapture s else s)
  { u with mono := u.mono + 1 }

theorem beforeTick_keeps (s : State) :
    (beforeTick s).time.running = s.time.running ∧ (beforeTick s).time.sec = s.time.sec ∧
    (beforeTick s).time.ns = s.time.ns ∧ (beforeTick s).tt = s.tt ∧ (beforeTick s).mono = s.mono + 1 := by
  obtain ⟨htime, htt, hmono⟩ : (if lanesRun s then sampleCapture s else s).time = s.time ∧
      (if lanesRun s then sampleCapture s else s).tt = s.tt ∧
      (if lanesRun s then sampleCapture s else s).mono = s.mono := by
    split
    · exact sampleCapture_keeps s
    · exact ⟨rfl, rfl, rfl⟩
  obtain ⟨hrun, hsec, hns, htt', hmono'⟩ := ppsPulses_keeps (if lanesRun s then sampleCapture s else s)
  exact ⟨hrun.trans (by rw [htime]), hsec.trans (by rw [htime]), hns.trans (by rw [htime]), htt'.trans htt,
    congrArg (· + 1) (hmono'.trans hmono)⟩

theorem advance_eq (s : State) :
    advance s = { tickOn (beforeTick s) with
      tt.tick := if !(beforeTick s).time.running then 0 else ((beforeTick s).tt.tick + 1) % 10
      tt.ticks := if !(beforeTick s).time.running then (tickOn (beforeTick s)).tt.ticks
        else ((tickOn (beforeTick s)).tt.ticks + 1) % 2 ^ 32
      tt.frame := if !!(beforeTick s).time.running && ((beforeTick s).tt.tick + 1) % 10 = 0
        then ((tickOn (beforeTick s)).tt.frame + 1) % 2 ^ 64 else (tickOn (beforeTick s)).tt.frame } := rfl

theorem advance_of_running {s : State} (h : s.time.running = true) :
    (advance s).time = (tickOn (beforeTick s)).time ∧ (advance s).mono = s.mono + 1 ∧
    (advance s).tt.tick = (s.tt.tick + 1) % 10 ∧ (advance s).tt.ticks = (s.tt.ticks + 1) % 2 ^ 32 ∧
    (advance s).tt.frame = if (s.tt.tick + 1) % 10 = 0 then (s.tt.frame + 1) % 2 ^ 64 else s.tt.frame := by
  obtain ⟨hrun, _, _, htt, hmono⟩ := beforeTick_keeps s
  obtain ⟨htt', hmono'⟩ := tickOn_keeps (beforeTick s)
  rw [advance_eq]
  simp [hrun, h, htt', htt, hmono', hmono]

/-! ### The frame set (R29) -/

/-- The agreement counts and asks again; the set agreed on is as it came. -/
theorem agreeOn_fcur (kind : SetKind) (jx : Nat) (err : Lane3 Nat) (s : State) :
    (agreeOn kind jx err s).2.inp.fcur = s.inp.fcur := by
  unfold agreeOn
  split <;> cases kind <;> rfl

/-! ### Holds (R55) -/

theorem holdLane_not_inService (x : LaneSt) : (holdLane x).state ≠ .inService := by
  unfold holdLane
  split
  case h_4 h _ _ => exact h
  all_goals exact nofun

theorem lanes_get_map (v : Lane3 LaneSt) (f : LaneSt → LaneSt) (l : Lane) : (v.map f).get l = f (v.get l) := by
  cases l <;> rfl

/-- What the silence of a module is: its state, its time, its cause, no arbitration request and no lane in service. -/
theorem fallSilent_of_runState {s : State} (h : runState s = true) :
    (fallSilent s).pow.state = .fault ∧ (fallSilent s).pow.silentAt = some s.mono ∧ (fallSilent s).pow.shutdown = 4 ∧
    (fallSilent s).cons.arbOut = false ∧ nServing (fallSilent s) = 0 := by
  have hstate : ¬ (s.pow.state == .fault || s.pow.state == .off || s.pow.state == .backup) = true := by
    unfold runState at h
    split at h <;> simp_all
  have hfall : fallSilent s = { stopOutputs (changeState .fault 4 s) with
      lanes := (changeState .fault 4 s).lanes.map holdLane
      pow.silentAt := some (changeState .fault 4 s).mono
      pow.shutdown := 4
      host.voting := [] } := by rw [fallSilent, if_neg hstate]
  have hmono : (changeState .fault 4 s).mono = s.mono := changeState_only State.mono (fun _ _ _ _ => rfl) .fault 4 s
  refine ⟨?state, ?silent, ?shutdown, ?arb, ?lanes⟩
  case state => rw [hfall]; rfl
  case silent => rw [hfall, ← hmono]
  case shutdown => rw [hfall]
  case arb => rw [hfall]; rfl
  case lanes =>
    have hnone (l : Lane) : inService (fallSilent s) l = false := by
      rw [hfall]
      simp [inService, laneOf, lanes_get_map, holdLane_not_inService]
    simp [nServing, serving, hnone]

theorem runState_logL (source code : Nat) (data : List Byte) (s : State) : runState (logL source code data s) = runState s :=
  rfl

/-! ### Waiting work (R56, R57) -/

/-- The traffic that waits, and what is left of the budgets of the frame. -/
def waitView (s : State) : (List Waiting × List Nat) × (List Waiting × List Nat) × (List Waiting × List Nat) :=
  ((s.tt.ringWait, s.tt.ringLeft), (s.tt.mramWait, s.tt.mramLeft), (s.tt.egressWait, s.tt.egressLeft))

theorem waitView_of_tt {s t : State} (h : t.tt = s.tt) : waitView t = waitView s := by
  unfold waitView
  rw [h]

theorem transmit_waitView (o : OutPkt) (s : State) : waitView (transmit o s) = waitView s := by
  have hvec (u : State) : waitView (assertQueueVec o.queue u) = waitView u :=
    assertQueueVec_only waitView (fun _ _ => rfl) _ _
  unfold transmit
  split
  · rfl
  · dsimp only
    split <;> exact hvec _

theorem releasePacket_waitView (id : Nat) (s : State) : waitView (releasePacket id s) = waitView s := by
  unfold releasePacket
  split
  · rfl
  · exact transmit_waitView _ _

theorem startRing_waitView (w : Waiting) (s : State) : waitView (startRing w s) = waitView s := by
  unfold startRing
  split
  · dsimp only
    split <;> rfl
  · rfl

/-- Traffic that starts joins no queue of waiting traffic and charges no budget again. -/
theorem releaseOne_waitView (verified : Bool) (s : State) (w : Waiting) : waitView (releaseOne verified s w) = waitView s := by
  unfold releaseOne
  split
  · exact storePiece_only waitView (fun _ _ _ => rfl) _ _ _ _ _
  · exact storeFactory_only waitView (fun _ _ _ _ => rfl) _ _
  · exact writeChunk_only waitView (fun _ _ _ => rfl) _ _ _ _ _ _
  · exact releasePacket_waitView _ _
  · exact sendPtp_only waitView (fun _ _ => rfl) _ _ _
  · exact look_ite (π := waitView) rfl rfl
  · exact startRing_waitView _ _
  · rfl

theorem releaseAll_waitView (verified : Bool) (go : List Waiting) (s : State) :
    waitView (go.foldl (releaseOne verified) s) = waitView s :=
  look_foldl waitView (releaseOne verified) (fun u w => releaseOne_waitView verified u w) go s

end Sys2Proof.Machine

namespace Sys2Proof.Claims

open Sys2Proof.Machine

/-- Settles O7: `advance` of a running time base is one tick, whatever was captured and pulsed before it. -/
theorem strobesMoveTime : Obligations.StrobesMoveTime := by
  intro s hrun
  obtain ⟨hrun', hsec, hns, _, _⟩ := beforeTick_keeps s
  obtain ⟨htime, hmono, htick, hticks, hframe⟩ := advance_of_running hrun
  refine ⟨hmono, htick, hticks, hframe, fun hlt => ?_⟩
  have hmoved := tickOn_ns (s := beforeTick s) (hrun'.trans hrun) (hns ▸ hlt)
  rwa [htime, ← hsec, ← hns]

/-- Settles O8: each of the two commands of tick 0 moves the clock exactly when the other has not. -/
theorem strobesRun : Obligations.StrobesRun := by
  refine ⟨?tick, ?tickZero, ?tickSecond, ?frame, ?frameSecond⟩
  case tick =>
    exact fun err s hrun hdue htick => (next_if_neg (by simp [hrun])).trans ((next_if_neg (by simp [hdue])).trans
      (congrArg (fun u => Host.Outcome.next (strobe err u)) (if_neg htick)))
  case tickZero =>
    exact fun err s hrun hdue htick => (next_if_neg (by simp [hrun])).trans ((next_if_neg (by simp [hdue])).trans
      (congrArg (fun u => Host.Outcome.next (strobe err u)) (if_pos htick)))
  case tickSecond =>
    exact fun err s hrun hdue => (next_if_neg (by simp [hrun])).trans (next_if_pos hdue)
  case frame =>
    exact fun s hrun hdue htick => (next_if_neg (by simp [hrun])).trans ((next_if_neg (by simp [hdue])).trans
      (next_if_pos htick))
  case frameSecond =>
    exact fun s hrun hdue => (next_if_neg (by simp [hrun])).trans (next_if_pos hdue)

/-- Settles O9: an activity that may run charges and completes; its work stands under `works`. -/
theorem activitiesDoTheirWork : Obligations.ActivitiesDoTheirWork := by
  refine ⟨?association, ?associationIdle, ?fusion, ?fusionIdle, ?observer, ?observerIdle, ?law, ?lawIdle, ?allocation, ?allocationIdle, ?output, ?outputIdle⟩
  case association =>
    exact fun s h hw => (next_if_pos h).trans
      (congrArg (fun u => Host.Outcome.next (completeIn 2 (assocCharge s) u)) (if_pos hw))
  case associationIdle =>
    exact fun s h hw => (next_if_pos h).trans
      (congrArg (fun u => Host.Outcome.next (completeIn 2 (assocCharge s) u)) (if_neg (by simp [hw])))
  case fusion =>
    exact fun s h hw => (next_if_pos h).trans
      (congrArg (fun u => Host.Outcome.next (completeIn 3 (fusionCharge u) u)) (if_pos hw))
  case fusionIdle =>
    exact fun s h hw => (next_if_pos h).trans
      (congrArg (fun u => Host.Outcome.next (completeIn 3 (fusionCharge u) u)) (if_neg (by simp [hw])))
  case observer =>
    exact fun s h hw => (next_if_pos h).trans
      (congrArg (fun u => Host.Outcome.next (completeAct 4 u)) (if_pos hw))
  case observerIdle =>
    exact fun s h hw => (next_if_pos h).trans
      (congrArg (fun u => Host.Outcome.next (completeAct 4 u)) (if_neg (by simp [hw])))
  case law =>
    exact fun s h hw => (next_if_pos h).trans
      (congrArg (fun u => Host.Outcome.next (completeIn 5 (lawCharge s) u)) (if_pos hw))
  case lawIdle =>
    exact fun s h hw => (next_if_pos h).trans
      (congrArg (fun u => Host.Outcome.next (completeIn 5 (lawCharge s) u)) (if_neg (by simp [hw])))
  case allocation =>
    exact fun s h hw => (next_if_pos h).trans
      (congrArg (fun u => Host.Outcome.next (completeIn 6 (allocCharge s.image.alloc).floor.toNat u)) (if_pos hw))
  case allocationIdle =>
    exact fun s h hw => (next_if_pos h).trans
      (congrArg (fun u => Host.Outcome.next (completeIn 6 (allocCharge s.image.alloc).floor.toNat u)) (if_neg (by simp [hw])))
  case output =>
    exact fun s h hw => (next_if_pos h).trans
      (congrArg (fun u => Host.Outcome.next (completeAct 7 u)) (if_pos hw))
  case outputIdle =>
    exact fun s h hw => (next_if_pos h).trans
      (congrArg (fun u => Host.Outcome.next (completeAct 7 u)) (if_neg (by simp [hw])))

/-- Settles O10: to complete an activity is to name the next one. -/
theorem activitiesRunInOrder : Obligations.ActivitiesRunInOrder := by
  refine ⟨fun _ _ h => ⟨_, next_if_pos h, rfl⟩, fun s h => ⟨_, next_if_pos h, ?alignment⟩,
    fun _ h => ⟨_, next_if_pos h, rfl⟩, fun _ h => ⟨_, next_if_pos h, rfl⟩, fun _ h => ⟨_, next_if_pos h, rfl⟩,
    fun _ h => ⟨_, next_if_pos h, rfl⟩, fun _ h => ⟨_, next_if_pos h, rfl⟩, fun _ h => ⟨_, next_if_pos h, rfl⟩⟩
  case alignment => split <;> rfl

/-- Settles O11: the two activities branch on the agreement of the lanes and on an image at work, and on nothing else. -/
theorem inputsAreGathered : Obligations.InputsAreGathered := by
  refine ⟨?agreed, ?noMajority, ?aligned, ?idle⟩
  case agreed =>
    intro err s hrun hok
    simp only [exec, execInputGather, if_pos hrun, hok, if_true, Bool.not_true, agreeOn_fcur]
  case noMajority =>
    intro err s hrun hok
    simp only [exec, execInputGather, if_pos hrun, hok, Bool.false_eq_true, if_false, Bool.not_false]
  case aligned =>
    intro s hrun hw
    refine ⟨_, _, rfl, rfl, ?_⟩
    simp only [exec, execTimeAlignment, if_pos hrun, if_pos hw]
  case idle =>
    exact fun s hrun hw => (next_if_pos hrun).trans (next_if_neg (by simp [hw]))

/-- Settles O12: an item activity that may run does the items that the lanes agree on, and ends its exchange. -/
theorem itemActivitiesRun : Obligations.ItemActivitiesRun := by
  refine ⟨?checkpoint, ?host, ?logging, ?junctionScrub, ?laneScrub⟩
  case checkpoint => exact fun dig copy v s h => ⟨_, _, rfl, rfl, next_if_pos h⟩
  case host =>
    rintro rep n s h rfl
    exact next_if_pos h
  case logging => exact fun rep s h => next_if_pos h
  case junctionScrub => exact fun rep j s h => next_if_pos h
  case laneScrub => exact fun rep l j s h => next_if_pos h

/-- Settles O13: the guards of the five commands, and what the silence of R55 is. -/
theorem holdsAreAgreed : Obligations.HoldsAreAgreed := by
  refine ⟨?first, ?also, ?late, ?lateAlso, ?closing, ?silence⟩
  case first => exact fun act held s hopen hlanes => next_if_pos (by simpa [hopen] using hlanes)
  case also => exact fun act held s hopen => ⟨_, _, rfl, rfl, next_if_neg (by simp [hopen])⟩
  case late => exact fun act lane s hopen hin hmany => next_if_pos (by simp [hopen, hin, hmany])
  case lateAlso =>
    exact fun act lane s hopen halso hmany =>
      (next_if_neg (by simp [hopen])).trans (next_if_pos (by simp [halso, hmany]))
  case closing =>
    exact fun running s hchain htick hopen hlanes =>
      ⟨_, rfl, next_if_pos (by simpa [hchain, htick, hopen] using hlanes)⟩
  case silence =>
    intro act s hrun hact hten
    have hstate : runState s = true := (Bool.and_eq_true_iff.mp hrun).1
    exact ⟨_, next_if_pos (by simpa [hrun, hact] using hten), rfl, fallSilent_of_runState hstate⟩

/-- Settles O14: the release of waiting traffic leaves the queues and budgets as `releaseClasses` left them. -/
theorem waitingWorkIsReleased : Obligations.WaitingWorkIsReleased := by
  have hkeeps (go : List Waiting) (v : Bool) (u : State) : waitView (go.foldl (releaseOne v) u) = waitView u :=
    releaseAll_waitView v go u
  simp only [waitView, Prod.mk.injEq] at hkeeps
  refine ⟨?ring, ?ringDown, ?mram, ?egress, ?effects⟩
  case ring =>
    rintro v s r hup hring rfl
    refine ⟨_, (next_if_neg (by simp [hup])).trans (next_if_neg (by simp [hring])), rfl, ?_⟩
    exact (hkeeps _ v _).1
  case ringDown =>
    intro v s hring
    by_cases hup : junctionUp s = true
    · exact (next_if_neg (by simp [hup])).trans (next_if_pos (by simp [hring]))
    · exact next_if_pos (by simp [hup])
  case mram =>
    rintro v s r hup rfl
    refine ⟨_, next_if_neg (by simp [hup]), rfl, ?_⟩
    exact (hkeeps _ v _).2.1
  case egress =>
    rintro port v s r hup rfl
    refine ⟨_, next_if_neg (by simp [hup]), rfl, ?_⟩
    exact (hkeeps _ v _).2.2
  case effects => exact fun s hup hbound hdue => next_if_pos (by simp [hup, hbound, hdue])

end Sys2Proof.Claims

end

section
/-! The time base (chapter 03): sources, steps and slews, edges, and PTP ports. -/

namespace Sys2Proof.Machine

open Sys2Proof.Claims

/-- A record of the junction's own changes the recorder, and the host's vectors, and nothing else. -/
theorem logJ_eq (source code : Nat) (data : List Byte) (s : State) :
    logJ source code data s =
      { s with host := (logJ source code data s).host, log := (logJ source code data s).log } := by
  have hrest := logJ_only (fun u : State => { u with host := s.host, log := s.log }) (fun _ _ _ => rfl) source code data s
  exact congrArg (fun u : State =>
    { u with host := (logJ source code data s).host, log := (logJ source code data s).log }) hrest

/-! ### States and sources (R70, R77 to R80) -/

theorem setTimeState_state (v : Nat) (s : State) : (setTimeState v s).time.state = v := by
  unfold setTimeState
  split
  · assumption
  · dsimp only
    rw [logJ_eq]

/-- A change of STATE leaves the source, the step and the slew. -/
theorem setTimeState_keeps (v : Nat) (s : State) :
    (setTimeState v s).time.selected = s.time.selected ∧ (setTimeState v s).time.step = s.time.step ∧
    (setTimeState v s).time.slewing = s.time.slewing := by
  unfold setTimeState
  split
  · exact ⟨rfl, rfl, rfl⟩
  · dsimp only
    rw [logJ_eq]
    exact ⟨rfl, rfl, rfl⟩

/-- What the adoption of a source has done before it judges the source's error. -/
def adopting (id : Nat) (s : State) : State :=
  let off := (s.time.srcs.getD id {}).offset
  let u := logJ 3 2 (leBytes 1 (s.time.selected.getD 255) ++ leBytes 1 id ++ leInt 8 off) s
  { u with time.selected := some id, time.err := off, time.errKnown := true, time.slewAt := u.mono,
           time.lostAt := none, time.slewing := false, time.steer := 0 }

theorem adopting_keeps (id : Nat) (s : State) :
    (adopting id s).time.selected = some id ∧ (adopting id s).time.state = s.time.state ∧
    (adopting id s).time.step = s.time.step ∧ (adopting id s).time.sec = s.time.sec := by
  unfold adopting
  dsimp only
  rw [logJ_eq]
  exact ⟨rfl, rfl, rfl, rfl⟩

theorem judgeState_keeps (fromInvalid : Bool) (s : State) :
    (judgeState fromInvalid s).time.selected = s.time.selected ∧ (judgeState fromInvalid s).time.step = s.time.step ∧
    (judgeState fromInvalid s).time.slewing = s.time.slewing := by
  unfold judgeState
  repeat' split
  all_goals first | exact ⟨rfl, rfl, rfl⟩ | exact setTimeState_keeps _ s

theorem announceStep_step (id : Nat) (off : Int) (s : State) :
    (announceStep id off s).time.step = some (s.time.sec + 2, off) ∧
    (announceStep id off s).time.selected = s.time.selected := by
  unfold announceStep
  dsimp only
  rw [logJ_eq]
  exact ⟨rfl, rfl⟩

theorem adoptSource_of_large {id : Nat} {s : State} (h : 1000000 ≤ (s.time.srcs.getD id {}).offset.natAbs) :
    adoptSource id s = announceStep id (s.time.srcs.getD id {}).offset (adopting id s) :=
  if_pos (Bool.or_eq_true_iff.mpr (.inr (decide_eq_true h)))

theorem adoptSource_of_small {id : Nat} {s : State} (hvalid : s.time.state ≠ 0)
    (h : ¬ 1000000 ≤ (s.time.srcs.getD id {}).offset.natAbs) :
    adoptSource id s = judgeState false { adopting id s with
      time.slewing := decide ((s.time.srcs.getD id {}).offset ≠ 0)
      time.steer := slewRate (s.time.srcs.getD id {}).offset } := by
  have hstate : (adopting id s).time.state ≠ 0 := by rwa [(adopting_keeps id s).2.1]
  exact if_neg fun hor => (Bool.or_eq_true_iff.mp hor).elim (fun h0 => hstate (of_decide_eq_true h0))
    fun hlarge => h (of_decide_eq_true hlarge)

/-! ### The configuration of the pulse input outlives every change of source (R83) -/

@[simp] theorem logJ_ppsInCfg (source code : Nat) (data : List Byte) (s : State) :
    (logJ source code data s).time.ppsInCfg = s.time.ppsInCfg := by
  rw [logJ_eq]

@[simp] theorem assertVec_ppsInCfg (v : Nat) (s : State) : (assertVec v s).time.ppsInCfg = s.time.ppsInCfg := rfl

@[simp] theorem setTimeState_ppsInCfg (v : Nat) (s : State) : (setTimeState v s).time.ppsInCfg = s.time.ppsInCfg := by
  unfold setTimeState
  split <;> simp

@[simp] theorem judgeState_ppsInCfg (fromInvalid : Bool) (s : State) :
    (judgeState fromInvalid s).time.ppsInCfg = s.time.ppsInCfg := by
  unfold judgeState
  repeat' split
  all_goals simp

@[simp] theorem adoptSource_ppsInCfg (id : Nat) (s : State) : (adoptSource id s).time.ppsInCfg = s.time.ppsInCfg := by
  unfold adoptSource announceStep
  dsimp only
  split <;> simp

@[simp] theorem reselect_ppsInCfg (s : State) : (reselect s).time.ppsInCfg = s.time.ppsInCfg := by
  unfold reselect
  repeat' split
  all_goals simp

@[simp] theorem cancelStep_ppsInCfg (s : State) : (cancelStep s).time.ppsInCfg = s.time.ppsInCfg := by
  unfold cancelStep
  split <;> simp

@[simp] theorem deselect_ppsInCfg (id : Nat) (s : State) : (deselect id s).time.ppsInCfg = s.time.ppsInCfg := by
  unfold deselect
  split
  · simp
  · dsimp only
    split <;> simp

@[simp] theorem loseSource_ppsInCfg (id : Nat) (s : State) : (loseSource id s).time.ppsInCfg = s.time.ppsInCfg := by
  unfold loseSource restartSource
  dsimp only
  repeat' split
  all_goals simp

theorem hearSource_ppsInCfg (id : Nat) (s : State) : (hearSource id s).time.ppsInCfg = s.time.ppsInCfg := rfl

/-! ### Pulses (R82, R83) -/

theorem modify_of_getD {α : Type} {l : List α} {i : Nat} {d : α} {f g : α → α} (h : f (l.getD i d) = g (l.getD i d)) :
    l.modify i f = l.modify i g := by
  refine List.ext_getElem? fun k => ?_
  rw [List.getElem?_modify, List.getElem?_modify]
  rcases eq_or_ne i k with rfl | hne
  · cases hk : l[i]? with
    | none => rfl
    | some x =>
      rw [List.getD_eq_getElem?_getD, hk] at h
      simpa using h
  · simp [hne]

end Sys2Proof.Machine

namespace Sys2Proof.Claims

open Sys2Proof.Machine

/-- Settles O15: the guard of each command, and for a step what the state before the judgement holds. -/
theorem timeSourcesQualify : Obligations.TimeSourcesQualify := by
  refine ⟨?qualified, ?lost, ?stepped, ?slewed, ?freerun⟩
  case qualified => exact fun id err s h => next_if_pos h
  case lost => exact fun id s h => next_if_pos h
  case stepped =>
    intro residual s due amt hstep hdue
    have hlate : ¬ s.time.sec < due := Nat.not_lt.mpr hdue
    simp only [exec, execStepApplied, hstep, if_neg hlate]
    refine ⟨_, rfl, ?_⟩
    rw [logJ_eq]
    exact ⟨rfl, rfl, rfl, rfl, rfl, rfl, rfl, rfl, rfl, rfl, rfl⟩
  case slewed => exact fun s hslew herr => next_if_pos (by simp [hslew, herr])
  case freerun =>
    exact fun s hstate hnone hest => ⟨_, next_if_pos (by simp [hstate, hnone, hest]), rfl, setTimeState_state 1 s⟩

/-- Settles O16: the adoption branches at 1 ms, and the judgement of STATE after a slew leaves both results. -/
theorem errorsSlewOrStep : Obligations.ErrorsSlewOrStep := by
  rintro id s hvalid hstep off rfl
  obtain ⟨hsel, _, hst, hsec⟩ := adopting_keeps id s
  by_cases hlarge : 1000000 ≤ (s.time.srcs.getD id {}).offset.natAbs
  case pos =>
    obtain ⟨hstep', hsel'⟩ := announceStep_step id (s.time.srcs.getD id {}).offset (adopting id s)
    rw [adoptSource_of_large hlarge]
    exact ⟨hsel'.trans hsel, fun hsmall => absurd hlarge (Nat.not_le.mpr hsmall), fun _ => hstep'.trans (by rw [hsec])⟩
  case neg =>
    rw [adoptSource_of_small hvalid hlarge]
    obtain ⟨hsel', hst', hslew⟩ := judgeState_keeps false { adopting id s with
      time.slewing := decide ((s.time.srcs.getD id {}).offset ≠ 0)
      time.steer := slewRate (s.time.srcs.getD id {}).offset }
    exact ⟨hsel'.trans hsel, fun _ => ⟨hst'.trans (hst.trans hstep), hslew⟩, fun h => absurd h hlarge⟩

/-- Settles O17: the guards of the edges; the pulse is due at the second that `ppsDue` names. -/
theorem timeEdgesAreTaken : Obligations.TimeEdgesAreTaken := by
  refine ⟨?qualified, ?lost, ?pulse, ?edge, ?snap⟩
  case qualified => exact fun s h => next_if_pos h
  case lost => exact fun s => rfl
  case pulse =>
    intro out b s hdue
    refine congrArg (fun l => Host.Outcome.next { s with time.ppsOut := l }) (modify_of_getD (d := {}) ?_)
    rw [hdue]
  case edge =>
    rintro ns t good s u hrun hen rfl rfl hheard
    have hheard' : u.time.ppsInCfg = s.time.ppsInCfg := by rw [hheard]; rfl
    have hcfg (c : Prop) [Decidable c] : (if c then loseSource 2 u else u).time.ppsInCfg = s.time.ppsInCfg := by
      split
      · exact (loseSource_ppsInCfg 2 u).trans hheard'
      · exact hheard'
    have hguard : ¬ (!s.time.running || !s.time.ppsInCfg.enable) = true := by rw [hrun, hen]; decide
    subst hheard
    refine ⟨_, rfl, fun hport => (next_if_neg hguard).trans (next_if_pos ?_),
      fun hport => (next_if_neg hguard).trans (next_if_neg ?_)⟩
    · rw [hcfg]
      exact hport
    · rw [hcfg]
      exact hport
  case snap => exact fun value s h => next_if_pos h

/-- Settles O18: the commands branch on the port's state and the message; the ports are decided by `portRole`. -/
theorem ptpPortsFollowTheirRoles : Obligations.PtpPortsFollowTheirRoles := by
  refine ⟨?unsupported, ?foreign, ?taken, ?announce, ?decide, ?role, ?passive, ?slaveSilent, ?otherSilent, ?transmit, ?stamp⟩
  case unsupported =>
    exact fun port m s hrun hon hbad => (next_if_neg (by simp [hrun, hon])).trans (next_if_pos (by simpa using hbad))
  case foreign =>
    exact fun port m s hrun hon hsup hknown hother => (next_if_neg (by simp [hrun, hon])).trans
      ((next_if_neg (by simp [hsup, hknown])).trans (next_if_pos (by simpa using hother)))
  case taken =>
    rintro port m s u hrun hon hsup hknown hdom htrans rfl
    refine ⟨fun hoff => ?_, fun o hoff => ?_⟩
    all_goals
      refine (next_if_neg (by simp [hrun, hon])).trans ((next_if_neg (by simp [hsup, hknown])).trans
        ((next_if_neg (by simp [hdom, htrans])).trans ?_))
      simp only [hoff]
  case announce => exact fun port m s => rfl
  case decide =>
    rintro s u rfl
    simp only [decidePorts, Bool.and_eq_true, decide_eq_true_eq, Option.isSome_iff_ne_none]
  case role =>
    intro port s e b hport hclock htype
    refine ⟨fun hworse hmaster => ?_, fun hbetter => ?_⟩
    · simp [portRole, hport, hclock, htype, hmaster, not_lt.mpr hworse]
    · simp [portRole, hport, hclock, htype, hbetter]
  case passive =>
    intro port s e hport htype
    simp [portRole, hport, htype]
  case slaveSilent =>
    intro port s hrole hsilent
    exact (next_if_pos (Bool.and_eq_true_iff.mpr ⟨by rw [hrole]; rfl, hsilent⟩)).trans
      (congrArg (fun u => Host.Outcome.next (decidePorts u)) (if_pos (by rw [hrole]; rfl)))
  case otherSilent =>
    intro port s hrole hsilent
    exact (next_if_pos (Bool.and_eq_true_iff.mpr ⟨by rcases hrole with h | h <;> rw [h] <;> rfl, hsilent⟩)).trans
      (congrArg (fun u => Host.Outcome.next (decidePorts u)) (if_neg (by rcases hrole with h | h <;> rw [h] <;> decide)))
  case transmit =>
    rintro port kind s r hmay rfl
    exact next_if_pos hmay
  case stamp => exact fun port e s h => next_if_pos (by simpa using h)

end Sys2Proof.Claims

end

section
/-! Records, references, fusion and observer (chapters 01, 05 and 06). -/

namespace Sys2Proof.Machine

open Sys2Proof.Claims

/-! ### Where a record goes (R25 to R27) -/

theorem addRecord_frameSet {r : InRecord} {s : State} (htick : isTickData r.data = false)
    (hin : heldFrom r < windowEnd false s) (hopen : s.inp.fFull = false) (hroom : setSize s.inp.fset + r.length + 20 ≤ setCap false) :
    addRecord r s = { s with inp.fset := insertRec r s.inp.fset } := by
  simp [addRecord, htick, hin, hopen, not_lt.mpr hroom]

theorem addRecord_tickSet {r : InRecord} {s : State} (htick : isTickData r.data = true)
    (hin : heldFrom r < windowEnd true s) (hopen : s.inp.tFull = false) (hroom : setSize s.inp.tset + r.length + 20 ≤ setCap true) :
    addRecord r s = { s with inp.tset := insertRec r s.inp.tset } := by
  simp [addRecord, htick, hin, hopen, not_lt.mpr hroom]

theorem addRecord_frameDropped {r : InRecord} {s : State} (htick : isTickData r.data = false)
    (hin : heldFrom r < windowEnd false s) (hfull : s.inp.fFull = true ∨ setCap false < setSize s.inp.fset + r.length + 20) :
    addRecord r s = dropRec false r s := by
  simp [addRecord, htick, hin, hfull]

theorem addRecord_tickDropped {r : InRecord} {s : State} (htick : isTickData r.data = true)
    (hin : heldFrom r < windowEnd true s) (hfull : s.inp.tFull = true ∨ setCap true < setSize s.inp.tset + r.length + 20) :
    addRecord r s = dropRec true r s := by
  simp [addRecord, htick, hin, hfull]

theorem addRecord_dropped {r : InRecord} {s : State} (hin : heldFrom r < windowEnd (isTickData r.data) s)
    (hfull : if isTickData r.data then s.inp.tFull = true ∨ setCap true < setSize s.inp.tset + r.length + 20
      else s.inp.fFull = true ∨ setCap false < setSize s.inp.fset + r.length + 20) :
    addRecord r s = dropRec (isTickData r.data) r s := by
  cases htick : isTickData r.data with
  | false => exact addRecord_frameDropped htick (by rwa [htick] at hin) (by simpa [htick] using hfull)
  | true => exact addRecord_tickDropped htick (by rwa [htick] at hin) (by simpa [htick] using hfull)

theorem addRecord_nextFrame {r : InRecord} {s : State} (htick : isTickData r.data = false)
    (hlate : windowEnd false s ≤ heldFrom r) : addRecord r s = { s with inp.fnext := insertRec r s.inp.fnext } := by
  simp [addRecord, htick, not_lt.mpr hlate]

theorem addRecord_nextTick {r : InRecord} {s : State} (htick : isTickData r.data = true)
    (hlate : windowEnd true s ≤ heldFrom r) : addRecord r s = { s with inp.tnext := insertRec r s.inp.tnext } := by
  simp [addRecord, htick, not_lt.mpr hlate]

theorem execRecordArrival_taken {r : InRecord} {s : State} (hup : junctionUp s = true) (hrun : s.time.running = true)
    (hwhole : arrivesWhole r.data = true) (hlink : linkWorks s r.link = true) :
    exec (.recordArrival r) s = .next (takeRecord (stamped s r) s) :=
  next_if_neg (by simp [hup, hrun, hwhole, hlink])

/-- Only a sentence can be discarded by its port, or label a pulse. -/
theorem takeRecord_of_not_sentence {r : InRecord} (h : ∀ bs, r.data ≠ .sentence bs) (s : State) :
    takeRecord r s = addRecord r s := by
  have hskip : afterSkip s r = some r := by
    unfold afterSkip
    split
    case h_1 bs hbs => exact absurd hbs (h bs)
    case h_2 => rfl
  simp only [takeRecord, hskip]

/-- The state once the sentence has ended the discarding of its port (R126). -/
def skipEnded (link : Nat) (s : State) : State := { s with inp.portSkip := s.inp.portSkip.filter (fun l => l != link) }

theorem afterSkip_sentence {r : InRecord} {bs : List Byte} {s : State} (hdata : r.data = .sentence bs)
    (hskip : s.inp.portSkip.contains r.link = false) : afterSkip s r = some r := by
  simp only [afterSkip, hdata, hskip, Bool.false_eq_true, if_false]

theorem takeRecord_sentence {r : InRecord} {bs : List Byte} {s : State} (hdata : r.data = .sentence bs)
    (hskip : s.inp.portSkip.contains r.link = false) (hutc : zdaUtc (portOf s r.link) bs = none) :
    takeRecord r s = addRecord r (skipEnded r.link s) := by
  have hutc' : zdaUtc (portOf (skipEnded r.link s) r.link) bs = none := hutc
  simp only [takeRecord, afterSkip_sentence hdata hskip, hdata]
  exact congrArg (addRecord r) (by rw [← skipEnded, hutc'])

theorem takeRecord_zda {r : InRecord} {bs : List Byte} {s : State} {utc : Int} (hdata : r.data = .sentence bs)
    (hskip : s.inp.portSkip.contains r.link = false) (hutc : zdaUtc (portOf s r.link) bs = some utc) :
    takeRecord r s = addRecord r (labelPps r.link utc r.doneNs (skipEnded r.link s)) := by
  have hutc' : zdaUtc (portOf (skipEnded r.link s) r.link) bs = some utc := hutc
  simp only [takeRecord, afterSkip_sentence hdata hskip, hdata]
  exact congrArg (addRecord r) (by rw [← skipEnded, hutc'])

theorem takeRecord_skipped {r : InRecord} {bs : List Byte} {s : State} (hdata : r.data = .sentence bs)
    (hskip : s.inp.portSkip.contains r.link = true) (hno : bs.all (fun b => !isStart b) = true) : takeRecord r s = s := by
  have hrest : bs.dropWhile (fun b => !isStart b) = [] :=
    List.dropWhile_eq_nil_iff.mpr (List.all_eq_true.mp hno)
  have hnone : afterSkip s r = none := by
    simp only [afterSkip, hdata, hskip, if_true, hrest, List.isEmpty_nil]
  simp only [takeRecord, hnone]

/-! ### Discards (R132) -/

theorem discardUnit_inp (sensor : Bool) (i : Nat) (s : State) : (discardUnit sensor i s).inp = s.inp :=
  discardUnit_only State.inp (fun _ _ => rfl) sensor i s

/-- What a discard counts at the bindings of its link does not show in the input window. -/
theorem discardBound_inp (link cause : Nat) (takes : Binding → Bool) (s : State) :
    (discardBound link cause takes s).inp = (discard link cause s).inp :=
  look_foldl State.inp _ (fun _ _ => look_ite (π := State.inp) (discardUnit_inp _ _ _) rfl) allUnits (discard link cause s)

theorem discard_of_no_link {link : Nat} (h : 45 < link) (cause : Nat) (s : State) : discard link cause s = s := if_pos h

/-- A reset module in which the first frame of a fast packet came 750 ms ago over link 46, which is no link: links are
numbered to 45 (R132). -/
def strayFastPacket : State := { State.reset with mono := 750, inp.fast := [{ link := 46 }] }

/-! ### The alarm level and the start of the observer (R187, R188) -/

theorem endInjection_obs (reason : Nat) (s : State) : (endInjection reason s).obs = s.obs :=
  endInjection_only State.obs (fun _ _ _ _ => rfl) reason s

/-- The alarm level is all that its update changes in the observer. -/
theorem updateLevel_obs (s : State) : (updateLevel s).obs = { s.obs with level := (updateLevel s).obs.level } := by
  unfold updateLevel
  dsimp only
  repeat' split
  · rfl
  · rw [endInjection_obs]
    rfl
  · rfl

theorem updateLevel_ref (s : State) : (updateLevel s).ref = s.ref :=
  updateLevel_only State.ref (fun _ _ _ _ _ => rfl) s

end Sys2Proof.Machine

namespace Sys2Proof.Claims

open Sys2Proof.Machine

/-- Settles O19: a record that is taken goes where `addRecord` puts it; the port's skip and the label of a pulse leave the
window and the sets. -/
theorem recordsJoinTheirSet : Obligations.RecordsJoinTheirSet := by
  refine ⟨?taken, ?record, ?sentence, ?skipped⟩
  case taken => exact fun r s hup hrun hwhole hlink => execRecordArrival_taken hup hrun hwhole hlink
  case record =>
    rintro r q s last hup hrun hwhole hlink hdata rfl rfl
    have htake : exec (.recordArrival r) s = .next (addRecord (stamped s r) s) :=
      (execRecordArrival_taken hup hrun hwhole hlink).trans
        (congrArg Host.Outcome.next (takeRecord_of_not_sentence (r := stamped s r) hdata s))
    exact ⟨fun htick hin hopen hroom => htake.trans (congrArg _ (addRecord_frameSet htick hin hopen hroom)),
      fun htick hin hopen hroom => htake.trans (congrArg _ (addRecord_tickSet htick hin hopen hroom)),
      fun hin hfull => htake.trans (congrArg _ (addRecord_dropped hin hfull)),
      fun htick hlate => htake.trans (congrArg _ (addRecord_nextFrame htick hlate)),
      fun htick hlate => htake.trans (congrArg _ (addRecord_nextTick htick hlate))⟩
  case sentence =>
    rintro r q bs s u last hup hrun hlink hdata hskip rfl rfl rfl
    have htake : exec (.recordArrival r) s = .next (takeRecord (stamped s r) s) :=
      execRecordArrival_taken hup hrun (by rw [hdata]; rfl) hlink
    have hplain (h : zdaUtc (portOf s r.link) bs = none) :
        exec (.recordArrival r) s = .next (addRecord (stamped s r) (skipEnded r.link s)) :=
      htake.trans (congrArg _ (takeRecord_sentence (r := stamped s r) hdata hskip h))
    have htick : isTickData (stamped s r).data = false := (congrArg isTickData hdata).trans rfl
    exact ⟨fun utc h => htake.trans (congrArg _ (takeRecord_zda (r := stamped s r) hdata hskip h)),
      fun h hin hopen hroom => (hplain h).trans (congrArg _ (addRecord_frameSet htick hin hopen hroom)),
      fun h hin hfull => (hplain h).trans (congrArg _ (addRecord_frameDropped htick hin hfull)),
      fun h hlate => (hplain h).trans (congrArg _ (addRecord_nextFrame htick hlate))⟩
  case skipped =>
    intro r bs s hdata hskip hno
    by_cases hguard : (!junctionUp s || !s.time.running || !arrivesWhole r.data || !linkWorks s r.link) = true
    · exact next_if_pos hguard
    · exact (next_if_neg hguard).trans (congrArg _ (takeRecord_skipped (r := stamped s r) hdata hskip hno))

/-- Refutes O20: a fast packet of a link beyond 45 is dropped when its time has come, but it is counted nowhere. -/
theorem not_badInputIsDiscarded : ¬ Obligations.BadInputIsDiscarded := by
  unfold Obligations.BadInputIsDiscarded
  rintro ⟨_, _, _, htimeout, _⟩
  obtain ⟨t, _, ht, _, hcounted⟩ := htimeout 46 0 0 strayFastPacket (by decide)
  have hone : t.inp.discards = [(46, 3, 1)] := hcounted rfl
  rw [ht, discardBound_inp, discard_of_no_link (by decide)] at hone
  exact absurd hone nofun

/-- Settles O21: the guard of each command. -/
theorem sensorsAndReferencesAreJudged : Obligations.SensorsAndReferencesAreJudged := by
  refine ⟨?deviating, ?readmit, ?never, ?late, ?proven⟩
  case deviating =>
    rintro q cand s c rfl hdev hout
    exact ⟨_, next_if_pos (Bool.and_eq_true_iff.mpr ⟨congrArg not hdev, hout⟩), rfl, rfl⟩
  case readmit =>
    rintro q cand s c rfl hdev hin
    exact next_if_pos (Bool.and_eq_true_iff.mpr ⟨hdev, hin⟩)
  case never =>
    intro sensor i s hactive hnone
    refine next_if_pos ?_
    simp only [hactive, hnone]
    rfl
  case late =>
    intro sensor i at_ s hactive hlast hlate
    refine next_if_pos ?_
    simp only [hactive, hlast, decide_eq_true hlate]
    rfl
  case proven =>
    intro r s hrun hfusion hproven hprob
    refine next_if_pos ?_
    simp only [hrun, hfusion, hproven, hprob]
    rfl

/-- Settles O22: the guard of each command, and the parts that a conflict and its end write. -/
theorem conflictsAreRaisedAndCleared : Obligations.ConflictsAreRaisedAndCleared := by
  refine ⟨?raised, ?cleared, ?timeout, ?recentre, ?letGo⟩
  case raised =>
    exact fun s hrun hno hthird => ⟨_, next_if_pos (by simp [hrun, hno, hthird]), rfl, rfl, rfl, rfl, rfl⟩
  case cleared =>
    exact fun s hrun hconf hagree => ⟨_, next_if_pos (by simp [hrun, hconf, hagree]), rfl, rfl, rfl, rfl⟩
  case timeout =>
    exact fun s hrun hconf hdeg hdue => next_if_pos (by simp [hrun, hconf, hdeg, hdue])
  case recentre =>
    intro s n e a b c hrun hlost hmean
    refine (next_if_pos (by simp [hrun, hlost])).trans ?_
    simp only [admittedTerms, hmean]
  case letGo => exact fun s hheld hdue => next_if_pos (by simp [hheld, hdue])

/-- Settles O23: the start writes the observer, and the alarm level is judged after it. -/
theorem observerStartsFromThePeak : Obligations.ObserverStartsFromThePeak := by
  intro s sup p m hrun hinit hpeak hfit
  refine ⟨_, (next_if_pos (by simp [hrun, hinit])).trans (by simp only [hpeak, hfit]; rfl), ?_⟩
  rw [updateLevel_obs, updateLevel_ref]
  exact ⟨rfl, rfl, rfl, rfl, rfl, rfl, rfl, rfl, rfl, rfl, rfl, rfl, rfl, rfl, rfl, rfl, rfl⟩

end Sys2Proof.Claims

end

section
/-! Control, loops and islands (chapters 07 to 09). -/

namespace Sys2Proof.Machine

open Sys2Proof.Claims

/-! ### Islands (R265, R266, R274, R280, R440) -/

theorem chanOf_onIsl_of_ne_default {ch : Nat} {f : Isl → Isl} {s : State} (h : chanOf s ch ≠ {}) :
    chanOf (onIsl ch f s) ch = f (chanOf s ch) := by
  unfold chanOf at h ⊢
  rw [List.getD_eq_getElem?_getD] at h ⊢
  rw [List.getD_eq_getElem?_getD]
  cases hch : s.isl[ch]? with
  | none => exact absurd (by rw [hch]; rfl) h
  | some i => simp [onIsl, hch]

/-- A field that a change of one island leaves is left at every island. -/
theorem chanOf_onIsl_keeps {α : Type} (field : Isl → α) {f : Isl → Isl} (h : ∀ i, field (f i) = field i) (k ch : Nat) (s : State) :
    field (chanOf (onIsl k f s) ch) = field (chanOf s ch) := by
  unfold chanOf onIsl
  simp only [List.getD_eq_getElem?_getD, List.getElem?_modify]
  cases s.isl[ch]? with
  | none => rfl
  | some i =>
    by_cases hk : k = ch
    · simp [hk, h]
    · simp [hk]

theorem chanOf_mapIdx {f : Nat → Isl → Isl} {ch : Nat} {s : State} (h : ch < s.isl.length) :
    chanOf { s with isl := s.isl.mapIdx f } ch = f ch (chanOf s ch) := by
  simp [chanOf, h]

/-- What an upstream slot leaves at the lanes, which the judgement of the channels does not touch (R271). -/
def slotSeen (i : Isl) : UpSlot × Nat × Nat × Nat := (i.up, i.upQual, i.upMiss, i.cls)

theorem judgeChan_slotSeen (k ch : Nat) (s : State) : slotSeen (chanOf (judgeChan k s) ch) = slotSeen (chanOf s ch) := by
  have hfault (b : Bool) (u : State) : slotSeen (chanOf (onIsl k (fun i => { i with faulted := b }) u) ch) =
      slotSeen (chanOf u ch) := chanOf_onIsl_keeps slotSeen (by intro; rfl) k ch u
  have hhold (u : State) : slotSeen (chanOf (onIsl k (fun i => { i with holdPending := false }) u) ch) =
      slotSeen (chanOf u ch) := chanOf_onIsl_keeps slotSeen (by intro; rfl) k ch u
  have hvec (v w : Nat) (u : State) : slotSeen (chanOf (assertVecFrame v w u) ch) = slotSeen (chanOf u ch) :=
    congrArg (fun l : List Isl => slotSeen (l.getD ch {})) (assertVecFrame_only State.isl (fun _ _ => rfl) v w u)
  have hfirst : slotSeen (chanOf (if chanFaulted s (chanOf s k) = (chanOf s k).faulted then s
      else assertVecFrame 37 (100 + k) (logL 9 1 (leBytes 1 k ++ leBytes 2 (chanFlags s (chanOf s k)) ++
        leBytes 1 (if chanFaulted s (chanOf s k) then 1 else 0))
        (onIsl k (fun i => { i with faulted := chanFaulted s (chanOf s k) }) s))) ch) = slotSeen (chanOf s ch) := by
    split
    · rfl
    · exact (hvec _ _ _).trans (hfault _ s)
  unfold judgeChan
  dsimp only
  split
  · exact (hhold _).trans hfirst
  · exact hfirst

/-- At an island of the module two changes that agree on it are one. -/
theorem onIsl_congr {ch : Nat} {f g : Isl → Isl} {s : State} (h : f (chanOf s ch) = g (chanOf s ch)) :
    onIsl ch f s = onIsl ch g s :=
  congrArg (fun l => { s with isl := l }) (modify_of_getD h)

theorem goThrough_of_no_reset (s : State) {i : Isl} (h : i.resetDue = false) :
    goThrough s i = { i with
      state := .through, driven := 0xFFFF, holdAt := none, capMoving := none, loopPowered := false,
      darkAt := if i.loopPowered && !i.powered then some s.mono else i.darkAt } :=
  if_neg (by simp [h])

theorem goThrough_of_reset (s : State) {i : Isl} (h : i.resetDue = true) :
    (goThrough s i).resetDue = false ∧ (goThrough s i).cfg = i.cfgNext.getD {} ∧ (goThrough s i).powered = islandsUp s ∧
    (goThrough s i).driven = 0xFFFF ∧
    (goThrough s i).state = if s.pow.factoryBad && islandsUp s then .fault else modeState (i.cfgNext.getD {}) := by
  have hgo : goThrough s i = { freshIsl (i.cfgNext.getD {}) { i with
      state := .through, driven := 0xFFFF, holdAt := none, capMoving := none, loopPowered := false,
      darkAt := if i.loopPowered && !i.powered then some s.mono else i.darkAt } with
      powered := islandsUp s
      darkAt := if i.loopPowered && !i.powered then some s.mono else i.darkAt
      state := if s.pow.factoryBad && islandsUp s then .fault else modeState (i.cfgNext.getD {}) } := if_pos h
  rw [hgo]
  exact ⟨rfl, rfl, rfl, rfl, rfl⟩

end Sys2Proof.Machine

namespace Sys2Proof.Claims

open Sys2Proof.Machine

/-- Settles O24: the guard of each timer. -/
theorem controlTimersAct : Obligations.ControlTimersAct := by
  refine ⟨?terms, ?period, ?failing, ?unmet, ?met, ?transit⟩
  case terms => exact fun s hrun hoff hlevel hheld => next_if_pos (by simp [hrun, hoff, hlevel, hheld])
  case period =>
    intro axis s hrun haxis hpulse hcomp hlost hlate
    refine next_if_pos ?_
    simp only [hrun, haxis, hpulse, hcomp, hlost, decide_true, ne_eq, not_false_eq_true, Bool.not_false, Bool.true_and,
      Bool.or_eq_true, decide_eq_true_eq]
    exact hlate
  case failing => exact fun s hrun hmany hfail => next_if_pos (by simp [hrun, hmany, hfail])
  case unmet =>
    intro s hrun hmet hover
    exact (next_if_neg (by simp [hrun])).trans (next_if_pos (by rw [hmet, hover]; rfl))
  case met =>
    intro s hrun hunmet hunder
    exact (next_if_neg (by simp [hrun])).trans ((next_if_neg (by simp)).trans (next_if_pos (by rw [hunmet, hunder]; rfl)))
  case transit =>
    intro k sector s hrun hsector hactive hpart hescape hheld hnone
    refine next_if_pos ?_
    simp only [hrun, hsector, hactive, hpart, hescape, hheld, hnone, decide_true, ne_eq, not_false_eq_true, Bool.not_false,
      Bool.true_and, beq_self_eq_true]

/-- Settles O25: the guard of each command; the step of the tick is done again where it is kept. -/
theorem loopsSwapAndInject : Obligations.LoopsSwapAndInject := by
  refine ⟨?swap, ?swapAgain, ?start, ?ended, ?captured⟩
  case swap =>
    intro s w hswap hrun hdone htick hundo
    refine ⟨_, rfl, ?_⟩
    simp only [exec, execLoopBankSwapApply, hswap, hundo]
    exact next_if_neg (by simp [hrun, hdone, htick])
  case swapAgain =>
    intro s w c hswap hrun hdone htick hundo
    refine ⟨_, rfl, ?_⟩
    simp only [exec, execLoopBankSwapApply, hswap, hundo]
    exact next_if_neg (by simp [hrun, hdone, htick])
  case start =>
    rintro s j b hjob hrun hlive hidle htick hbefore rfl
    refine ⟨_, rfl, fun hcap => ?_, fun hcap harmed => ?_⟩
    · simp only [exec, execInjectionStart, hjob]
      exact (next_if_neg (by simpa [hrun, hlive, hidle, htick] using hbefore)).trans
        (congrArg (fun u => Host.Outcome.next (redoServo u)) (if_neg (by simpa [or_iff_not_imp_left] using hcap)))
    · simp only [exec, execInjectionStart, hjob]
      exact (next_if_neg (by simpa [hrun, hlive, hidle, htick] using hbefore)).trans
        (congrArg (fun u => Host.Outcome.next (redoServo u)) (if_pos (by simp [hcap, harmed])))
  case ended =>
    rintro s j c hjob hlive hrun hends rfl
    simp only [exec, execInjectionEnd, hjob]
    refine (next_if_pos (by simp [hlive, hrun, hends])).trans ?_
    simp only [endInjection, hjob, hlive, Bool.true_and]
  case captured => exact fun s hstate hfull => next_if_pos (by simp [hstate, hfull])

/-- Settles O26: the guard of each command; HOLD ends by `goThrough` at the island. -/
theorem islandsFailSafe : Obligations.IslandsFailSafe := by
  refine ⟨?link, ?split, ?readback, ?alarm, ?undeliverable, ?power, ?slots, ?hold, ?thermal⟩
  case link => exact fun ch s hrun hmiss hno => next_if_pos (by simp [hrun, hmiss, hno])
  case split => exact fun ch s hup hsplit hlong hreg => next_if_pos (by simp [hup, hsplit, hlong, hreg])
  case readback => exact fun ch s hlong hno => next_if_pos (by simp [hlong, hno])
  case alarm =>
    exact fun ch s hcomp hlong hno hstate => next_if_pos (by
      rcases hstate with h | h <;> simp [hcomp, hlong, hno, h, regulating])
  case undeliverable => exact fun ch s halarm hlong hno => next_if_pos (by simp [halarm, hlong, hno])
  case power => exact fun ch s h => next_if_pos h
  case slots => exact fun ch s hlost hstate => next_if_pos (by simpa using ⟨hlost, by simpa [or_assoc] using hstate⟩)
  case hold =>
    intro ch s hhold hdue
    have hgo : exec (.holdTimeout ch) s = .next (onIsl ch (goThrough s) s) :=
      next_if_pos (by simpa [hhold] using hdue)
    refine ⟨fun hreset => hgo.trans (congrArg _ (onIsl_congr (goThrough_of_no_reset s hreset))),
      fun hreset => ⟨_, hgo, ?_⟩⟩
    have hch : chanOf s ch ≠ {} := fun h => absurd (h ▸ hreset) (by decide)
    rw [chanOf_onIsl_of_ne_default hch]
    exact goThrough_of_reset s hreset
  case thermal => exact fun ch s h => next_if_pos h

/-- Settles O27: both functions split on the state of the island. -/
theorem alarmAndPowerFailOfAnIsland : Obligations.AlarmAndPowerFailOfAnIsland := by
  refine ⟨?alarm, ?marked, ?powerHold, ?powerAgain, ?powerSafe, ?powerThrough⟩
  case alarm =>
    intro s i hstate
    rcases hstate with h | h | h <;> simp only [alarmCause, h, enterAlarm, drive, decide_eq_true_eq]
  case marked =>
    intro s i hstate
    rcases hstate with h | h <;> simp only [alarmCause, h]
  case powerHold =>
    intro s i hstate
    rcases hstate with h | h | h | ⟨h, hline⟩
    · simp only [islPowerFail, h, enterHold]
    · simp only [islPowerFail, h, enterHold]
    · simp only [islPowerFail, h, enterHold]
    · simp only [islPowerFail, h, enterHold, hline, Bool.false_eq_true, if_false]
  case powerAgain =>
    intro s i h
    simp only [islPowerFail, h]
  case powerSafe =>
    intro s i h hline
    simp only [islPowerFail, h, hline, if_true]
  case powerThrough =>
    intro s i hstate
    rcases hstate with h | h <;> simp only [islPowerFail, h]

/-- Settles O28: the guard of each command; an output and a slot are followed at their own island. -/
theorem islandSamplesAreJudged : Obligations.IslandSamplesAreJudged := by
  refine ⟨?sample, ?compSet, ?compClear, ?energy, ?capture, ?series, ?output, ?slot, ?ovSet, ?ovClear, ?pulse⟩
  case sample => exact fun ch x s hon halive => next_if_neg (by simp [hon, halive])
  case compSet => exact fun ch s hreg hlow hno => next_if_pos (by simp [hreg, hlow, hno])
  case compClear => exact fun ch s hhigh hcomp => next_if_pos (by simp [hhigh, hcomp])
  case energy => exact fun ch s => rfl
  case capture => exact fun ch s hcap hstill hheld => next_if_pos (by simp [hcap, hstill, hheld])
  case series => exact fun ch s hseries hover => next_if_pos (by simp [hseries, hover])
  case output =>
    rintro ch raw s m o hlow hhigh halive hmore rfl rfl
    refine ⟨_, next_if_pos ⟨⟨hlow, hhigh⟩, hmore, halive⟩, ?_⟩
    have hch : chanOf s ch ≠ {} := fun h => absurd (h ▸ hlow) (by decide)
    rw [chanOf_onIsl_of_ne_default hch]
    refine ⟨rfl, rfl, rfl, rfl, rfl, rfl, if_pos rfl, fun k hk => ?_⟩
    simp [chanOf, onIsl, Ne.symm hk]
  case slot =>
    intro ch q set s u hch hgot
    have hkeep (v : State) : slotSeen (chanOf ((List.range 128).foldl (fun s ch => judgeChan ch s) v) ch) =
        slotSeen (chanOf v ch) :=
      look_foldl (fun v => slotSeen (chanOf v ch)) (fun v k => judgeChan k v) (fun v k => judgeChan_slotSeen k ch v) _ v
    simp only [slotSeen, Prod.mk.injEq] at hkeep
    unfold readSlots
    dsimp only
    rw [(hkeep _).1, (hkeep _).2.1, (hkeep _).2.2.1, (hkeep _).2.2.2]
    rw [chanOf_mapIdx hch]
    split
    case h_1 hfound =>
      obtain ⟨_, rfl, rfl⟩ : _ ∧ _ = u ∧ _ = q := by simpa using hfound.symm.trans hgot
      exact ⟨rfl, rfl, rfl, rfl⟩
    case h_2 hnone => exact absurd (hnone.symm.trans hgot) nofun
  case ovSet =>
    exact fun ch s hlow hhigh hno hlong => next_if_pos (by simpa [hlow, hhigh, hno] using hlong)
  case ovClear => exact fun ch s hov hok => next_if_pos (by simp [hov, hok])
  case pulse => exact fun ch s hmode hno hlong => next_if_pos (by simp [hmode, hno, hlong])

/-- Settles O29: the guard of each command; a burst frame is kept at its own island, and a loop check goes by its phase. -/
theorem islandLinksAndHart : Obligations.IslandLinksAndHart := by
  refine ⟨?slots, ?marker, ?frame, ?ended, ?poll, ?retry, ?config, ?aborted, ?phase⟩
  case slots => exact fun bad s hup => ⟨_, rfl, next_if_neg (by simp [hup])⟩
  case marker => exact fun missed bad s hup => next_if_neg (by simpa [or_iff_not_imp_left] using hup)
  case frame =>
    intro ch f s hdrives hok halive
    have hwork : ¬ (!(drives s && hartOk (chanOf s ch).cfg && islAlive s (chanOf s ch))) = true := by
      rw [hdrives, hok, halive]
      decide
    refine ⟨fun hone => (next_if_neg hwork).trans (next_if_neg ?_), fun hburst hframe => ⟨fun k hk => ?_, fun hk => ?_⟩⟩
    · rcases hone with h | h <;> simp [h]
    all_goals
      have hch : chanOf s ch ≠ {} := fun h => absurd (h ▸ hburst) (by decide)
      refine ⟨_, (next_if_neg hwork).trans (next_if_pos (by rw [hburst, hframe]; rfl)), ?_⟩
      rw [chanOf_onIsl_of_ne_default hch]
      simp only [rxHart, hk]
    by_cases hroom : (chanOf s ch).bursts.length < 8 <;> simp only [hroom, if_true, if_false]
  case ended =>
    intro ch r s j rest hqueue hdrives hok hsent
    refine (next_if_pos (by simp [hdrives, hok, hsent])).trans ?_
    simp only [endHart, hqueue]
  case poll =>
    intro ch r s hdrives hok hmd hqueue hlow hdevs hthere
    refine next_if_pos ?_
    simp only [hdrives, hok, hmd, hqueue, hlow, hthere, List.isEmpty_nil, Bool.and_true, Bool.not_false]
    simpa using hdevs
  case retry =>
    intro ch addr r s hdrives hok hmd hqueue hlow hmissing
    refine next_if_pos ?_
    rw [hdrives, hok, hmd, hqueue, hlow, hmissing]
    rfl
  case config =>
    intro ch c s hnext hidle hreset htick
    simp only [exec, execConfigPendingApply, hnext]
    exact next_if_pos (by simp [hidle, hreset, htick])
  case aborted =>
    intro x c s hcheck hnot
    simp only [exec, execComplianceCheckPhase, hcheck]
    exact next_if_pos (by simp [hnot])
  case phase =>
    intro x c s hcheck hallowed
    have hgo : ¬ (!(checkAllowed s c.ch)) = true := by simp [hallowed]
    refine ⟨fun hlimited => ?limited, fun hfree hnolimit => ⟨fun hphase htime => ?low, fun hphase htime hlast => ?high,
      fun hphase htime htrial hpass => ?trial, fun hphase hdrop => ?dropped, fun hphase hheld hover => ?passed⟩⟩
    case limited =>
      simp only [exec, execComplianceCheckPhase, hcheck]
      exact (next_if_neg hgo).trans (next_if_pos (by simpa using hlimited))
    all_goals
      have hclear : ¬ (x.limited || s.sb.limited.contains c.ch) = true := by simp only [hfree, hnolimit]; decide
      simp only [exec, execComplianceCheckPhase, hcheck, hphase]
      refine (next_if_neg hgo).trans ((next_if_neg hclear).trans ?_)
    case low => exact next_if_neg (by omega)
    case high =>
      refine (next_if_neg (by omega)).trans ?_
      by_cases hpass : 8500 ≤ x.vMean - ((chanOf s c.ch).cfg.supAllow : Int)
      case pos =>
        have htrial : ¬ c.trial = true := by simpa using hlast.resolve_right (by omega)
        rw [if_pos hpass]
        exact (next_if_neg (by simpa [chanOf] using hpass)).trans (next_if_neg htrial)
      case neg =>
        rw [if_neg hpass]
        exact next_if_pos (by simpa [chanOf] using hpass)
    case trial =>
      exact (next_if_neg (by omega)).trans ((next_if_neg (by simpa [chanOf] using hpass)).trans (next_if_pos htrial))
    case dropped => exact next_if_pos hdrop
    case passed => exact (next_if_neg (by omega)).trans (next_if_neg (by omega))

end Sys2Proof.Claims

end

section
/-! The receiver, the lanes and the junction die (chapters 04 and 11). -/

namespace Sys2Proof.Machine

open Sys2Proof.Claims

/-! ### The receiver (R99, R119) -/

theorem enterGnssMode_mode (m : Nat) (s : State) : (enterGnssMode m s).gnss.mode = m := by
  unfold enterGnssMode
  split
  · assumption
  · rfl

theorem enterGnssMode_role (m : Nat) (s : State) : (enterGnssMode m s).cons.role = s.cons.role := by
  unfold enterGnssMode
  split <;> rfl

theorem execChannelStateChange_of_other {ch : Nat} {ev : TrackEvent} {s : State} (htrack : tracking s = true) (hch : ch < 160)
    (hother : ∀ system sv band antenna k, ev ≠ .allocated system sv band antenna k) :
    exec (.channelStateChange ch ev) s = .next { s with gnss.chans := s.gnss.chans.modify ch (chanEvent s ev) } := by
  refine (next_if_pos (by simp [htrack, hch])).trans ?_
  cases ev
  case allocated system sv band antenna k => exact absurd rfl (hother system sv band antenna k)
  all_goals rfl

theorem execHotfixComplete_failed {h : HotfixIn} {s : State} {t0 : Nat} (hfix : s.gnss.hotfix = some t0)
    (hno : hotSnap s t0 = none ∨ ∃ x, hotSnap s t0 = some x ∧ hotSolve h x s = none) :
    exec (.hotfixComplete h) s = .next
      { enterGnssMode (startMode s.gnss.sel) { s with gnss.hotfix := none } with gnss.hotfixFailed := true } := by
  rcases hno with hsnap | ⟨x, hsnap, hsolve⟩
  · simp only [exec, execHotfixComplete, hfix, hsnap]
  · simp only [exec, execHotfixComplete, hfix, hsnap, hsolve]

/-! ### Lanes (R331) -/

theorem laneOf_of_lanes {s t : State} (h : t.lanes = s.lanes) (l : Lane) : laneOf t l = laneOf s l :=
  congrArg (fun v : Lane3 LaneSt => v.get l) h

/-! ### Junction blocks (Table 11-2) -/

/-- Whether a difference of the block counts as its second: it is out, or its last difference is less than 10 s old. -/
def differedBefore (s : State) (block u : Nat) : Bool :=
  match blockEntry s block u with
  | none => false
  | some b => b.out || decide (s.mono < b.at_ + 10000)

/-- The code of a difference (Table 11-2): 3 silences the module, 2 takes the block out, 1 resets it. -/
def differenceCode (s : State) (block : Nat) (second : Bool) : Nat :=
  if 8 ≤ block ∨ block = 6 ∧ (second = true ∨ s.cons.role = .lead ∧ layoverReady s = true) then 3
  else if second then 2 else 1

/-- The state in which a difference of the block is counted and recorded. -/
def differenceNoted (s : State) (block code : Nat) : State :=
  assertVec 36 (logJ 11 2 (leBytes 1 block ++ leBytes 1 code) { s with jx.diffs := sat 16 (s.jx.diffs + 1), jx.lastBlock := block })

/-- The recording of a difference takes no time. -/
theorem differenceNoted_mono (s : State) (block code : Nat) : (differenceNoted s block code).mono = s.mono := by
  unfold differenceNoted
  rw [logJ_eq]
  rfl

theorem differenceCode_eq_three {s : State} {block : Nat} {second : Bool} :
    differenceCode s block second = 3 ↔
      (decide (8 ≤ block) || (block == 6 && (second || (s.cons.role == .lead && layoverReady s)))) = true := by
  have hsilent : (decide (8 ≤ block) || (block == 6 && (second || (s.cons.role == .lead && layoverReady s)))) = true ↔
      (8 ≤ block ∨ block = 6 ∧ (second = true ∨ s.cons.role = .lead ∧ layoverReady s = true)) := by simp
  rw [hsilent]
  unfold differenceCode
  constructor
  · intro hcode
    by_contra hno
    rw [if_neg hno] at hcode
    cases second <;> exact absurd hcode (by decide)
  · exact fun h => if_pos h

theorem differenceCode_of_ne_three {s : State} {block : Nat} {second : Bool} (h : differenceCode s block second ≠ 3) :
    differenceCode s block second = if second then 2 else 1 := by
  unfold differenceCode at h ⊢
  exact if_neg fun hsilent => h (if_pos hsilent)

/-- A difference silences, takes out or resets by its code. -/
theorem execJunctionPairDifference_eq {s : State} {block u : Nat} (hup : junctionUp s = true) (hlow : 1 ≤ block)
    (hhigh : block ≤ 13) :
    exec (.junctionPairDifference block u) s =
      let second := differedBefore s block u
      let v := differenceNoted s block (differenceCode s block second)
      let w := setBlock { block, unit := u, at_ := s.mono, resetting := !second, out := second } v
      .next (if differenceCode s block second = 3 then fallSilent v else if block = 5 then updateRing w else w) := by
  have hrange : ¬ (!junctionUp s || decide (block < 1) || decide (13 < block)) = true := by
    simp [hup, not_lt.mpr hlow, not_lt.mpr hhigh]
  refine (next_if_neg hrange).trans ?_
  dsimp only
  by_cases hthree : differenceCode s block (differedBefore s block u) = 3
  · have hsilent := differenceCode_eq_three.mp hthree
    rw [if_pos hthree, hthree]
    refine (next_if_pos hsilent).trans ?_
    exact congrArg (fun n => Host.Outcome.next (fallSilent (differenceNoted s block n))) (if_pos hsilent)
  · have hheard := mt differenceCode_eq_three.mpr hthree
    rw [if_neg hthree, differenceCode_of_ne_three hthree]
    refine (next_if_neg hheard).trans ((congrArg (fun n => Host.Outcome.next (
      let v := differenceNoted s block n
      let w := setBlock { block, unit := u, at_ := v.mono, resetting := !differedBefore s block u, out := differedBefore s block u } v
      if block = 5 then updateRing w else w)) (if_neg hheard)).trans ?_)
    simp only [differenceNoted_mono]
    rfl

end Sys2Proof.Machine

namespace Sys2Proof.Claims

open Sys2Proof.Machine

/-- Settles O35: the guard of each command; the hot fix ends by what its capture and its solution gave. -/
theorem receiverFollowsItsRules : Obligations.ReceiverFollowsItsRules := by
  refine ⟨?epoch, ?block, ?channel, ?allocated, ?fallback, ?back, ?rtcm, ?antenna, ?retry, ?snap, ?failed, ?solved⟩
  case epoch =>
    exact fun e s hup hrun htick hrate hnew => next_if_pos (by simp [hup, hrun, htick, hrate, hnew])
  case block => exact fun s h => next_if_pos h
  case channel => exact fun channel ev s htrack hch hother => execChannelStateChange_of_other htrack hch hother
  case allocated =>
    rintro channel system sv band antenna k s chans htrack hch rfl
    refine (next_if_pos (by simp [htrack, hch])).trans ?_
    simp only [Bool.and_eq_true, beq_iff_eq]
  case fallback => exact fun s hsel hmode hlow => next_if_pos (by simp [hsel, hmode, hlow])
  case back => exact fun s hsel hmode hok => next_if_pos (by simp [hsel, hmode, hok])
  case rtcm =>
    intro f rest s hrun hqueue
    simp only [exec, execRtcmFrame, hqueue]
    exact next_if_pos (by simp [hrun])
  case antenna =>
    rintro antenna microamps atLimit s u hup hant hfitted rfl
    have hguard : (junctionUp s && decide (antenna < 2) && !(s.image.gnss.antBAbsent && decide (antenna = 1))) = true := by
      rcases hfitted with h | h <;> simp [hup, hant, h]
    refine ⟨fun hshort => ?_, fun hnot hopen => ?_, fun hnot hnot' => ?_⟩
    · exact (next_if_pos hguard).trans (next_if_pos hshort)
    · exact (next_if_pos hguard).trans ((next_if_neg (Bool.not_eq_true _ ▸ hnot)).trans (next_if_pos hopen))
    · exact (next_if_pos hguard).trans ((next_if_neg (Bool.not_eq_true _ ▸ hnot)).trans
        (next_if_neg (Bool.not_eq_true _ ▸ hnot')))
  case retry =>
    intro antenna s hant hfault hoff
    have hguard : (decide (antenna < 2) && antFault s antenna &&
        ((s.gnss.antOff.getD antenna none).isNone || heldFor s (s.gnss.antOff.getD antenna none) 10000)) = true := by
      rcases hoff with h | h
      · rw [h, hfault, decide_eq_true hant]; rfl
      · rw [h, hfault, decide_eq_true hant, Bool.or_true]; rfl
    exact ⟨next_if_pos hguard, next_if_pos hguard⟩
  case snap =>
    intro c s hmode hlayover hsecond hnew
    exact ⟨_, _, next_if_pos (by simp [hmode, hlayover, hsecond, hnew]), rfl, rfl, rfl, rfl, rfl, rfl, rfl, rfl, rfl, rfl⟩
  case failed =>
    exact fun h s t0 hfix hno => ⟨_, execHotfixComplete_failed hfix hno, rfl, enterGnssMode_mode _ _⟩
  case solved =>
    rintro h s v u t0 at_ x r hfix hsnap hsolve rfl rfl rfl
    have hrole : (enterGnssMode (startMode s.gnss.sel) { s with gnss.hotfix := none }).cons.role = s.cons.role :=
      enterGnssMode_role _ _
    refine ⟨fun hlead => ?_, fun hother => ?_⟩
    all_goals
      simp only [exec, execHotfixComplete, hfix, hsnap, hsolve]
    · exact next_if_pos (by simp [hrole, hlead])
    · exact next_if_neg (by simp [hrole, hother])

/-- Settles O36: the packet of the identifier is found, and its copies decide. -/
theorem outgoingCopiesAreVoted : Obligations.OutgoingCopiesAreVoted := by
  refine ⟨?copy, ?silent, ?left, ?missing⟩
  case copy =>
    intro lane id err s v hfind hin hfirst
    refine ⟨_, rfl, ?_⟩
    simp only [exec, execEgressCopy, hfind]
    exact next_if_neg (by simp only [hin, hfirst]; decide)
  all_goals
    intro id s v hfind hcopies hsent
    have hsome : ¬ v.copies.isEmpty = true := by simpa using hcopies
    simp only [exec, execEgressTimeout, hfind]
  case silent =>
    exact fun hmany => (next_if_neg hsome).trans ((next_if_pos (by simp [hsent])).trans (next_if_pos hmany))
  case left =>
    exact fun hfew => (next_if_neg hsome).trans ((next_if_pos (by simp [hsent])).trans (next_if_neg (by omega)))
  case missing =>
    exact (next_if_neg hsome).trans (next_if_neg (by simp [hsent]))

/-- Settles O37: the guard of each command; a difference silences, resets or takes out by its block and its count. -/
theorem lanesFailAndReturn : Obligations.LanesFailAndReturn := by
  refine ⟨?start, ?enter, ?fault, ?excluded, ?strobe, ?pair, ?recovered, ?ringRecovered, ?single, ?double, ?checkpoint⟩
  case start =>
    exact fun lane s hauto hexcl hretry hstate hheld => next_if_pos (by simp [hauto, hexcl, hretry, hstate, hheld])
  case enter =>
    intro lane s hshadow hten hfull hnext hrun
    refine ⟨_, next_if_pos (by simp [hshadow, hten, hfull, hnext, hrun]), ?_⟩
    have hlanes (u : State) (d : List Byte) (sec ns q : Nat) :
        (assertVec 36 (logAt 11 1 (2 ^ lane.num) sec ns q d u)).lanes = u.lanes :=
      logAt_only State.lanes (fun _ _ _ => rfl) _ _ _ _ _ _ _ _
    unfold inService
    refine ⟨?_, ?_, ?_, fun l hl => ?_⟩ <;> rw [laneOf_of_lanes (hlanes _ _ _ _ _)]
    · simp
    · simp
    · rw [laneOf_setLane_same]
    · exact laneOf_setLane_other _ _ _ _ hl
  case fault =>
    intro lane supply s hup hstate
    refine (next_if_neg (by simp [hup])).trans ?_
    simp only [hstate]
  case excluded =>
    intro lane supply s hup hstate
    refine (next_if_neg (by simp [hup])).trans ?_
    rcases hstate with h | h <;> simp only [h]
  case strobe => exact fun s h => next_if_pos h
  case pair =>
    rintro block u _ _ s hup hlow hhigh rfl rfl
    exact ⟨_, _, rfl, rfl, execJunctionPairDifference_eq hup hlow hhigh⟩
  case recovered =>
    intro block u s b hentry hreset hnot
    simp only [exec, execJunctionBlockRecovered, hentry]
    refine (next_if_pos hreset).trans (next_if_neg ?_)
    rcases hnot with h | h
    · simp [h]
    · simp [show junctionUp (setBlock { b with resetting := false } s) = junctionUp s from rfl, h]
  case ringRecovered =>
    intro u s b hentry hreset hup
    simp only [exec, execJunctionBlockRecovered, hentry]
    refine (next_if_pos hreset).trans (next_if_pos ?_)
    simp [show junctionUp (setBlock { b with resetting := false } s) = junctionUp s from rfl, hup]
  case single => exact fun s h => next_if_pos (by simp [h])
  case double => exact fun s h => next_if_pos (by simp [h])
  case checkpoint => exact fun s h => next_if_pos (by simp [h])

end Sys2Proof.Claims

end

section
/-! The ring, the consist and the loss of the Lead (chapter 11). -/

namespace Sys2Proof.Machine

open Sys2Proof.Claims

/-! ### The ring (R338 to R340) -/

theorem junctionUp_not_fault {s : State} (h : junctionUp s = true) : ¬ (s.pow.state == .fault) = true := by
  intro hfault
  unfold junctionUp at h
  rw [eq_of_beq hfault] at h
  exact absurd h nofun

/-! ### Heartbeat words (R347) -/

/-- A word whose frame number is judged by the heartbeats of the ring, and is new enough, is heard. -/
theorem execHeartbeatWord_of_ringFresh {hbB : Bool} {slot word at_ : Nat} {s : State}
    (hguard : ¬ (!junctionUp s || decide (4 ≤ slot) || decide (slot + 1 = s.cons.addr) ||
      word / 256 % 256 != crc8 (word % 256) || word % 4 != slot) = true)
    (hring : (peerAt s (slot + 1)).ringAt = some at_) (hfresh : s.mono ≤ at_ + 1000)
    (hage : ((s.tt.ticks % 16 + (peerAt s (slot + 1)).offset.getD 0) % 16 + 16 - word / 16 % 16) % 16 ≤ 3) :
    exec (.heartbeatWord hbB slot word) s = .next (heard (slot + 1) (if hbB then 3 else 2)
      (onPeer (slot + 1) (fun q => { q with isLead := word.testBit 2, bit3 := word.testBit 3 })
        { onPeer (slot + 1) (fun q =>
            { q with offset := (peerAt s (slot + 1)).offset, fromWord := (peerAt s (slot + 1)).fromWord }) s with
          cons.nowWords := (onPeer (slot + 1) (fun q =>
            { q with offset := (peerAt s (slot + 1)).offset, fromWord := (peerAt s (slot + 1)).fromWord }) s).cons.nowWords.set
              slot (some word) })) := by
  refine (next_if_neg hguard).trans ?_
  simp only [hring, hfresh, decide_true, if_true]
  exact next_if_neg (not_lt.mpr hage)

end Sys2Proof.Machine

namespace Sys2Proof.Claims

open Sys2Proof.Machine

/-- Settles O38: the guard of each command. -/
theorem ringLinksComeAndGo : Obligations.RingLinksComeAndGo := by
  refine ⟨?up, ?down, ?delay, ?faulted, ?received, ?bad⟩
  case up =>
    rintro east s l rfl hup hdown hgood hblock
    refine next_if_pos ?_
    rw [hup, hdown, hblock, decide_eq_true hgood]
    rfl
  case down =>
    rintro east s l rfl hup hwas hlost
    refine next_if_pos ?_
    rw [hup, hwas]
    simpa only [Bool.true_and, Bool.or_eq_true, decide_eq_true_eq, or_assoc] using hlost
  case delay =>
    exact fun east r d s hup hlink => next_if_pos (Bool.and_eq_true_iff.mpr ⟨hup, hlink⟩)
  case faulted =>
    exact fun east v m s hblock hfault => (next_if_neg (by simp [hblock])).trans (next_if_pos (by simp [hfault]))
  case received =>
    exact fun east v m s hup hblock hcrc => (next_if_neg (by simp [hblock])).trans
      ((next_if_neg (junctionUp_not_fault hup)).trans ((next_if_neg (by simp [hup])).trans (next_if_pos hcrc)))
  case bad =>
    exact fun east v m s hup hblock hcrc => (next_if_neg (by simp [hblock])).trans
      ((next_if_neg (junctionUp_not_fault hup)).trans ((next_if_neg (by simp [hup])).trans (next_if_neg (by simp [hcrc]))))

/-- Settles O39: the guard of each command, and the roll call as `beginRoll` sends it. -/
theorem rollCallsAndRoles : Obligations.RollCallsAndRoles := by
  refine ⟨?start, ?begin, ?ended, ?silent, ?noHome, ?first, ?again, ?witness⟩
  case start =>
    intro s hup hhome hlink hwhen
    refine next_if_pos ?_
    rw [hup, hhome, hlink]
    rcases hwhen with ⟨hroll, hdone⟩ | hreq
    · rw [hroll, hdone]
      rfl
    · rw [hreq, Bool.or_true]
      rfl
  case begin =>
    intro op s
    refine ⟨_, _, rfl, rfl, ?_⟩
    unfold beginRoll
    by_cases hop : op = 0 <;> simp only [hop, if_true, if_false]
  case ended =>
    exact fun s hup hanswers hwhen => (next_if_neg (by simp [hup])).trans
      (next_if_pos (by simpa [hanswers] using hwhen))
  case silent =>
    intro s hup hanswers hheld htask
    refine (next_if_neg (by simp [hup])).trans ((next_if_neg (by simp [hanswers])).trans ((next_if_pos hheld).trans ?_))
    simp only [htask]
  case noHome =>
    intro s hup hrun hdone hroll hno hwhen
    refine next_if_pos ?_
    rw [hup, hrun, hdone, hroll, hno]
    simpa only [Bool.true_and, Bool.not_false, Option.isNone_none, Bool.or_eq_true, Bool.and_eq_true, decide_eq_true_eq,
      and_assoc] using hwhen
  case first =>
    intro s hup himage hrole hready
    refine (next_if_neg (by simp [hup, himage])).trans ?_
    simp only [hrole]
    exact next_if_pos (by simp [hready])
  case again =>
    intro s hup himage hrole hlayover halarm
    refine (next_if_neg (by simp [hup, himage])).trans ?_
    simp only [hrole]
    exact (next_if_neg (by simp [hlayover])).trans (next_if_pos (by simp [hlayover, halarm]))
  case witness =>
    intro s hup himage hrole hnone hfirst
    refine (next_if_neg (by simp [hup, himage])).trans ?_
    simp only [hrole]
    exact next_if_pos (by rw [hnone, hfirst]; simp)

/-- Settles O40: the guard of each command. -/
theorem lossOfTheLeadIsSeen : Obligations.LossOfTheLeadIsSeen := by
  refine ⟨?word, ?lost, ?carrier, ?external, ?witness, ?refused, ?yieldWitness, ?yieldExternal, ?view⟩
  case word =>
    rintro hbB slot word s p own est age hup hslot hself hcrc hnum rfl ⟨at_, hring, hfresh⟩ rfl rfl rfl hage
    refine ⟨_, rfl, execHeartbeatWord_of_ringFresh ?_ hring hfresh hage⟩
    simp [hup, not_le.mpr hslot, hself, hcrc, hnum]
  case lost =>
    rintro addr at_ kind s hheard hup haddr hlost hlate rfl
    refine ⟨_, rfl, ?_⟩
    simp only [exec, execLeadLost, hheard]
    exact next_if_neg (by simp [hup, haddr, hlost, hlate])
  case carrier =>
    intro carrier addr s hup hcarrier haddr hsilent hother hno
    refine next_if_pos ?_
    rw [hup, hsilent, hother, hno, decide_eq_true hcarrier]
    simpa using haddr
  case external =>
    intro s hwait htime harb hout
    refine (next_if_pos (by simp [hwait, htime, harb, hout])).trans ?_
    simp only [harb, if_true]
  case witness =>
    intro s hwait htime harb hconfirmed
    refine (next_if_pos ?_).trans ?_
    · rw [hwait, hconfirmed, decide_eq_true htime, decide_eq_true harb]
      rfl
    · simp only [harb]
      rfl
  case refused => exact fun s hwait harb htime => next_if_pos (by simp [hwait, harb, htime])
  case yieldWitness =>
    intro s hrole harb hquiet
    refine (next_if_pos ?_).trans ?_
    · beta_reduce
      rw [hrole, hquiet, decide_eq_true harb]
      rfl
    · exact congrArg (fun u => Host.Outcome.next (fallSilent u)) (if_neg (by omega))
  case yieldExternal =>
    intro s hrole harb hquiet
    refine (next_if_pos ?_).trans ?_
    · beta_reduce
      rw [hrole, hquiet, decide_eq_true harb, Bool.and_true, Bool.or_true]
      rfl
    · exact congrArg (fun u => Host.Outcome.next (fallSilent u)) (if_pos harb)
  case view => exact fun s hview hdue => next_if_pos (by simp [hview, hdue])

end Sys2Proof.Claims

end

section
/-! Takeovers, host traffic, the recorder and the display (chapters 11 to 14). -/

namespace Sys2Proof.Claims

open Sys2Proof.Machine

/-- Settles O41: the guard of each phase. -/
theorem takeoversRunTheirPhases : Obligations.TakeoversRunTheirPhases := by
  refine ⟨?cold, ?planned, ?restore, ?firstFrame, ?capture, ?taken, ?captured, ?shadowed, ?release, ?outgoing, ?incoming⟩
  case cold =>
    exact fun s hrole hstate hstart => (next_if_neg (by simp [hrole, hstate])).trans (next_if_pos hstart)
  case planned =>
    exact fun s hrole hstate hstart hlead hready hphase => (next_if_neg (by simp [hrole, hstate])).trans
      ((next_if_neg (by simp [hstart])).trans (next_if_pos (by simp [hlead, hready, hphase])))
  case restore =>
    exact fun ok h v s hstate hkind hnew => ⟨_, _, rfl, rfl, next_if_pos (by simp [hstate, hkind, hnew])⟩
  case firstFrame =>
    exact fun s hstate hkind hrestored hphase hheld hbound =>
      next_if_pos (by simp [hstate, hkind, hrestored, hphase, hheld, hbound])
  case capture =>
    exact fun s hrole hrun hcap hgood hbound => (next_if_neg (by simp [hrole, hrun])).trans
      ((next_if_pos hcap).trans (next_if_pos (by simp [hgood, hbound])))
  case taken =>
    exact fun s hrole hrun hcap hwait hall => (next_if_neg (by simp [hrole, hrun])).trans
      ((next_if_neg (by simp [hcap])).trans ((next_if_pos hwait).trans (next_if_pos hall)))
  case captured =>
    exact fun s hrole hrun hcap hwait hphase hnew hall => (next_if_neg (by simp [hrole, hrun])).trans
      ((next_if_neg (by simp [hcap])).trans ((next_if_neg (by simp [hwait])).trans
        (next_if_pos (by simp [hphase, hnew, hall]))))
  case shadowed =>
    exact fun s f hstate hkind hphase hout hframes hfull hfresh hbound =>
      next_if_pos (by simp [hstate, hkind, hphase, hout, hframes, hfull, hfresh, hbound])
  case release =>
    intro s hrole hout hflag
    refine ⟨_, _, rfl, rfl, next_if_pos ?_⟩
    rw [hrole, hout, hflag]
    rfl
  case outgoing => exact fun s h => next_if_pos h
  case incoming =>
    exact fun s hout hin => ⟨_, rfl, (next_if_neg (by simp [hout])).trans (next_if_pos hin)⟩

/-- Settles O42: the guard of each command. -/
theorem hostTrafficIsServed : Obligations.HostTrafficIsServed := by
  refine ⟨?listed, ?unlisted, ?relay, ?timeout, ?reply, ?responder, ?doorbell, ?badTail, ?badFetch, ?enable, ?head, ?pend,
    ?test, ?write, ?abandon, ?loaded, ?failed⟩
  case listed =>
    exact fun port srcIp srcPort p s hup hport hservice hsource hsize =>
      (next_if_neg (by simp [hup, hport, hservice])).trans ((next_if_neg (by simp)).trans
        ((next_if_neg (by simp [hsource])).trans (next_if_neg (not_lt.mpr hsize))))
  case unlisted =>
    exact fun port srcIp srcPort p s hup hport hservice hsource =>
      (next_if_neg (by simp [hup, hport, hservice])).trans ((next_if_neg (by simp)).trans
        (next_if_pos (by simp [hsource])))
  case relay =>
    intro index r s hfind hdue
    simp only [exec, execRelayRecordExpiry, hfind]
    exact next_if_pos hdue
  case timeout =>
    intro slot x s hfind hup hbound hdue
    simp only [exec, execSessionTimeout, hfind]
    exact next_if_pos (by simp [hup, hbound, hdue])
  case reply =>
    intro slot tag x t s hfind hslot hup hdone hdue
    simp only [exec, execCompletionReply, hfind, hslot]
    exact next_if_neg (by simp [hup, hdone, hdue])
  case responder => exact fun s hup hnone => next_if_pos (by simp [hup, hnone])
  case doorbell =>
    rintro queue tail f s n hup hqueue hblock hen herr htail hdma hlen rfl
    refine (next_if_neg (by simp [hup, hqueue, hblock, hen, herr])).trans ((next_if_neg (not_le.mpr htail)).trans ?_)
    simp only [hdma, hlen, Bool.false_eq_true, if_false, Bool.or_self]
  case badTail =>
    exact fun queue tail f s hup hqueue hblock hen herr htail =>
      (next_if_neg (by simp [hup, hqueue, hblock, hen, herr])).trans (next_if_pos htail)
  case badFetch =>
    rintro queue tail n got f s hup hqueue hblock hen herr htail hbad rfl rfl
    refine (next_if_neg (by simp [hup, hqueue, hblock, hen, herr])).trans ((next_if_neg (not_le.mpr htail)).trans ?_)
    cases hdma : f.dmaFault with
    | true => simp only [Bool.true_or, if_true]
    | false =>
      have hlen : f.entryLenBad = true := by simpa [hdma] using hbad
      simp only [hlen, Bool.false_eq_true, if_false, Bool.or_true, if_true]
  case enable => exact fun queue value s hup hpcie hqueue => next_if_pos (by simp [hup, hpcie, hqueue])
  case head => exact fun queue value s hup hpcie hqueue => next_if_pos (by simp [hup, hpcie, hqueue])
  case pend => exact fun high value s hup hpcie => next_if_pos (by simp [hup, hpcie])
  case test => exact fun value s hup hpcie hvec => next_if_pos (by simp [hup, hpcie, hvec])
  case write =>
    exact fun offset value s hin hup hblock => (if_neg (not_le.mpr hin)).trans (next_if_pos (by simp [hup, hblock]))
  case abandon =>
    intro x s hfind hup hcommit hdue
    simp only [exec, execImageTransferAbandon, hfind]
    exact next_if_pos (by simp [hup, hcommit, hdue])
  case loaded =>
    intro ok task at_ x s hcommit hfind hup hpass
    refine ⟨_, _, rfl, rfl, ?_⟩
    simp only [exec, execImageCommitComplete, hcommit, hfind, hpass]
    exact next_if_neg (by simp [hup])
  case failed =>
    intro ok task at_ x detail status s hcommit hfind hup hfail
    simp only [exec, execImageCommitComplete, hcommit, hfind, hfail]
    exact next_if_neg (by simp [hup])

/-- Settles O43: the guards of RECORDER_WRITE by its budget and its failed readbacks, and of the cursor commands. -/
theorem recordsAreWrittenAndRead : Obligations.RecordsAreWrittenAndRead := by
  refine ⟨?wait, ?fault, ?written, ?load, ?loaded⟩
  case wait =>
    exact fun fails s hup hstarted hleft => (next_if_neg (by simp [hup, hstarted])).trans
      (next_if_pos (Nat.div_eq_of_lt hleft))
  all_goals
    have hbudget (left : Nat) (h : 64 ≤ left) : ¬ left / 64 = 0 := by omega
  case fault =>
    exact fun fails s hup hstarted hleft hfails hstaged hfull => (next_if_neg (by simp [hup, hstarted])).trans
      ((next_if_neg (hbudget _ hleft)).trans (next_if_pos (by simp [hfails, hstaged, hfull])))
  case written =>
    rintro s u v before after hup hstarted hleft rfl rfl rfl rfl hclear
    refine (next_if_neg (by simp [hup, hstarted])).trans ((next_if_neg (hbudget _ hleft)).trans
      ((next_if_neg (by simp)).trans ?_))
    simp only [Nat.sub_zero, Nat.add_zero, hclear]
  case load =>
    intro s hup hidle
    have hload (cursor : Nat → Nat) : beginLoad cursor s =
        { s with log.loading := true, log.cursor := cursor s.log.cursor % 2 ^ 32 } := if_neg (by simp [hup, hidle])
    exact ⟨congrArg _ (hload _), congrArg _ (hload _), congrArg _ (hload _)⟩
  case loaded =>
    exact fun s h => ⟨_, next_if_pos h, rfl⟩

/-- Settles O44: the guard of each command. -/
theorem displayEventsAct : Obligations.DisplayEventsAct := by
  refine ⟨?frame, ?crack, ?temp, ?tempAgain, ?tempLost, ?dead, ?hold⟩
  case frame => exact fun ohm s halive hdriver hlevel => ⟨_, rfl, next_if_neg (by simp [halive, hdriver, hlevel])⟩
  case crack => exact fun s halive hrun hnew => next_if_pos (by simp [halive, hrun, hnew])
  case temp =>
    intro temp deg s halive htemp hlost
    refine (next_if_neg (by simp [halive])).trans ?_
    simp only [htemp]
    exact next_if_neg (by simp [hlost])
  case tempAgain =>
    intro temp deg s halive htemp hlost
    refine (next_if_neg (by simp [halive])).trans ?_
    simp only [htemp]
    exact next_if_pos hlost
  case tempLost =>
    intro temp s halive htemp hlost
    refine (next_if_neg (by simp [halive])).trans ?_
    simp only [htemp]
    exact next_if_neg (by simp [hlost])
  case dead => exact fun region s halive hregion hsource hlate => next_if_pos (by simp [halive, hregion, hsource, hlate])
  case hold => exact fun region s halive hrunning hover => next_if_pos (by simp [halive, hrunning, hover])

end Sys2Proof.Claims

end

section
/-! Supplies, module states, the state after reset, and stored replies (chapters 12 and 15). -/

namespace Sys2Proof.Machine

open Sys2Proof.Claims

/-! ### Supplies (R426 to R431) -/

theorem supplyEvent_pow (input event value : Nat) (s : State) : (supplyEvent input event value s).pow = s.pow :=
  supplyEvent_only State.pow (fun _ _ _ => rfl) input event value s

/-- What a ride through ends and counts is all that it changes in the supplies. -/
theorem rideThrough_pow (i : SupplyIn) (mv : Nat) (s : State) :
    (rideThrough i mv s).pow = { s.pow with pf := (rideThrough i mv s).pow.pf, rides := (rideThrough i mv s).pow.rides } := by
  unfold rideThrough
  split
  · rw [supplyEvent_pow]
  · rfl

theorem testVbak_pow (mv : Nat) (s : State) :
    (testVbak mv s).pow =
      { s.pow with vbakLow := decide (mv < 2200), vbakAt := s.mono, vbak := { s.pow.vbak with mv := mv } } := by
  unfold testVbak
  dsimp only
  repeat' split
  · rw [supplyEvent_pow]
  · rw [supplyEvent_pow]
  · rfl

/-- What a change of the isolated supply marks. -/
def supplyFlags (ev : SupplyEv) (v : State) : State :=
  match ev with
  | .fldLow => { v with pow.fldLow := true }
  | .fldRestored => { v with pow.fldLow := false }
  | .fldOvercurrent => { v with pow.fldOver := true }
  | .fldOvercurrentEnd => { v with pow.fldOver := false }
  | _ => v

theorem execSupplyChange_of_code_none {i : SupplyIn} {ev : SupplyEv} {mv : Nat} {s : State} (hdue : supplyDue s i ev mv = true)
    (hcode : supplyCode ev = none) :
    exec (.supplyChange i ev mv) s =
      .next (rideThrough i mv (supplyFlags ev (setSupply i (supplyAfter (supplyOf s i) ev mv) s))) := by
  refine (next_if_neg (by simp [hdue])).trans ?_
  simp only [hcode]
  rfl

theorem execSupplyChange_of_code_some {i : SupplyIn} {ev : SupplyEv} {mv e : Nat} {s : State} (hdue : supplyDue s i ev mv = true)
    (hcode : supplyCode ev = some e) :
    exec (.supplyChange i ev mv) s =
      .next (rideThrough i mv (supplyEvent i.num e (mv / 10) (supplyFlags ev (setSupply i (supplyAfter (supplyOf s i) ev mv) s)))) := by
  refine (next_if_neg (by simp [hdue])).trans ?_
  simp only [hcode]
  rfl

/-- A logic input that becomes VALID or INVALID marks no flag. -/
theorem execSupplyChange_logged {i : SupplyIn} {ev : SupplyEv} {mv e : Nat} {s : State} (hdue : supplyDue s i ev mv = true)
    (hlogic : ev = .valid ∨ ev = .invalid) (hcode : supplyCode ev = some e) :
    exec (.supplyChange i ev mv) s =
      .next (rideThrough i mv (supplyEvent i.num e (mv / 10) (setSupply i (supplyAfter (supplyOf s i) ev mv) s))) := by
  refine (execSupplyChange_of_code_some hdue hcode).trans ?_
  rcases hlogic with rfl | rfl <;> rfl

theorem changeState_pow (target : ModState) (reason : Nat) (s : State) :
    (changeState target reason s).pow = { s.pow with state := target, since := s.mono } := by
  have hmono : (logJ 1 2 (leBytes 1 s.pow.state.code ++ leBytes 1 target.code ++ leBytes 1 reason) s).mono = s.mono :=
    logJ_only State.mono (fun _ _ _ => rfl) _ _ _ s
  have hpow : (logJ 1 2 (leBytes 1 s.pow.state.code ++ leBytes 1 target.code ++ leBytes 1 reason) s).pow = s.pow :=
    logJ_only State.pow (fun _ _ _ => rfl) _ _ _ s
  rw [show (changeState target reason s).pow =
    { (logJ 1 2 (leBytes 1 s.pow.state.code ++ leBytes 1 target.code ++ leBytes 1 reason) s).pow with
      state := target, since := s.mono } from rfl, hpow]

theorem flushAll_pow (s : State) : (flushAll s).pow = s.pow := flushAll_only State.pow (fun _ _ _ _ => rfl) s

theorem flushAll_disp (s : State) : (flushAll s).disp = s.disp := flushAll_only State.disp (fun _ _ _ _ => rfl) s

/-- The last work of the rails leaves what the Chamois domain holds. -/
theorem lastWork_chamois (target : ModState) (s : State) :
    (if dieAlive s then flushAll (changeState target 0 (stopOutputs s)) else s).pow.latch = s.pow.latch ∧
    (if dieAlive s then flushAll (changeState target 0 (stopOutputs s)) else s).pow.opSec = s.pow.opSec := by
  split
  · rw [flushAll_pow, changeState_pow]
    exact ⟨rfl, rfl⟩
  · exact ⟨rfl, rfl⟩

/-! ### Sessions through records and vectors -/

theorem assertVecFrame_sessions (v src : Nat) (s : State) : (assertVecFrame v src s).host.sessions = s.host.sessions := by
  unfold assertVecFrame
  split <;> rfl

theorem logJ_sessions (source code : Nat) (data : List Byte) (s : State) :
    (logJ source code data s).host.sessions = s.host.sessions := by
  have hfull (u : State) : (composeFull u).host.sessions = u.host.sessions := by
    unfold composeFull
    split
    · exact assertVecFrame_sessions _ _ _
    · rfl
  unfold logJ logAt stageRec
  dsimp only
  repeat' split
  · rfl
  · rfl
  · rfl
  · exact hfull _

theorem supplyEvent_sessions (input event value : Nat) (s : State) :
    (supplyEvent input event value s).host.sessions = s.host.sessions := by
  unfold supplyEvent
  split
  · rfl
  · rw [assertVecFrame_sessions, logJ_sessions]

theorem changeState_sessions (target : ModState) (reason : Nat) (s : State) :
    (changeState target reason s).host.sessions = s.host.sessions :=
  logJ_sessions _ _ _ s

/-! ### Boot (R437 to R442) -/

/-- What the rest of a Boot leaves as `bootState` set it. -/
def bootView (s : State) : ModState × SbSt × ConsSt × List (Option Session) :=
  (s.pow.state, s.sb, s.cons, s.host.sessions)

theorem handshake_bootView (s : State) : bootView (handshake s) = bootView s := by
  unfold handshake
  split <;> rfl

theorem gnssBoot_bootView (s : State) : bootView (gnssBoot s) = bootView s := by
  have hlog (u : State) (code : Nat) (data : List Byte) : bootView (logJ 4 code data u) = bootView u := by
    unfold bootView
    rw [logJ_sessions, logJ_eq]
  unfold gnssBoot
  dsimp only
  split
  · rfl
  · exact hlog s _ _

theorem supplyEvent_bootView (input event value : Nat) (s : State) :
    bootView (supplyEvent input event value s) = bootView s := by
  have hsb : (supplyEvent input event value s).sb = s.sb := supplyEvent_only State.sb (fun _ _ _ => rfl) input event value s
  have hcons : (supplyEvent input event value s).cons = s.cons :=
    supplyEvent_only State.cons (fun _ _ _ => rfl) input event value s
  unfold bootView
  rw [supplyEvent_sessions, supplyEvent_pow, hsb, hcons]

theorem changeState_bootView (target : ModState) (reason : Nat) (s : State) :
    bootView (changeState target reason s) = (target, s.sb, s.cons, s.host.sessions) := by
  have hsb : (changeState target reason s).sb = s.sb := changeState_only State.sb (fun _ _ _ _ => rfl) target reason s
  have hcons : (changeState target reason s).cons = s.cons := changeState_only State.cons (fun _ _ _ _ => rfl) target reason s
  unfold bootView
  rw [changeState_sessions, changeState_pow, hsb, hcons]

/-- A Boot from power on, with its rails passing. -/
theorem bootFrom_power (home : Bool) (s : State) :
    bootView (bootFrom 0 home true true s) =
      (.boot, sbPowerUp true s,
        { stored := s.cons.stored, home := home, mramFull := s.cons.mramFull, mramSlot := s.cons.mramSlot }, 
        State.reset.host.sessions) := by
  have hhand : bootView (handshake (bootState 0 home true s)) = bootView (bootState 0 home true s) := handshake_bootView _
  simp only [bootView, Prod.mk.injEq] at hhand
  obtain ⟨_, hsb, hcons, hsessions⟩ := hhand
  have hboot (u : State) : bootView (if u.pow.chamRestored then supplyEvent 3 11 (u.pow.vbak.mv / 10) u else u) = bootView u :=
    look_ite (π := bootView) (supplyEvent_bootView _ _ _ u) rfl
  refine (hboot _).trans ((gnssBoot_bootView _).trans ((changeState_bootView _ _ _).trans ?_))
  exact congrArg (Prod.mk _) (congrArg₂ Prod.mk hsb (congrArg₂ Prod.mk hcons hsessions))

theorem updateRing_pow (s : State) : (updateRing s).pow = s.pow := updateRing_only State.pow (fun _ _ _ _ => rfl) s

theorem updateRing_bootOk (s : State) : (updateRing s).cons.bootOk = s.cons.bootOk := by
  unfold updateRing
  dsimp only
  split
  · rfl
  · rw [logJ_eq]
    rfl

theorem bootReady_leaves (b : BootOut) (s : State) :
    (bootReady b s).pow.state = .ready ∧ (bootReady b s).pow.watchdog = 0 ∧
    (bootReady b s).cons.bootOk = (b.lanesOk.list.all id && b.badIslands.isEmpty && b.gnssOk) := by
  have hcons (u : State) : (changeState .ready 7 u).cons = u.cons := changeState_only State.cons (fun _ _ _ _ => rfl) .ready 7 u
  unfold bootReady
  dsimp only
  rw [updateRing_pow, updateRing_bootOk, changeState_pow, hcons]
  exact ⟨rfl, rfl, rfl⟩

/-! ### Stored replies (R374, R375) -/

theorem chargeEgress_sessions (w : Waiting) (s : State) : (chargeEgress w s).2.host.sessions = s.host.sessions := by
  unfold chargeEgress
  split <;> rfl

theorem chargeRing_sessions (w : Waiting) (s : State) : (chargeRing w s).2.host.sessions = s.host.sessions := by
  unfold chargeRing
  split <;> rfl

theorem transmit_sessions (o : OutPkt) (s : State) : (transmit o s).host.sessions = s.host.sessions := by
  have hvec (u : State) : (assertQueueVec o.queue u).host.sessions = u.host.sessions := by
    unfold assertQueueVec
    split <;> rfl
  unfold transmit
  split
  · rfl
  · dsimp only
    split <;> exact hvec _

theorem sendReply_sessions (o : OutPkt) (s : State) : (sendReply o s).host.sessions = s.host.sessions := by
  have hsent (r : Bool × State) (hr : r.2.host.sessions = s.host.sessions) : (if !fitsFrame s o then s
      else if r.1 then transmit o r.2
      else { r.2 with host.waitPkts := r.2.host.waitPkts ++ [o] }).host.sessions = s.host.sessions := by
    split
    · rfl
    · split
      · exact (transmit_sessions o r.2).trans hr
      · exact hr
  refine hsent _ ?_
  split
  · exact chargeEgress_sessions _ _
  · rfl
  · exact chargeRing_sessions _ _

theorem startRing_sessions (w : Waiting) (s : State) : (startRing w s).host.sessions = s.host.sessions := by
  unfold startRing
  split
  · dsimp only
    split <;> rfl
  · rfl

theorem sendOut_sessions (o : OutPkt) (s : State) : (sendOut o s).host.sessions = s.host.sessions := by
  unfold sendOut
  split
  · exact sendReply_sessions o s
  · unfold sendRaw
    dsimp only
    split
    · exact chargeEgress_sessions _ _
    · exact chargeEgress_sessions _ _
  · unfold sendRing
    dsimp only
    split
    · exact (startRing_sessions _ _).trans (chargeRing_sessions _ _)
    · exact chargeRing_sessions _ _

/-- The sending of a reply takes nothing from a session. -/
theorem emitReply_sessions (o : OutPkt) (s : State) : (emitReply o s).host.sessions = s.host.sessions := by
  unfold emitReply
  dsimp only
  split
  · exact sendOut_sessions _ _
  · rfl

theorem sessions_onSession {k : Nat} {x : Session} {s : State} (f : Session → Session)
    (h : s.host.sessions.getD k none = some x) : (onSession k f s).host.sessions.getD k none = some (f x) := by
  rw [List.getD_eq_getElem?_getD] at h ⊢
  cases hk : s.host.sessions[k]? with
  | none => rw [hk] at h; exact absurd h nofun
  | some y =>
    rw [hk] at h
    obtain rfl : y = some x := h
    simp [onSession, hk]

/-- A change of slots that keeps their tags is met by the first slot of a tag. -/
theorem slotOf_map {x : Session} {tag : Nat} {t : Slot} {f : Slot → Slot} (htag : ∀ r : Slot, (f r).tag = r.tag)
    (h : slotOf x tag = some t) : slotOf { x with slots := x.slots.map f } tag = some (f t) := by
  have hpred : ((fun r : Slot => r.tag == tag) ∘ f) = fun r => r.tag == tag := funext fun r => by simp [htag]
  unfold slotOf at h ⊢
  rw [List.find?_map, hpred, h]
  rfl

/-- What the answer of a command makes of one slot of its session. -/
def answerSlot (p : Packet) (d : Done) (t : Slot) : Slot :=
  if t.tag == p.tag && t.sequence == p.sequence && !t.done then
    { tag := p.tag, opcode := p.opcode, status := d.status, reads := if d.status == 2 || noReply p then 0 else 1,
      result := if d.status == 2 then [] else d.result, noReply := noReply p, queue := p.queue, sequence := p.sequence,
      done := !(d.status == 2) }
  else t

theorem storeAndReply_sessions (k : Nat) (p : Packet) (d : Done) :
    (storeAndReply k p d).host.sessions =
      (onSession k (fun x => { x with slots := x.slots.map (answerSlot p d) }) d.state).host.sessions := by
  unfold storeAndReply
  dsimp only
  split
  · rfl
  · exact emitReply_sessions _ _

end Sys2Proof.Machine

namespace Sys2Proof.Claims

open Sys2Proof.Machine

/-- Settles O57: each conjunct is a value of `State.reset`. -/
theorem resetLeaves : Obligations.ResetLeaves := by
  refine ⟨rfl, rfl, rfl, rfl, rfl, rfl, rfl, rfl, rfl, by decide, by decide, by decide, rfl, ?_, rfl, rfl⟩
  intro _
  exact ⟨rfl, rfl, rfl, rfl⟩

/-- Settles O45: what the commands write stands below the records and vectors that report it. -/
theorem suppliesAreJudged : Obligations.SuppliesAreJudged := by
  refine ⟨?measured, ?due, ?validA, ?validB, ?invalidA, ?invalidB, ?vbak, ?plate, ?fail, ?failDark, ?backup, ?off, ?second,
    ?copy, ?collapse⟩
  case measured => exact fun i ev mv s hno => next_if_pos (by simp [hno])
  case due =>
    rintro i ev mv s u hdue rfl
    exact ⟨fun hcode => execSupplyChange_of_code_none hdue hcode, fun e hcode => execSupplyChange_of_code_some hdue hcode⟩
  case validA =>
    intro mv s hno hmv
    refine ⟨_, execSupplyChange_logged (by simp [supplyDue, supplyOf, isLogicIn, hno, hmv]) (.inl rfl) rfl, ?_⟩
    rw [rideThrough_pow, supplyEvent_pow]
    exact ⟨rfl, rfl⟩
  case validB =>
    intro mv s hno hmv
    refine ⟨_, execSupplyChange_logged (by simp [supplyDue, supplyOf, isLogicIn, hno, hmv]) (.inl rfl) rfl, ?_⟩
    rw [rideThrough_pow, supplyEvent_pow]
    exact ⟨rfl, rfl⟩
  case invalidA =>
    intro mv s hwas hmv
    refine ⟨_, execSupplyChange_logged (by simp [supplyDue, supplyOf, isLogicIn, hwas, hmv]) (.inr rfl) rfl, ?_⟩
    rw [rideThrough_pow, supplyEvent_pow]
    exact ⟨rfl, rfl, rfl⟩
  case invalidB =>
    intro mv s hwas hmv
    refine ⟨_, execSupplyChange_logged (by simp [supplyDue, supplyOf, isLogicIn, hwas, hmv]) (.inr rfl) rfl, ?_⟩
    rw [rideThrough_pow, supplyEvent_pow]
    exact ⟨rfl, rfl, rfl⟩
  case vbak =>
    intro mv s halive hdue
    refine ⟨_, next_if_pos (by simp [halive, hdue]), ?_⟩
    rw [testVbak_pow]
    exact ⟨rfl, rfl⟩
  case plate =>
    intro temp s halive
    refine ⟨_, next_if_neg (by simp [halive]), ?_⟩
    dsimp only
    split
    · rw [supplyEvent_pow]
      exact ⟨rfl, rfl, rfl⟩
    · exact ⟨rfl, rfl, rfl⟩
  case fail =>
    intro s hon halive hno hA hB
    refine ⟨_, (next_if_neg (by simp [hon, hno, hA, hB])).trans (next_if_neg (by simpa [dieAlive] using halive)), ?_⟩
    have hpow (u : State) : (assertVec 40 (flushAll u)).pow = u.pow := flushAll_pow u
    have hdisp (u : State) : (assertVec 40 (flushAll u)).disp = u.disp := flushAll_disp u
    rw [hpow, hdisp, logJ_eq]
    exact ⟨rfl, rfl, rfl, rfl, rfl⟩
  case failDark =>
    intro s hon hdark hno hA hB
    exact (next_if_neg (by simp [hon, hno, hA, hB])).trans (next_if_pos (by simpa [dieAlive] using hdark))
  case backup =>
    intro atThreshold s hon hfail hwhen hvbak
    obtain ⟨hlatch, hsec⟩ := lastWork_chamois .backup s
    refine ⟨_, (next_if_pos (by simpa [hon, hfail] using hwhen)).trans (by rw [if_pos hvbak]), rfl, fun h => ?_, fun h => ?_,
      rfl, rfl⟩
    · exact (if_pos (by rw [hlatch, h]; rfl)).trans hsec
    · exact if_neg (by rw [hlatch, h]; decide)
  case off =>
    intro atThreshold s hon hfail hwhen hvbak
    refine ⟨_, (next_if_pos (by simpa [hon, hfail] using hwhen)).trans (by rw [if_neg (not_le.mpr hvbak)]), rfl, ?_, ?_⟩
    · exact Bool.and_false _
    · exact if_neg (by rw [Bool.and_eq_true]; exact fun h => absurd h.2 (by decide))
  case second => exact fun s h => next_if_pos h
  case copy =>
    rintro s r halive hdue rfl
    exact next_if_pos (by simp [halive, hdue])
  case collapse => exact fun s hstate hA hB => next_if_pos (by simp [hstate, hA, hB])

/-- Settles O46: the guard of each command; a Boot leaves what `bootState` and `bootReady` set. -/
theorem moduleStatesFollowTheirEvents : Obligations.ModuleStatesFollowTheirEvents := by
  refine ⟨?start, ?started, ?ready, ?junction, ?lanes, ?layover, ?lanesOff, ?reset, ?released, ?again, ?dead, ?restart⟩
  case start =>
    exact fun b s hoff hvalid => next_if_pos (by simpa [hoff] using hvalid)
  case started =>
    intro b s hoff hvalid hrails
    have hview := bootFrom_power b.home s
    simp only [bootView, Prod.mk.injEq] at hview
    obtain ⟨hstate, hsb, hcons, hsessions⟩ := hview
    refine ⟨bootFrom 0 b.home true true s, (next_if_pos (by simpa [hoff] using hvalid)).trans (by rw [hrails]), hstate, ?_, ?_, ?_, hsessions⟩
    · rw [hsb]; rfl
    · rw [hsb]; rfl
    · rw [hcons]
  case ready =>
    exact fun b s hstate hkind hrails hrst hjunction htwo =>
      ⟨_, (next_if_pos (by simp [hstate, hkind, hrails, hrst])).trans ((next_if_neg (by simp [hjunction])).trans
        (next_if_neg (not_lt.mpr htwo))), bootReady_leaves b _⟩
  case junction =>
    exact fun b s hstate hkind hrails hrst hjunction =>
      (next_if_pos (by simp [hstate, hkind, hrails, hrst])).trans (next_if_pos (by simp [hjunction]))
  case lanes =>
    exact fun b s hstate hkind hrails hrst hjunction hfew =>
      (next_if_pos (by simp [hstate, hkind, hrails, hrst])).trans ((next_if_neg (by simp [hjunction])).trans
        (next_if_pos hfew))
  case layover =>
    exact fun s hstate hrole hbound => next_if_pos (by rcases hrole with h | h <;> simp [hstate, h, hbound])
  case lanesOff =>
    exact fun s hstate hdue hrun hbound => next_if_pos (by simp [hstate, hdue, hrun, hbound])
  case reset =>
    intro lowUs s hlow hon hrst hdead
    exact ⟨_, next_if_neg (by simp [not_lt.mpr hlow, hon, hrst, hdead]), rfl, rfl, rfl, rfl, rfl⟩
  case released => exact fun railsOk s hstate hrst => next_if_pos (by simp [hstate, hrst])
  case again =>
    exact fun railsOk s hstate hkind hrst hdead hlate hfew =>
      (next_if_pos (by simpa [hstate, hkind, hrst, hdead] using hlate)).trans (next_if_pos hfew)
  case dead =>
    exact fun railsOk s hstate hkind hrst hdead hlate hmany =>
      (next_if_pos (by simpa [hstate, hkind, hrst, hdead] using hlate)).trans (next_if_neg (not_lt.mpr hmany))
  case restart =>
    exact fun s hstate hrestart hheld hfew => next_if_pos (by simp [hstate, hrestart, hheld, hfew])

/-- Settles O47: the slot of the tag is the one that waits for this sequence number, and the reply sent after it takes
nothing from the session. -/
theorem repliesAreStored : Obligations.RepliesAreStored := by
  intro k p d x t hfinal hsession hslot hseq hopen
  have hpend : (d.status == 2) = false := by simpa using hfinal
  have htag : t.tag = p.tag := by simpa using List.find?_some hslot
  have hmeets : (t.tag == p.tag && t.sequence == p.sequence && !t.done) = true := by simp [htag, hseq, hopen]
  refine ⟨_, answerSlot p d t, ?_, slotOf_map (f := answerSlot p d) (fun r => ?_) hslot, ?_⟩
  · rw [storeAndReply_sessions]
    exact sessions_onSession _ hsession
  · unfold answerSlot
    split
    · simp_all
    · rfl
  · rw [answerSlot, if_pos hmeets, hpend]
    exact ⟨rfl, rfl, rfl, rfl, rfl⟩

end Sys2Proof.Claims

end

section
/-! Command packets (chapter 12): a packet that passes the checks runs its opcode, and the answers of the system and image
commands. -/

namespace Sys2Proof.Machine

open Sys2Proof.Claims

/-! ### The checks of a packet (Table 12-4) -/

theorem runChecks_pass {spec : OpSpec} {p : Packet} {u : State} {k auth : Nat} (hqueue : p.queue < 32) (hflags : p.flags < 4)
    (hsource : ∀ q i n, p.src = .pcie q i n → q = p.queue) (hauth : max (spec.auth p) (spec.authNow u p) ≤ auth)
    (hrole : roleOk spec u p = true) (hlen : spec.len u p = true) (hserved : servedNow u p = true) :
    runChecks (some spec) k auth p u = spec.run k p u := by
  have hflag : p.flags.testBit 2 = false := Nat.testBit_lt_two_pow hflags
  have hown : (match p.src with
      | .pcie q _ _ => q != p.queue
      | _ => false) = false := by
    split
    case h_1 q i n hsrc => simp [hsource q i n hsrc]
    case h_2 => rfl
  have hfields : ¬ (decide (32 ≤ p.queue) || decide (8 ≤ p.flags) || (p.flags.testBit 2 && p.opcode != 0x0103) ||
      (match p.src with
        | .pcie q _ _ => q != p.queue
        | _ => false)) = true := by
    have hlow : ¬ 8 ≤ p.flags := by omega
    rw [hown, hflag, decide_eq_false (not_le.mpr hqueue), decide_eq_false hlow]
    simp
  exact (if_neg hfields).trans ((if_neg (not_lt.mpr hauth)).trans ((if_neg (by simp [hrole])).trans
    ((if_neg (by simp [hlen])).trans (if_neg (by simp [hserved])))))

theorem runChecks_taken {spec : OpSpec} {p : Packet} {s u : State} {k : Nat} {x : Session} (h : Taken spec p s k x u) :
    runChecks (some spec) k x.authority p u = spec.run k p u :=
  runChecks_pass h.queue h.flags h.source h.authority h.role h.length h.served

theorem limitReply_fits {maxPacket : Nat} {before : State} {d : Done} (h : 24 + d.result.length ≤ maxPacket)
    (hbody : d.result.length ≤ 4076) : limitReply maxPacket before d = d :=
  if_neg (by simp only [Bool.or_eq_true, decide_eq_true_eq]; omega)

/-- A packet taken by its session answers what its opcode means (R368, R373). -/
theorem processPacket_taken {spec : OpSpec} {p : Packet} {s u : State} {k : Nat} {x : Session} {d : Done}
    (h : Taken spec p s k x u) (hrun : spec.run k p u = d) (hfits : 24 + d.result.length ≤ x.maxPacket)
    (hbody : d.result.length ≤ 4076) :
    processPacket (some spec) p s =
      if slotless p.opcode then replyNoSlot p d p.session d.state else storeAndReply k p d := by
  have hdone : limitReply x.maxPacket u (runChecks (some spec) k x.authority p u) = d := by
    rw [runChecks_taken h, hrun, limitReply_fits hfits hbody]
  obtain ⟨v, hv, hslot⟩ := h.state
  have hmono : v.mono = s.mono := by rw [hv, onSession_mono]
  have hup : ¬ (!junctionUp s) = true := by simp [h.up]
  rw [processPacket, if_neg hup, if_neg h.inSession]
  simp only [h.session, if_neg (not_le.mpr h.newer)]
  rw [← hv]
  rcases hslot with ⟨hless, rfl⟩ | ⟨hslotted, y, rfl, htake⟩
  · simp only [hless, if_true, hdone]
  · simp only [hslotted, Bool.false_eq_true, if_false, hmono, htake, hdone]

theorem packet_opcode {p : Packet} {op : Nat} (h : p.opcode = op) : { p with opcode := op } = p := by
  rw [← h]

/-- A row of Table 12-18 completes as its meaning does in the form named. -/
theorem answers_of_run {c : Packet → Instr} {op : Nat} {spec : OpSpec} {ok : Nat → Packet → State → Prop}
    {done : Nat → Packet → State → Done}
    (hexec : ∀ p s, exec (c p) s = .next (processPacket (some spec) { p with opcode := op } s))
    (hrun : ∀ k p u, spec.len u p = true → ok k p u → spec.run k p u = done k p u) : Answers c op spec ok done := by
  intro p s k x u hop htaken hok hfits hbody
  rw [hexec, packet_opcode hop, processPacket_taken htaken (hrun k p u htaken.length hok) hfits hbody, hop]

/-- OPEN_SESSION without authentication, outside a session, takes the first free one (R369, R370). -/
theorem openSession_run {p : Packet} {s : State} {j : Nat} (k : Nat) (hflags : p.flags < 4) (hlevel : fieldByte p.payload 0 ≤ 2)
    (hname : fieldByte p.payload 1 ≤ 4) (hpacket : fieldNat p.payload 2 2 = 0) (htime : fieldNat p.payload 4 2 = 0)
    (hnew : sameOpen s (fieldNat p.payload 8 8) p.src = none) (hfree : freeSession s = some j) :
    openSessionSpec.run k p s =
      let x := newSession s j p
      let v := { s with
        host.sessions := s.host.sessions.set j (some x)
        host.nonces := s.host.nonces.filter (fun n => decide (s.mono < n.2 + 60000)) }
      { status := 0, result := openResult v j x
        state := logJ 12 1 (leBytes 1 j ++ leBytes 1 1 ++ leBytes 1 x.authority ++ fitBytes 16 x.name) v } := by
  have hflag : p.flags.testBit 2 = false := Nat.testBit_lt_two_pow hflags
  simp only [openSessionSpec, hpacket, htime, hnew, hfree, hflag]
  exact (if_neg (by simp [not_lt.mpr hlevel, not_lt.mpr hname])).trans ((if_neg (by simp)).trans (if_neg (by simp)))

theorem processPacket_open {p : Packet} {s : State} {d : Done} (hup : junctionUp s = true)
    (hop : p.opcode = 0x0103) (hout : p.session = 0) (hqueue : p.queue < 32) (hflags : p.flags < 4)
    (hsource : ∀ q i n, p.src = .pcie q i n → q = p.queue) (hlen : p.payload.length = 40)
    (hgranted : levelGranted s p = true) (hrun : openSessionSpec.run 255 p s = d) (hfits : d.result.length ≤ 4076) :
    processPacket (some openSessionSpec) p s = replyNoSlot p d 0 d.state := by
  have hflag : p.flags.testBit 2 = false := Nat.testBit_lt_two_pow hflags
  have hdone : limitReply 4100 s (runChecks (some openSessionSpec) 255 0 p s) = d := by
    rw [runChecks_pass hqueue hflags hsource (by simp [openSessionSpec, hgranted]) (by simp [roleOk, openSessionSpec])
      (by simp [openSessionSpec, hflag, hlen]) (by simp [servedNow, systemOpcode, hop]), hrun,
      limitReply_fits (by omega) hfits]
  have hgo : ¬ (!junctionUp s) = true := by simp [hup]
  rw [processPacket, if_neg hgo, if_pos hout, if_pos (by rw [hop]; rfl)]
  simp only [hdone, hout]

end Sys2Proof.Machine

namespace Sys2Proof.Claims

open Sys2Proof.Machine

/-- Every row of the table is the command of its opcode. -/
theorem opRows_exec : ∀ r ∈ opRows, ∀ p s, exec (r.cmd p) s = .next (processPacket (some r.spec) { p with opcode := r.op } s) := by
  unfold opRows opRows1 opRows2
  simp only [List.cons_append, List.nil_append]
  repeat refine List.forall_mem_cons.mpr ⟨fun _ _ => rfl, ?_⟩
  exact List.forall_mem_nil _

/-- Settles O48: the rows are commands on `processPacket`, which goes through its checks and the session. -/
theorem everyPacketRunsItsOpcode : Obligations.EveryPacketRunsItsOpcode := by
  refine ⟨?rows, ?packet, ?unknown, ?stale⟩
  case rows => exact fun r hr => answers_of_run (opRows_exec r hr) (fun _ _ _ _ _ => rfl)
  case packet =>
    intro spec p s k x u hspec htaken hfits hbody
    rw [processOne, hspec, processPacket_taken htaken rfl hfits hbody]
  case unknown =>
    intro p s k x y hnone hup hin hsession hnew hfits hslotted htake
    have hgo : ¬ (!junctionUp s) = true := by simp [hup]
    rw [processOne, hnone, processPacket, if_neg hgo, if_neg hin]
    simp only [hsession, if_neg (not_le.mpr hnew), hslotted, Bool.false_eq_true, if_false, onSession_mono, htake, runChecks]
    rw [limitReply_fits hfits (Nat.zero_le _)]
  case stale =>
    intro p s k x hup hin hsession hold
    have hgo : ¬ (!junctionUp s) = true := by simp [hup]
    rw [processOne, processPacket, if_neg hgo, if_neg hin]
    simp only [hsession, if_pos hold]

/-- Settles O49: the meaning of each opcode in the form named, and a session opened outside a session. -/
theorem systemCommandsAnswer : Obligations.SystemCommandsAnswer := by
  refine ⟨?ping, ?identity, ?opened, ?closed, ?result, ?ack, ?state, ?mode⟩
  case ping => exact answers_of_run (fun _ _ => rfl) (fun _ _ _ _ _ => rfl)
  case identity => exact answers_of_run (fun _ _ => rfl) (fun _ _ _ _ _ => rfl)
  case opened =>
    rintro p s j x v hup hop hout hqueue hflags hsource hlen hlevel hname hpacket htime hgranted hnew hfree rfl rfl hfits
    refine ⟨_, rfl, ?_⟩
    have hself : { p with opcode := 0x0103 } = p := packet_opcode hop
    rw [exec, execOpenSession, hself]
    exact congrArg Host.Outcome.next (processPacket_open hup hop hout hqueue hflags hsource hlen hgranted
      (openSession_run 255 hflags hlevel hname hpacket htime hnew hfree) hfits)
  case closed => exact answers_of_run (fun _ _ => rfl) (fun _ _ _ _ _ => rfl)
  case result =>
    refine fun r => answers_of_run (fun _ _ => rfl) fun k p u _ hok => ?_
    obtain ⟨hslot, hdone⟩ := hok
    simp only [getResultSpec, hslot]
    exact if_neg (by simp [hdone])
  case ack =>
    refine fun x => answers_of_run (fun _ _ => rfl) fun k p u _ hok => ?_
    obtain ⟨hlow, hhigh, hsession⟩ := hok
    simp only [ackResultSpec, hsession]
    exact if_neg (by simp only [Bool.or_eq_true, decide_eq_true_eq]; omega)
  case state => exact answers_of_run (fun _ _ => rfl) (fun _ _ _ _ _ => rfl)
  case mode =>
    refine answers_of_run (fun _ _ => rfl) fun k p u _ hok => ?_
    obtain ⟨hlow, hactive, hmet, hnew⟩ := hok
    have hfive : fieldByte p.payload 0 ≠ 5 := by omega
    exact (if_neg (by omega)).trans ((if_neg (by simp [hfive])).trans ((if_neg (by simp [hactive, hmet])).trans
      (if_neg (by simp [hnew]))))

/-- Settles O50: the meaning of each opcode in the form named. -/
theorem imageCommandsAnswer : Obligations.ImageCommandsAnswer := by
  refine ⟨?begin, ?chunk, ?commit, ?info⟩
  case begin =>
    refine answers_of_run (fun _ _ => rfl) fun k p u _ hok => ?_
    obtain ⟨hlow, hhigh, hcommit, hnone⟩ := hok
    simp only [imageBeginSpec, hcommit, hnone]
    exact (if_neg (by simp only [Bool.or_eq_true, decide_eq_true_eq]; omega)).trans (if_neg (by simp))
  case chunk =>
    refine fun x => answers_of_run (fun _ _ => rfl) fun k p u _ hok => ?_
    obtain ⟨htransfer, hsession, hcommit, hoff, hlow, hhigh, hroom⟩ := hok
    have hlen : (p.payload.drop 8).length = p.payload.length - 8 := List.length_drop
    simp only [imageChunkSpec, htransfer, hsession, hcommit, hoff, hlen]
    exact (if_neg (by simp only [Bool.or_eq_true, decide_eq_true_eq]; omega)).trans ((if_neg (by simp)).trans
      ((if_neg (by simpa using hroom)).trans (if_neg (by simp))))
  case commit =>
    refine answers_of_run (fun _ _ => rfl) fun k p u _ hok => ?_
    obtain ⟨hhere, hcommit, x, htransfer, hsession⟩ := hok
    simp only [imageCommitSpec, htransfer, hcommit]
    exact (if_neg (by rcases hhere with h | h | h | h <;> simp [h])).trans ((if_neg (by simp)).trans
      (if_neg (by simp [hsession])))
  case info => exact answers_of_run (fun _ _ => rfl) (fun _ _ _ _ _ => rfl)

end Sys2Proof.Claims

end

section
/-! The answers of the commands of references, control and allocation (chapters 05 to 08). -/

namespace Sys2Proof.Machine

open Sys2Proof.Claims

theorem bitsOf_zero (n : Nat) : bitsOf n 0 = [] := by
  simp [bitsOf]

/-- A capture read that asks for no signal (R228). -/
theorem captureRead_run {k : Nat} {p : Packet} {u : State} (hmask : fieldByte p.payload 0 = 0) :
    captureReadSpec.run k p u =
      let c := u.ctl.inj
      let rows := ((c.samples.reverse).drop (fieldNat p.payload 2 2)).take (fieldNat p.payload 4 2)
      { status := 0
        result := leBytes 1 c.capState ++ leBytes 1 c.reason ++ leBytes 2 rows.length ++ leBytes 4 c.samples.length ++
          leBytes 4 c.trigger ++ leBytes 4 c.trigFrame ++ leBytes 2 c.decim ++ leBytes 1 0 ++ zeros 1 ++
          ((List.range 8).map (fun k => f32Bytes (match c.sigs[k]? with
            | some g => if g.2.2.2 = 0 then 0 else capScale u g
            | none => 0))).flatten ++ zeros 4 ++ (rows.map (fun _ => [])).flatten
        state := u } := by
  simp only [captureReadSpec, hmask, bitsOf_zero, List.filter_nil, List.length_nil, Nat.mul_zero, List.map_nil, List.flatten_nil]
  refine (if_neg (by decide)).trans ?_
  congr! 7 with i
  obtain hnone | ⟨g, hsome⟩ := Option.eq_none_or_eq_some (u.ctl.inj.sigs[i]?)
  · simp only [hnone]
  · by_cases hscale : g.2.2.2 = 0 <;> simp [hsome, hscale]

end Sys2Proof.Machine

namespace Sys2Proof.Claims

open Sys2Proof.Machine

/-- Settles O51: the meaning of each opcode in the form named. -/
theorem referenceCommandsAnswer : Obligations.ReferenceCommandsAnswer := by
  refine ⟨?enable, ?status, ?lever, ?freeze, ?tracks, ?fusion, ?grid, ?resolve, ?setpoint⟩
  case enable =>
    have hrun (on : Bool) (k : Nat) (p : Packet) (u : State) (hkind : fieldByte p.payload 0 ≤ 1)
        (hindex : fieldByte p.payload 1 ≤ (if fieldByte p.payload 0 = 1 then 23 else 15))
        (hdef : unitDefined u (fieldByte p.payload 0 = 1) (fieldByte p.payload 1) = true)
        (hnew : (unitOf u (fieldByte p.payload 0 = 1) (fieldByte p.payload 1)).enabled ≠ on) :
        (refSetSpec on).run k p u = { status := 1
                                      result := leBytes 1 (fieldByte p.payload 0) ++ leBytes 1 (fieldByte p.payload 1) ++
                                        leBytes 1 (unitOf u (fieldByte p.payload 0 = 1) (fieldByte p.payload 1)).state.code ++
                                        zeros 1 ++ leBytes 4 (effectFrame u)
                                      state := defer (.refSet (fieldByte p.payload 0 = 1) (fieldByte p.payload 1) on) u } := by
      refine (if_neg ?_).trans (if_neg ?_)
      · simp only [hdef, not_lt.mpr hkind, Bool.or_eq_true, decide_eq_true_eq, Bool.not_true, Bool.false_eq_true, or_false,
          false_or, not_lt]
        simpa using hindex
      · simp only [hnew, decide_false, Bool.false_and]
        exact nofun
    intro on
    cases on with
    | false => exact answers_of_run (fun _ _ => rfl) (fun k p u _ hok => hrun _ k p u hok.1 hok.2.1 hok.2.2.1 hok.2.2.2)
    | true => exact answers_of_run (fun _ _ => rfl) (fun k p u _ hok => hrun _ k p u hok.1 hok.2.1 hok.2.2.1 hok.2.2.2)
  case status =>
    refine answers_of_run (fun _ _ => rfl) fun k p u _ hok => ?_
    obtain ⟨hkind, hdef⟩ := hok
    exact (if_neg (by omega)).trans (if_neg (by simp [hdef, not_lt.mpr hkind]))
  case lever =>
    refine answers_of_run (fun _ _ => rfl) fun k p u _ hok => ?_
    obtain ⟨hone, hdef⟩ := hok
    exact (if_neg hone).trans (if_neg (by simp [hdef]))
  case freeze =>
    refine fun v => answers_of_run (fun _ _ => rfl) fun k p u _ hok => ?_
    obtain ⟨hdef, hop, rfl, hzero, hfive, hnew⟩ := hok
    refine (if_neg ?_).trans (if_neg ?_)
    · simp only [hdef, hzero, hfive, not_lt.mpr hop]
      decide
    · rw [hnew]
      exact nofun
  case tracks =>
    refine answers_of_run (fun _ _ => rfl) fun k p u _ hok => ?_
    obtain ⟨hlow, hhigh⟩ := hok
    exact if_neg (by simp only [Bool.or_eq_true, decide_eq_true_eq]; omega)
  case fusion => exact answers_of_run (fun _ _ => rfl) (fun _ _ _ _ _ => rfl)
  case grid =>
    refine answers_of_run (fun _ _ => rfl) fun k p u _ hok => ?_
    obtain ⟨hrow, hrows, hcol, hcols, hfull, hflags, hbottom, hright⟩ := hok
    have hcells : fieldByte p.payload 4 * fieldByte p.payload 5 ≤ 44 * 44 := Nat.mul_le_mul hrows hcols
    simp only [gridSnapshotSpec, hfull, hflags, Nat.zero_testBit, Bool.false_eq_true, if_false]
    refine if_neg ?_
    simp only [Bool.or_eq_true, decide_eq_true_eq]
    have hone : ([1, 2, 4, 8, 16].contains 1) = true := by decide
    simp only [hone, Bool.not_true, Bool.false_eq_true, or_false]
    omega
  case resolve =>
    refine answers_of_run (fun _ _ => rfl) fun k p u _ hok => ?_
    obtain ⟨hone, hdef⟩ := hok
    simp only [conflictResolveSpec, hone, hdef]
    exact if_neg (by simp)
  case setpoint =>
    refine fun n e v r => answers_of_run (fun _ _ => rfl) fun k p u _ hok => ?_
    obtain ⟨hkind, hflags, hn, he, hv, hr, hv0, hv2, hr0⟩ := hok
    simp only [setpointSetSpec, hkind, hflags, hn, he, hv, hr, Nat.zero_testBit, Bool.false_eq_true, if_false, if_true]
    exact (if_neg (by decide)).trans ((if_neg (by simp [not_lt.mpr hv0, not_lt.mpr hv2, not_lt.mpr hr0])).trans (if_neg (by simp)))

/-- Settles O52: the meaning of each opcode in the form named. -/
theorem controlCommandsAnswer : Obligations.ControlCommandsAnswer := by
  refine ⟨?write, ?swap, ?inject, ?capture, ?repetitive, ?status, ?enable, ?disable, ?mode, ?body⟩
  case write =>
    refine answers_of_run (fun _ _ => rfl) fun k p u _ hok => ?_
    obtain ⟨hbank, hoff, hlen, hlow, hhigh, hend, hswap, hactive, hloop⟩ := hok
    simp only [loopBankWriteSpec, hswap]
    exact (if_neg (by simp [hoff, hlen]; omega)).trans ((if_neg (by simp)).trans (if_neg (by simp [hactive, hloop])))
  case swap =>
    refine answers_of_run (fun _ _ => rfl) fun k p u _ hok => ?_
    obtain ⟨hone, hbank, htick, hcrc, hkinds, haxis, hcomp, hloop, henv, hswap, hactive⟩ := hok
    simp only [loopBankSwapSpec, hone, hcrc, hkinds, haxis, hcomp, hloop, henv, hswap]
    exact (if_neg (by decide)).trans ((if_neg (by decide)).trans ((if_neg (by simp; omega)).trans ((if_neg (by simp)).trans
      ((if_neg (by simp)).trans ((if_neg (by simp)).trans (if_neg (by simp [hactive])))))))
  case inject =>
    refine fun j => answers_of_run (fun _ _ => rfl) fun k p u _ hok => ?_
    obtain ⟨hwave, htarget, hj, hrange, hbind, hcap, hfree, hallowed, hamp⟩ := hok
    simp only [injectStartSpec, hj, hrange, hfree, hallowed]
    have hbound : ¬((decide (j.target ≠ 2) && (loopBind u j.index j.slot).isNone) = true) := by
      rcases hbind with htwo | hsome
      · simp [htwo]
      · simp [← Option.not_isSome, hsome]
    have hclass : ¬((j.capture && !j.signals.all capClassOk) = true) := by
      cases hc : j.capture with
      | false => simp
      | true => rw [(hcap hc).1]; decide
    have hsig : ¬((j.capture && !j.signals.all capSigOk) = true) := by
      cases hc : j.capture with
      | false => simp
      | true => rw [(hcap hc).2]; decide
    have hlimit : ¬((decide (j.waveform ≠ 4) && decide (injLimit u j < absQ j.amplitude)) = true) := by
      rcases hamp with hfour | hle
      · simp [hfour]
      · simp [not_lt.mpr hle]
    exact (if_neg (by omega)).trans ((if_neg (by simp; omega)).trans ((if_neg (by decide)).trans ((if_neg hbound).trans
      ((if_neg hclass).trans ((if_neg hsig).trans ((if_neg (by decide)).trans ((if_neg (by decide)).trans (if_neg hlimit))))))))
  case capture =>
    exact answers_of_run (fun _ _ => rfl) (fun k p u _ hok => captureRead_run hok)
  case repetitive =>
    refine fun x => answers_of_run (fun _ _ => rfl) fun k p u _ hok => ?_
    obtain ⟨hone, haxes, haction, hsource, hperiod, hch, hlow, hhigh, hpulse, hchange⟩ := hok
    simp only [repetitiveSpec, hone, hperiod]
    have hrange : ¬((decide (7 < fieldByte p.payload 1) || (decide (127 < fieldByte p.payload 8) && decide (fieldByte p.payload 8 ≠ 255)) ||
        (decide (x ≠ 0) && (decide (x < 2) || decide (120 < x)))) = true) := by
      simp [not_lt.mpr haxes, not_lt.mpr hch, not_lt.mpr hlow, not_lt.mpr hhigh]
    have hinput : ¬((decide (fieldByte p.payload 3 = 1) && !pulseInput u (fieldByte p.payload 8)) = true) := by
      simpa using hpulse
    exact (if_neg (by decide)).trans ((if_neg (by decide)).trans ((if_neg (by simp; omega)).trans ((if_neg hrange).trans
      ((if_neg hinput).trans (if_neg (by simp [hchange]))))))
  case status => exact answers_of_run (fun _ _ => rfl) (fun _ _ _ _ _ => rfl)
  case enable =>
    refine answers_of_run (fun _ _ => rfl) fun k p u _ hok => ?_
    obtain ⟨hthr, ⟨c, hcfg, hlost⟩, hoff⟩ := hok
    simp only [thrusterEnableSpec, hcfg, hoff]
    exact (if_neg (by omega)).trans ((if_neg (by simp [hlost])).trans (if_neg (by simp)))
  case disable =>
    refine answers_of_run (fun _ _ => rfl) fun k p u _ hok => ?_
    obtain ⟨hthr, hcfg, hon⟩ := hok
    simp only [thrusterDisableSpec, hon]
    exact (if_neg (by omega)).trans ((if_neg (by simpa [Option.isSome_iff_ne_none] using hcfg)).trans (if_neg (by simp)))
  case mode =>
    refine answers_of_run (fun _ _ => rfl) fun k p u _ hok => ?_
    obtain ⟨hone, hpolicy, hnew⟩ := hok
    simp only [allocModeSpec, hone]
    exact (if_neg (by simp [hpolicy])).trans ((if_neg (by decide)).trans (if_neg (by simp [hnew])))
  case body =>
    refine answers_of_run (fun _ _ => rfl) fun k p u _ hok => ?_
    obtain ⟨hread, hbody⟩ := hok
    obtain ⟨c, hc⟩ := Option.isSome_iff_exists.mp hbody
    simp only [attachBodySetSpec, hread, hc]
    exact (if_neg (by decide)).trans (if_pos trivial)

end Sys2Proof.Claims

end

section
/-! The answers of the commands of channels, GNSS, time, signal box, consist, recorder, display and power (chapters 03, 04, 09
to 15). -/

namespace Sys2Proof.Claims

open Sys2Proof.Machine

/-- Settles O53: the meaning of each opcode in the form named. -/
theorem channelCommandsAnswer : Obligations.ChannelCommandsAnswer := by
  refine ⟨?config, ?status, ?read, ?hart, ?characteristic, ?filter, ?check⟩
  case config =>
    refine answers_of_run (fun _ _ => rfl) fun k p u _ hok => ?_
    obtain ⟨hone, hch, hrange, hcount, hdup, hout, hfree⟩ := hok
    have hform : ¬((decide (15 < fieldByte p.payload 28) ||
        decide ((cfgOfPayload p.payload (chanOf u (fieldByte p.payload 0)).cfg).mdAddr.eraseDups.length ≠
          (cfgOfPayload p.payload (chanOf u (fieldByte p.payload 0)).cfg).mdAddr.length) ||
        (isOut (cfgOfPayload p.payload (chanOf u (fieldByte p.payload 0)).cfg) &&
          !outChar (chanAsked u (fieldByte p.payload 0)).charac)) = true) := by
      rcases hout with hin | hchar
      · simp [not_lt.mpr hcount, hdup, hin]
      · simp [not_lt.mpr hcount, hdup, hchar]
    simp only [chanConfigSpec, hone, hrange, hfree]
    exact (if_neg (by decide)).trans ((if_neg (not_lt.mpr hch)).trans ((if_neg (by decide)).trans ((if_neg (by decide)).trans
      ((if_neg (by decide)).trans ((if_neg hform).trans (if_neg (by simp)))))))
  case status =>
    refine answers_of_run (fun _ _ => rfl) fun k p u _ hok => ?_
    obtain ⟨hlow, hhigh, hend⟩ := hok
    exact if_neg (by simp; omega)
  case read =>
    refine answers_of_run (fun _ _ => rfl) fun k p u _ hok => ?_
    obtain ⟨hzero, hch⟩ := hok
    simp only [chanReadSpec, hzero]
    exact (if_neg (by decide)).trans (if_neg (not_lt.mpr hch))
  case hart =>
    refine answers_of_run (fun _ _ => rfl) fun k p u _ hok => ?_
    obtain ⟨hone, hch, hpoll, hretry, hlen, hhart, hroom⟩ := hok
    simp only [hartTransactSpec, hone, hhart]
    exact (if_neg (by decide)).trans ((if_neg (by simp; omega)).trans ((if_neg (by decide)).trans ((if_neg (by simp)).trans
      (if_neg (not_le.mpr hroom)))))
  case characteristic =>
    refine answers_of_run (fun _ _ => rfl) fun k p u _ hok => ?_
    obtain ⟨hzero, hch⟩ := hok
    simp only [chanCharSpec, hzero]
    exact (if_neg (by simp)).trans ((if_neg (not_lt.mpr hch)).trans (if_pos trivial))
  case filter =>
    refine fun x => answers_of_run (fun _ _ => rfl) fun k p u _ hok => ?_
    obtain ⟨hone, hdc, hch, hdepth, htau, hlow, hhigh, hfree⟩ := hok
    have hrange : ¬((decide (8 < fieldByte p.payload 2) || (decide (x ≠ 0) && (decide (x < 1 / 10) || decide (1000 < x)))) = true) := by
      simp only [not_lt.mpr hdepth, not_lt.mpr hlow, not_lt.mpr hhigh, decide_false, Bool.or_self, Bool.and_false]
      decide
    simp only [filterConfigSpec, hone, htau, hfree]
    exact (if_neg (by simp; omega)).trans ((if_neg (not_lt.mpr hch)).trans ((if_neg (by decide)).trans
      ((if_neg hrange).trans (if_neg (by simp)))))
  case check =>
    refine answers_of_run (fun _ _ => rfl) fun k p u _ hok => ?_
    obtain ⟨hzero, hch, hpos, hmax, hmode, hallowed, hnone⟩ := hok
    simp only [complianceCheckSpec, hzero, hmode, hallowed, hnone, if_neg hpos.ne']
    exact (if_neg (by decide)).trans ((if_neg (by simp; omega)).trans ((if_neg (by decide)).trans ((if_neg (by decide)).trans
      (if_neg (by decide)))))

/-- Settles O54: the meaning of each opcode in the form named. -/
theorem gnssAndTimeCommandsAnswer : Obligations.GnssAndTimeCommandsAnswer := by
  refine ⟨?status, ?raw, ?corrections, ?mode, ?integrity, ?time, ?source, ?ptp, ?stamps, ?pps⟩
  case status => exact answers_of_run (fun _ _ => rfl) (fun _ _ _ _ _ => rfl)
  case raw =>
    refine fun r => answers_of_run (fun _ _ => rfl) fun k p u _ hok => ?_
    obtain ⟨hnewest, hheld, hlow, hhigh, hfirst⟩ := hok
    simp only [gnssRawSpec, hnewest, hheld, if_true]
    exact (if_neg (by simp; omega)).trans (if_neg (not_lt.mpr hfirst))
  case corrections =>
    refine answers_of_run (fun _ _ => rfl) fun k p u _ hok => ?_
    simp only [gnssCorrectionsSpec, hok]
    exact if_neg (by decide)
  case mode =>
    refine answers_of_run (fun _ _ => rfl) fun k p u _ hok => ?_
    obtain ⟨hone, hsel, hlow, hhigh, hrate, hmask⟩ := hok
    simp only [gnssModeSpec, hone, hrate]
    exact (if_neg (by decide)).trans ((if_neg (by decide)).trans (if_neg (by simp; omega)))
  case integrity => exact answers_of_run (fun _ _ => rfl) (fun _ _ _ _ _ => rfl)
  case time => exact answers_of_run (fun _ _ => rfl) (fun _ _ _ _ _ => rfl)
  case source =>
    refine answers_of_run (fun _ _ => rfl) fun k p u _ hok => ?_
    obtain ⟨hone, horder⟩ := hok
    simp only [timeSourceSpec, hone, horder]
    exact (if_neg (by decide)).trans ((if_neg (by decide)).trans (if_pos trivial))
  case ptp =>
    refine answers_of_run (fun _ _ => rfl) fun k p u _ hok => ?_
    obtain ⟨hone, hport, hgood⟩ := hok
    simp only [ptpConfigSpec, hone, hgood]
    exact (if_neg (by decide)).trans ((if_neg (by simp; omega)).trans ((if_neg (by decide)).trans ((if_neg (by omega)).trans
      (if_neg (by decide)))))
  case stamps =>
    refine fun q => answers_of_run (fun _ _ => rfl) fun k p u _ hok => ?_
    obtain ⟨hport, hlow, hhigh, rfl⟩ := hok
    exact if_neg (by simp; omega)
  case pps =>
    refine answers_of_run (fun _ _ => rfl) fun k p u _ hok => ?_
    obtain ⟨hone, htarget, henable, hpolarity, hlow, hhigh, hshort, hlong⟩ := hok
    simp only [ppsConfigSpec, hone, henable]
    exact (if_neg (by decide)).trans ((if_neg (by omega)).trans ((if_neg (by decide)).trans (if_neg (by simp; omega))))

/-- Settles O55: the meaning of each opcode in the form named. -/
theorem safetyAndConsistCommandsAnswer : Obligations.SafetyAndConsistCommandsAnswer := by
  refine ⟨?safety, ?limits, ?proof, ?consist, ?roll, ?transfer, ?lanes, ?reintegrate⟩
  case safety => exact answers_of_run (fun _ _ => rfl) (fun _ _ _ _ _ => rfl)
  case limits =>
    refine answers_of_run (fun _ _ => rfl) fun k p u _ hok => ?_
    obtain ⟨hsection, hsome, hlow, hhigh, hend⟩ := hok
    exact (if_neg (not_lt.mpr hsection)).trans ((if_neg (by simp; omega)).trans ((if_neg hsome).trans (if_neg (not_lt.mpr hend))))
  case proof =>
    refine answers_of_run (fun _ _ => rfl) fun k p u _ hok => ?_
    obtain ⟨hdone, hnever⟩ := hok
    simp only [proofStatusSpec, hdone, hnever]
    rfl
  case consist => exact answers_of_run (fun _ _ => rfl) (fun _ _ _ _ _ => rfl)
  case roll =>
    refine answers_of_run (fun _ _ => rfl) fun k p u _ hok => ?_
    obtain ⟨hcheck, hnone⟩ := hok
    simp only [rollCallSpec, hcheck, hnone]
    exact (if_neg (by decide)).trans ((if_neg (by simp)).trans (if_neg (by decide)))
  case transfer =>
    refine answers_of_run (fun _ _ => rfl) fun k p u _ hok => ?_
    obtain ⟨htarget, hstart, hphase, hfree, hready, hrun, hactive⟩ := hok
    simp only [transferLeadSpec, htarget, hstart, hphase, hfree, hready, hrun, hactive, if_true]
    exact (if_neg (by decide)).trans ((if_neg (by decide)).trans ((if_neg (by decide)).trans ((if_neg (by decide)).trans
      (if_neg (by simp)))))
  case lanes => exact answers_of_run (fun _ _ => rfl) (fun _ _ _ _ _ => rfl)
  case reintegrate =>
    refine answers_of_run (fun _ _ => rfl) fun k p u _ hok => ?_
    obtain ⟨hop, hlow, hhigh, hopen⟩ := hok
    exact (if_neg (not_lt.mpr hop)).trans ((if_neg (by simp; omega)).trans (if_neg (by simp [hopen])))

theorem logJ_tt (source code : Nat) (data : List Byte) (s : State) : (logJ source code data s).tt = s.tt := by
  rw [logJ_eq]

/-- Settles O56: the meaning of each opcode in the form named. -/
theorem serviceCommandsAnswer : Obligations.ServiceCommandsAnswer := by
  refine ⟨?block, ?info, ?clear, ?mark, ?region, ?display, ?config, ?power, ?mode, ?timetable, ?counters⟩
  case block =>
    refine answers_of_run (fun _ _ => rfl) fun k p u _ hok => ?_
    obtain ⟨hlow, hhigh⟩ := hok
    exact if_neg (by simp; omega)
  case info => exact answers_of_run (fun _ _ => rfl) (fun _ _ _ _ _ => rfl)
  case clear =>
    refine answers_of_run (fun _ _ => rfl) fun k p u _ hok => ?_
    obtain ⟨hlast, hnone, hstate⟩ := hok
    have hallowed : ¬((!(u.pow.state == .ready || u.pow.state == .commissioning || u.pow.state == .layover)) = true) := by
      rcases hstate with h | h | h <;> rw [h] <;> decide
    simp only [recClearSpec, hlast, hnone]
    exact (if_neg (by decide)).trans ((if_neg hallowed).trans (if_neg (by decide)))
  case mark =>
    refine fun x => answers_of_run (fun _ _ => rfl) fun k p u _ hok => ?_
    obtain ⟨hsession, hmarks, hroom⟩ := hok
    simp only [recMarkSpec, hsession, hmarks, List.filter_nil, logJ_tt]
    exact (if_neg (by decide)).trans (if_neg (by simp [not_le.mpr hroom]))
  case region =>
    refine answers_of_run (fun _ _ => rfl) fun k p u _ hok => ?_
    obtain ⟨hregion, hhold, hsource, hcount⟩ := hok
    exact (if_neg (by simp; omega)).trans (if_neg (by simp [hsource, hcount]))
  case display => exact answers_of_run (fun _ _ => rfl) (fun _ _ _ _ _ => rfl)
  case config =>
    refine answers_of_run (fun _ _ => rfl) fun k p u _ hok => ?_
    obtain ⟨hone, hact, hsrc, hlow, hhigh⟩ := hok
    simp only [dispConfigSpec, hone]
    exact (if_neg (by simp; omega)).trans ((if_neg (by simp; omega)).trans (if_neg (by decide)))
  case power => exact answers_of_run (fun _ _ => rfl) (fun _ _ _ _ _ => rfl)
  case mode =>
    refine answers_of_run (fun _ _ => rfl) fun k p u _ hok => ?_
    obtain ⟨hlow, hhigh, hnew, hallowed⟩ := hok
    simp only [powerModeSpec, hnew, hallowed]
    exact (if_neg (not_lt.mpr hhigh)).trans ((if_neg (by simp; omega)).trans (if_neg (by decide)))
  case timetable => exact answers_of_run (fun _ _ => rfl) (fun _ _ _ _ _ => rfl)
  case counters =>
    refine answers_of_run (fun _ _ => rfl) fun k p u _ hok => ?_
    simp only [timetableCountersSpec, hok, if_true]

end Sys2Proof.Claims

end
